-- ==== Sys2Proof/Word.lean ====
section
/-! DEFINITION. The word, byte and address types of the FL-8464 (00_scope.md, "Registers and access types":
registers are 64 bits wide and little-endian; R26: one 48-bit physical address map). -/

namespace Sys2Proof

/-- A 64-bit register or general-register value (R99, "Registers are 64 bits wide"). -/
abbrev Word := BitVec 64

/-- One byte. -/
abbrev Byte := BitVec 8

/-- The data of the widest access the spec knows, the 16-byte frame push (R48, R84). -/
abbrev Quad := BitVec 128

end Sys2Proof
end

