-- ==== Sys2Proof/Machine/Types.lean ====
section
/-! DEFINITION. The named things the commands and the state are made of: FLA operands and operations, privilege
levels, copy states, memory requests. -/

namespace Sys2Proof

/-- A general register g0 to g15 (R99). -/
abbrev Reg := Fin 16

/-- A predicate p0 to p7 (R100). -/
abbrev Pred := Fin 8

/-- The operation width w (R104, R110): 1, 2, 4 bytes under a width prefix, 8 without. -/
inductive Width where
  | w1 | w2 | w4 | w8
deriving DecidableEq, Repr

/-- The width in bytes. -/
def Width.bytes : Width → Nat
  | .w1 => 1 | .w2 => 2 | .w4 => 4 | .w8 => 8

/-- The width in bits, 8w. -/
def Width.bits : Width → Nat
  | .w1 => 8 | .w2 => 16 | .w4 => 32 | .w8 => 64

/-- The width code of the tint and of FAULTINF.WIDTH (R48 offset 0x15). -/
def Width.code : Width → Nat
  | .w1 => 0 | .w2 => 1 | .w4 => 2 | .w8 => 3

/-- A guard prefix (R107): execute only if the predicate has the sense. -/
structure Guard where
  sense : Bool
  pred  : Pred
deriving DecidableEq, Repr

/-- Which copy of which triad executes, and the instruction's guard, width and split prefixes, which may stand in any order
(R107, R108). -/
structure Ctx where
  /-- triad number t -/
  t : Nat
  /-- copy letter c: 0 A, 1 B, 2 C -/
  c : Nat
  guard : Option Guard := none
  w     : Width := .w8
  split : Bool := false
  /-- the byte at which the repeat prefix stands, counted from the instruction's first byte -/
  repAt : Nat := 0
deriving DecidableEq, Repr

/-- The copy's number in the CORE pages, 3t + c (R9). -/
def Ctx.key (x : Ctx) : Nat := 3 * x.t + x.c

/-- The repeat prefixes (R107). -/
inductive RepKind where
  | rep | repu
deriving DecidableEq, Repr

/-- A second operand (R113 rows 0x0 to 0x2, R115): a register or an immediate of the form's size. -/
inductive Src2 where
  | reg (b : Reg)
  | imm8 (v : BitVec 8)
  | imm32 (v : BitVec 32)
deriving DecidableEq, Repr

/-- A displacement of 1 or 4 bytes (R105). -/
inductive Disp where
  | d8 (v : BitVec 8)
  | d32 (v : BitVec 32)
deriving DecidableEq, Repr

/-- The two- and three-operand arithmetic operations of the primary map and of map 0xE0 (R113, R114). -/
inductive AluOp where
  | add | sub | and | or | xor | andn | shl | shr | sar | rol | ror | mul | mulh | mulhu | addt
  | div | divu | rem | remu | subt | mult | min | max | minu | maxu
deriving DecidableEq, Repr

/-- The one-operand moves, extensions and bit counts (R113). -/
inductive UnOp where
  | mov | neg | not | sxb | sxh | sxw | zxb | zxh | zxw | clz | ctz | popc | bswap
deriving DecidableEq, Repr

/-- The ten conditions of the compares, in the order of R115. -/
inductive CmpOp where
  | eq | ne | lt | le | gt | ge | ltu | leu | gtu | geu
deriving DecidableEq, Repr

/-- The two-operand predicate logic (R116). -/
inductive PredOp where
  | pand | por | pxor | pandn | pnot | pmov
deriving DecidableEq, Repr

/-- An FLA instruction with its operands; guard, width, split and repeat stand in the prefixes. -/
inductive Fla where
  | alu (op : AluOp) (d a : Reg) (b : Src2)
  | un (op : UnOp) (d a : Reg)
  | movi (d : Reg) (v : Word)
  | movis (d : Reg) (v : BitVec 32)
  | movpg (d : Reg)
  | ld (d a : Reg) (o : Disp)
  | lds (d a : Reg) (o : Disp)
  | ldpc (d : Reg) (o : BitVec 32)
  | st (d a : Reg) (o : Disp)
  | sti (a : Reg) (o : Disp) (v : Word)
  | lea (d a : Reg) (o : Disp)
  | leapc (d : Reg) (o : BitVec 32)
  | push (a : Reg)
  | pop (d : Reg)
  | br (o : Disp)
  | brr (a : Reg)
  | call (o : BitVec 32)
  | callr (a : Reg)
  | dbnz (d : Reg) (o : Disp)
  | ret
  | rete
  | tas (p : Pred) (a : Reg) (o : Disp)
  | ldrs (d a : Reg)
  | stc (p : Pred) (d a : Reg)
  | clrres
  | mfc (d : Reg) (n : BitVec 16)
  | mtc (a : Reg) (n : BitVec 16)
  | hold (n : BitVec 16)
  | wait
  | msync
  | fence
  | fenceRule
  | nop
  | movs
  | fills
  | cmps (p : Pred)
  | scans (p : Pred) (a : Reg)
  | crcs
  | cmp (op : CmpOp) (p : Pred) (d : Reg) (b : Src2)
  | tst (p : Pred) (d a : Reg)
  | tsti (p : Pred) (d : Reg) (v : BitVec 32)
  | plog (op : PredOp) (p q : Pred)
  | pset (p : Pred)
  | pclr (p : Pred)
  | pnz (p : Pred) (a : Reg)
  | movgp (a : Reg)
deriving DecidableEq, Repr

/-- The privilege levels (R154). -/
inductive Level where
  | machine | system | task
deriving DecidableEq, Repr

/-- The encoding of a level in STATUS.LVL and LEVEL.CUR (R154). -/
def Level.code : Level → Nat
  | .machine => 0 | .system => 1 | .task => 2

/-- The six states of a copy (R68, TSTAT.CSA). -/
inductive CopyState where
  | running | out | ejected | mordanting | retired | unpowered
deriving DecidableEq, Repr

/-- The encoding of a copy state in TSTAT (TSTAT.CSA). -/
def CopyState.code : CopyState → Nat
  | .running => 0 | .out => 1 | .ejected => 2 | .mordanting => 3 | .retired => 4 | .unpowered => 5

/-- The memory request kinds of the tint (R48 offset 0x14). -/
inductive ReqKind where
  | load | store | tas | ldrs | stc | frame | crc
deriving DecidableEq, Repr

/-- The code of a request kind (R48 offset 0x14). -/
def ReqKind.code : ReqKind → Nat
  | .load => 1 | .store => 2 | .tas => 3 | .ldrs => 4 | .stc => 5 | .frame => 6 | .crc => 7

/-- A memory request as the TMI compares it in full: kind, address, width, SPLIT bit, byte enables and data
(R52); the copy's local flag is part of an STC request (R58). The byte enables follow from address and size. -/
structure MemReq where
  kind  : ReqKind
  addr  : Nat
  size  : Nat
  split : Bool
  data  : Quad
  flag  : Bool
deriving DecidableEq, Repr

/-- A CAP payload (R295). -/
structure Cap where
  vermask : Nat
  ratemask : Nat
  maxlanes : Nat
  srcdev : Nat
  link : Nat
  state : Nat
  ready : Bool
  master : Bool
  partid : Word
deriving DecidableEq, Repr

/-- A vote record as sent (R197). -/
structure VoteRec where
  dev : Nat
  status : Nat
  key : Nat
  group : Nat
  gen : Word
  frame : Nat
  digest : Word
deriving DecidableEq, Repr

/-- The header of a BVL frame without its TYPE and LEN, which follow from the payload (R301): the acknowledgement it
carries, where valid, as VC and last SEQ accepted. -/
structure BvlHdr where
  vc : Nat
  retry : Bool
  plane : Bool
  seq : Nat
  ack : Option (Nat × Nat)
  srcdev : Nat
  frameno : Nat
  tag : Nat
deriving DecidableEq, Repr

/-- What arrives of a frame besides its payload (R301): its lane, TYPE, LEN, the bits of its zero fields (bits 2:0 those of the VC
byte, 6:3 of ACKVC, 22:7 of offset 0x0E, 54:23 of the four bytes behind the CRC, higher ones of the payload), its CRC-32C, the other header fields; where the
CRC fails, whether the VC field can be trusted (R304). -/
structure BvlRx where
  lane : Nat
  type : Nat
  len : Nat
  zeros : Nat
  crc : Nat
  vcOk : Bool
  hdr : BvlHdr
deriving DecidableEq, Repr

/-- A frame's TYPE and payload (R302). -/
inductive BvlBody where
  | data (bytes : List Byte)
  | req (addr kind width : Nat) (bytes : List Byte)
  | rsp (status : Nat) (bytes : List Byte)
  | vote (v : VoteRec)
  | time (tx rxlast txlast : Nat)
  | svc (code arg : Nat) (msg : List Byte)
  | cap (c : Cap)
  | ack
  | nak
deriving DecidableEq, Repr

/-- What the CR of a slot holds beyond its signature (R335), read by the codes of VITA 1.1: checksum good, IDs, claimed data widths (bit
0 D08 to bit 3 D64), claimed spaces (bit 0 A16 to bit 3 A64), claimed protocols (bit p: code p). -/
structure CrView where
  sumOk : Bool
  mfr : Nat
  board : Nat
  widths : Nat
  spaces : Nat
  protos : Nat
deriving DecidableEq, Repr

/-- How the bus answers an outbound entry (R326, R327, R335): every cycle acknowledged, with the data read, the 32 bytes read at a
probe address, or the fields of a CR; BERR after `done` bytes. -/
inductive VmeAns where
  | ok (data : Quad)
  | bytes (data : List Byte)
  | cr (v : CrView)
  | err (done : Nat)
deriving DecidableEq, Repr

/-- An inbound VME cycle (R329): its space code (4: CR/CSR), address, address modifier, whether supervisory, a write, an RMW, a 2eVME or 2eSST
cycle, address-only; its size in bytes and data. -/
structure VmeCycle where
  space : Nat
  addr : Nat
  am : Nat
  sup : Bool
  write : Bool
  rmw : Bool
  twoe : Bool
  addrOnly : Bool
  size : Nat
  data : Quad
deriving DecidableEq, Repr

/-- A received Ethernet frame: its bytes, and the FCS behind them (R319). -/
structure EthFrame where
  bytes : List Byte
  fcs : Nat
deriving DecidableEq, Repr

/-- The notices between engines (R194). -/
inductive NoticeKind where
  | loss | completion | takeover
deriving DecidableEq, Repr

/-- What a flit carries besides its header (R37, R194): a request of an initiator (R249), a response, a notice of a kind to an engine
about a job, an untagged message (R258). -/
inductive FlitLoad where
  | request (iid : Nat)
  | response
  | notice (kind : NoticeKind) (dst job : Nat)
  | message
deriving DecidableEq, Repr

/-- A flit that reaches a hop or an endpoint (R254, R255): the compute die, or 2 for the crossbar and the I/O die; the region at
whose local-port endpoint it arrives, if at one; whether the place is an endpoint; its path: source and destination endpoint, each
by the number of its domain (R349; 97 for the I/O die beyond the switched domains), and plane; its sequence number, resync marker
and tag; what it carries; whether its CRC is good. -/
structure FlitIn where
  die : Nat
  region : Option Nat
  endpoint : Bool
  src : Nat
  dst : Nat
  open' : Bool
  seq : Nat
  resync : Bool
  tag : Nat
  load : FlitLoad
  good : Bool
deriving DecidableEq, Repr

/-- The number of a flit's path (R255). -/
def FlitIn.path (f : FlitIn) : Nat := 256 * f.src + 2 * f.dst + (if f.open' then 1 else 0)

/-- What a start step finds (R375, R384, R388): whether its own tests passed and, at step 6, the page of the block that failed;
at step 7 the failing copies (triad, letter), regions and dies; at step 8 whether the time limit of the WAIT record that it
stands at has passed. -/
structure StartResult where
  pass : Bool
  page : Nat
  copies : List (Nat × Nat)
  regions : List Nat
  dies : List Nat
  timeout : Bool
  unread : List Nat
deriving DecidableEq, Repr

/-- The vectors that a request may carry: 6, 16 to 26 and 32 to 63 (R62, the vector table of R158). -/
def vectorOk (v : Nat) : Bool := v == 6 || (decide (16 ≤ v) && decide (v ≤ 26)) || (decide (32 ≤ v) && decide (v ≤ 63))

end Sys2Proof
end

