-- ==== Sys2Proof/Syntax.lean ====
section
/-! DEFINITION. The commands: one constructor per row of spec/opcode_table.json, with the row's operands. An FLA
instruction carries the copy that executes it and its prefixes in a `Ctx`; an event carries what its rule says
reaches the block. -/

namespace Sys2Proof

/-- A command of the FL-8464. -/
inductive Instr where
  -- FLA arithmetic and logic (R113, R114, R127 to R130)
  | add (x : Ctx) (d a : Reg) (b : Src2)
  | sub (x : Ctx) (d a : Reg) (b : Src2)
  | and (x : Ctx) (d a : Reg) (b : Src2)
  | or (x : Ctx) (d a : Reg) (b : Src2)
  | xor (x : Ctx) (d a : Reg) (b : Src2)
  | andn (x : Ctx) (d a : Reg) (b : Src2)
  | shl (x : Ctx) (d a : Reg) (b : Src2)
  | shr (x : Ctx) (d a : Reg) (b : Src2)
  | sar (x : Ctx) (d a : Reg) (b : Src2)
  | rol (x : Ctx) (d a : Reg) (b : Src2)
  | ror (x : Ctx) (d a : Reg) (b : Src2)
  | mul (x : Ctx) (d a : Reg) (b : Src2)
  | mulh (x : Ctx) (d a : Reg) (b : Src2)
  | mulhu (x : Ctx) (d a : Reg) (b : Src2)
  | addt (x : Ctx) (d a : Reg) (b : Src2)
  | subt (x : Ctx) (d a b : Reg)
  | mult (x : Ctx) (d a b : Reg)
  | div (x : Ctx) (d a b : Reg)
  | divu (x : Ctx) (d a b : Reg)
  | rem (x : Ctx) (d a b : Reg)
  | remu (x : Ctx) (d a b : Reg)
  | min (x : Ctx) (d a b : Reg)
  | max (x : Ctx) (d a b : Reg)
  | minu (x : Ctx) (d a b : Reg)
  | maxu (x : Ctx) (d a b : Reg)
  -- moves, extensions, bit counts (R113)
  | mov (x : Ctx) (d a : Reg)
  | movi (x : Ctx) (d : Reg) (v : Word)
  | movis (x : Ctx) (d : Reg) (v : BitVec 32)
  | neg (x : Ctx) (d a : Reg)
  | not (x : Ctx) (d a : Reg)
  | sxb (x : Ctx) (d a : Reg)
  | sxh (x : Ctx) (d a : Reg)
  | sxw (x : Ctx) (d a : Reg)
  | zxb (x : Ctx) (d a : Reg)
  | zxh (x : Ctx) (d a : Reg)
  | zxw (x : Ctx) (d a : Reg)
  | clz (x : Ctx) (d a : Reg)
  | ctz (x : Ctx) (d a : Reg)
  | popc (x : Ctx) (d a : Reg)
  | bswap (x : Ctx) (d a : Reg)
  | movpg (x : Ctx) (d : Reg)
  -- loads, stores, stack (R126, R132 to R134)
  | ld (x : Ctx) (d a : Reg) (o : Disp)
  | lds (x : Ctx) (d a : Reg) (o : Disp)
  | ldpc (x : Ctx) (d : Reg) (o : BitVec 32)
  | st (x : Ctx) (d a : Reg) (o : Disp)
  | sti (x : Ctx) (a : Reg) (o : Disp) (v : Word)
  | lea (x : Ctx) (d a : Reg) (o : Disp)
  | leapc (x : Ctx) (d : Reg) (o : BitVec 32)
  | push (x : Ctx) (a : Reg)
  | pop (x : Ctx) (d : Reg)
  -- control transfer (R137 to R139, R169)
  | br (x : Ctx) (o : Disp)
  | brr (x : Ctx) (a : Reg)
  | call (x : Ctx) (o : BitVec 32)
  | callr (x : Ctx) (a : Reg)
  | dbnz (x : Ctx) (d : Reg) (o : Disp)
  | ret (x : Ctx)
  | rete (x : Ctx)
  -- atomics (R135, R136)
  | tas (x : Ctx) (p : Pred) (a : Reg) (o : Disp)
  | ldrs (x : Ctx) (d a : Reg)
  | stc (x : Ctx) (p : Pred) (d a : Reg)
  | clrres (x : Ctx)
  -- control registers and synchronisation (R148 to R152)
  | mfc (x : Ctx) (d : Reg) (n : BitVec 16)
  | mtc (x : Ctx) (a : Reg) (n : BitVec 16)
  | hold (x : Ctx) (n : BitVec 16)
  | wait (x : Ctx)
  | msync (x : Ctx)
  | fence (x : Ctx)
  | fenceRule (x : Ctx)
  | nop (x : Ctx)
  -- block operations and repetition (R140 to R147)
  | movs (x : Ctx)
  | fills (x : Ctx)
  | cmps (x : Ctx) (p : Pred)
  | scans (x : Ctx) (p : Pred) (a : Reg)
  | crcs (x : Ctx)
  | repeatElement (x : Ctx) (r : RepKind) (i : Fla)
  -- compares and predicate logic (R115, R116)
  | eq (x : Ctx) (p : Pred) (d : Reg) (b : Src2)
  | ne (x : Ctx) (p : Pred) (d : Reg) (b : Src2)
  | lt (x : Ctx) (p : Pred) (d : Reg) (b : Src2)
  | le (x : Ctx) (p : Pred) (d : Reg) (b : Src2)
  | gt (x : Ctx) (p : Pred) (d : Reg) (b : Src2)
  | ge (x : Ctx) (p : Pred) (d : Reg) (b : Src2)
  | ltu (x : Ctx) (p : Pred) (d : Reg) (b : Src2)
  | leu (x : Ctx) (p : Pred) (d : Reg) (b : Src2)
  | gtu (x : Ctx) (p : Pred) (d : Reg) (b : Src2)
  | geu (x : Ctx) (p : Pred) (d : Reg) (b : Src2)
  | tst (x : Ctx) (p : Pred) (d a : Reg)
  | tsti (x : Ctx) (p : Pred) (d : Reg) (v : BitVec 32)
  | pand (x : Ctx) (p q : Pred)
  | por (x : Ctx) (p q : Pred)
  | pxor (x : Ctx) (p q : Pred)
  | pandn (x : Ctx) (p q : Pred)
  | pnot (x : Ctx) (p q : Pred)
  | pmov (x : Ctx) (p q : Pred)
  | pset (x : Ctx) (p : Pred)
  | pclr (x : Ctx) (p : Pred)
  | pnz (x : Ctx) (p : Pred) (a : Reg)
  | movgp (x : Ctx) (a : Reg)
  -- the triads, their TMIs and voters (R39 to R98, R157 to R178): events of the copies, mordanting, writes of
  -- their pages
  | exceptionEntry (t c : Nat)
  | interruptRequest (t v : Nat)
  | tintArrival (t c : Nat)
  | replayLoadRequest (t c : Nat)
  | gatedRequest (t c : Nat)
  | tmiResponse (t : Nat)
  | lagLimit (t c : Nat)
  | stepBlockEnd (t c avg : Nat)
  | tcmScrub (t c : Nat)
  | tcmWriteBack (t c : Nat)
  | mordantingRoundEnd (t : Nat) (ok : Bool)
  | mordantingPause (t : Nat)
  | mordantingComplete (t : Nat) (ok : Bool)
  | mordtmoExpiry (t : Nat)
  | tmodeWrite (iid t : Nat) (v : Word)
  | tcfgWrite (iid t : Nat) (v : Word)
  | irqsetWrite (iid t : Nat) (v : Word)
  | radmwinWrite (iid t : Nat) (v : Word)
  | clrmon (iid key : Nat)
  | clrcnt (iid page off : Nat)
  -- the timebase, the schedule engines and the table loads (R179 to R215)
  | frameStart
  | move (n i : Nat)
  | moveWindowEnd (n i : Nat) (commit : Bool)
  | release (n i : Nat)
  | deadlineEnd (n j : Nat)
  | doneComplete (iid n job : Nat)
  | doneStopAck (iid n job : Nat)
  | lossNotice (n : Nat)
  | completionNotice (n : Nat)
  | takeoverNotice (n : Nat)
  | noticeTimeout (n j : Nat)
  | rerunMoveEnd (n j : Nat)
  | sparedlEnd (n j : Nat)
  | vote (n i : Nat)
  | voteWindowEnd (n i : Nat)
  | commit (n i : Nat)
  | tx (q i : Nat)
  | rxchk (q i : Nat)
  | tbldataWrite (iid page : Nat) (v : Word)
  | tblchk (iid : Nat)
  | swframeWrite (iid : Nat) (v : Word)
  | sctlEnWrite (iid n : Nat) (on : Bool)
  | alarmFire (n : Nat)
  | srcWrite (iid v : Nat)
  | sourceLock
  | sourceFailure
  | ppsinEdge
  | txHandoverComplete (q k : Nat)
  | txWindowEnd (q k : Nat)
  -- region SRAM and DDR4 (R224 to R240)
  | sramAccess (n : Nat)
  | sramWriteBack (n : Nat)
  | zeroFillComplete (n : Nat) (ok : Bool)
  | ddr4Request (k : Nat)
  | maintenanceWindow (k : Nat)
  | dcfgWrite (iid k : Nat) (v : Word)
  | start (iid k : Nat)
  | trainingComplete (k : Nat) (pass : Bool) (us : Nat)
  | trainingTimeout (k : Nat)
  | init (iid k : Nat)
  | initComplete (k : Nat)
  | mirror (iid k : Nat) (on : Bool)
  | retrain (iid k : Nat)
  | retire (iid k : Nat)
  | selfRefreshExitComplete (k : Nat)
  -- firewalls, flits, tags and CRC units (R241 to R263)
  | commitFwall (iid n : Nat) (v : Word)
  | clrdeny (iid n : Nat)
  | flitArrival (f : FlitIn)
  | tagTimeout (tag : Nat)
  | crcFeed (n : Nat)
  | crctlInit (iid n mask : Nat)
  | ccfgWrite (iid n i : Nat) (v : Word)
  | cvalueWrite (iid n i : Nat) (count : Bool) (v : Word)
  -- the fault collector and fault injection (R264 to R289)
  | faultEvent (src code unit : Nat) (detail : Word)
  | railFault (src pair : Nat)
  | takeEvent
  | resetActionExpiry
  | railSweep (bad : List Nat)
  | leakClear
  | erroutToggle
  | rtblchk (iid : Nat)
  | rswgenWrite (iid : Nat) (v : Word)
  | reactionBankExchange
  | flogselWrite (iid : Nat) (v : Word)
  | clrfirst (iid : Nat)
  | clrlog (iid : Nat)
  | arm (iid page : Nat) (v : Word)
  -- lanes, negotiation, BVL links and Ethernet (R290 to R322)
  | lctlEnWrite (iid l : Nat) (on : Bool)
  | signalDetect (l : Nat)
  | autoNegotiation (l abilities : Nat) (fec : Bool) (page : Nat)
  | capSend (l : Nat)
  | cap (rx : BvlRx) (flags : Nat) (c : Cap)
  | rateChange (l : Nat)
  | equaliserConverged (l : Nat)
  | trainingLimit (l : Nat)
  | confirmTimeout (l : Nat)
  | laneFailure (l why : Nat)
  | spareTimeout (l : Nat)
  | downExpiry (i : Nat)
  | retune (iid l : Nat)
  | reneg (iid l : Nat)
  | sendindigo (iid l : Nat)
  | indigoDetect (l : Nat)
  | data (rx : BvlRx) (bytes : List Byte)
  | req (rx : BvlRx) (addr kind width : Nat) (bytes : List Byte)
  | rsp (rx : BvlRx) (status : Nat) (bytes : List Byte)
  | voteFrame (rx : BvlRx) (v : VoteRec)
  | time (rx : BvlRx) (tx rxlast txlast : Nat)
  | svc (rx : BvlRx) (code arg : Nat) (msg : List Byte)
  | ack (rx : BvlRx)
  | nak (rx : BvlRx)
  | reorderTimeout (i vc : Nat)
  | retryTimeout (i vc : Nat)
  | timeSend (i : Nat)
  | holdover
  | holdoverExpiry
  | peerHoldTimeout (i tag : Nat) (serving : Bool) (dev : Nat)
  | blcfgWrite (iid i : Nat) (v : Word)
  | restart (iid q : Nat)
  | ethernetFrame (mac : Nat) (f : EthFrame)
  | tailWrite (iid mac : Nat) (rx : Bool) (v : Word)
  | transmitDescriptorReturned (mac : Nat)
  -- the VME port (R323 to R339)
  | outboundAccess
  | queueEntry (a : VmeAns)
  | busTimer (done : Nat)
  | queueTimeout
  | inboundCycle (c : VmeCycle)
  | sysresetIn
  | sysresetExpiry
  | vcfgWrite (iid : Nat) (v : Word)
  | virqWrite (iid : Nat) (v : Word)
  | iack (level : Nat)
  | irqAsserted (level : Nat)
  | vintpopRead (iid : Nat)
  | vmemapWrite (iid off : Nat) (v : Word)
  | pcfgWrite (iid p : Nat) (v : Word)
  | discWrite (iid : Nat) (v : Word)
  -- CAN FD, UART, management, I2C and GPIO ports (R340 to R348)
  | mailboxHeaderWrite (iid k m : Nat) (v : Word)
  | canFrameReceived (k : Nat) (hdr : Word) (bytes : List Byte)
  | recover (iid k : Nat)
  | udataWrite (iid k : Nat) (v : Word)
  | udataRead (iid k : Nat)
  | uartCharacter (k ch err : Nat)
  | mdioGo (iid i : Nat) (v : Word)
  | icmdStart (iid k : Nat)
  | icmdWrite (iid k data : Nat)
  | icmdReadAck (iid k : Nat)
  | icmdReadNack (iid k : Nat)
  | icmdStop (iid k : Nat)
  | iresRead (iid k : Nat)
  | gsetWrite (iid : Nat) (v : Word)
  | gclrWrite (iid : Nat) (v : Word)
  | gpioInputChange (levels : Nat)
  | canFrameSent (k r : Nat)
  | recoverySequenceComplete (k : Nat)
  | uartCharacterSent (k : Nat)
  | mdioFrameDone (i data : Nat)
  | i2cCommandComplete (k data : Nat) (ack : Bool)
  | i2cSlaveAddressed (k : Nat)
  | mgmtLinkDown (i : Nat)
  -- domains, levels, sleep and temperature (R349 to R370)
  | domainRequest (iid : Nat) (rdom : Bool) (v : Word)
  | domainSwitchComplete (d : Nat) (late : Bool)
  | plWrite (iid t : Nat) (v : Word)
  | levelChangeComplete (t : Nat)
  | entryStageComplete (t : Nat)
  | wake (t v : Nat)
  | wakeSource (src idx : Nat)
  | thermalSample (t0 t1 tio : Nat)
  | regulatorOutOfRegulation (t : Nat)
  | dmodeWrite (iid v : Nat)
  | clrabort (iid : Nat)
  -- resets, the start sequence and self-test (R371 to R394, R450)
  | powerOnReset (cause devid : Nat)
  | startStepComplete (r : StartResult)
  | deviceReset (iid key : Nat)
  | dieReset (iid key d : Nat)
  | regionReset (iid key n : Nat)
  | triadReset (iid key t : Nat)
  | debugReset
  | startok (iid : Nat)
  | starttmoExpiry
  | step9Timeout
  | retryExpiry
  | go (iid : Nat) (v : Word)
  | bistRunEnd (pass : Bool)
  | resetComplete (kind inst : Nat)
  -- the service channels and live update (R395 to R417)
  | serviceMessage (ch src : Nat) (bytes : List Byte)
  | mailboxPoll
  | getseq (ch : Nat)
  | resend (ch : Nat)
  | readreg (ch : Nat)
  | logread (ch : Nat)
  | writereg (ch : Nat)
  | msg (ch : Nat)
  | flashwrite (ch : Nat)
  | flasherase (ch : Nat)
  | verify (ch : Nat)
  | setpref (ch : Nat)
  | dirset (ch : Nat)
  | loadtable (ch : Nat)
  | loadreact (ch : Nat)
  | loadtriad (ch : Nat)
  | loadmcode (ch : Nat)
  | wardenswap (ch : Nat) (takes : Bool)
  | handoverTimeout
  | reset (ch : Nat)
  | installset (ch : Nat)
  | revokekey (ch : Nat)
  | send (iid : Nat)
  | msgin7Read (iid : Nat)
  | acknowledgeWaitExpiry
  -- writes of the register pages that have no row of their own (R4 to R8, R418 to R428)
  | pglockWrite (iid page : Nat)
  | registerWrite (iid page off n : Nat) (v : Word)
deriving DecidableEq, Repr

end Sys2Proof
end

