-- ==== Sys2Proof/Decode.lean ====
section
/-! DEFINITION. The command that a table word spells. spec/opcode_table.json gives no row a bit: `fields` of every row is empty, so
no word spells a command. (The encoding of the FLA instructions in a copy's TCM, R103 to R120, is decoded by
Sys2Proof.Machine.decodeFla.) -/

namespace Sys2Proof

/-- The command that `nbits` bits `w` spell by the table: none, since no row has bits. -/
def decodeTableWord (_nbits _w : Nat) : Option Instr := none

end Sys2Proof
end

