-- ==== Sys2Proof/Machine/AMap.lean ====
section
/-! DEFINITION. Sparse plain data by number: a list of (key, value) pairs, keys strictly rising, no entry equal to
what an unlisted key reads as. Every numbered collection of the machine (registers, copies, triads, links, bytes
of memory) is one of these, so that equal collections are equal lists. -/

namespace Sys2Proof

/-- A numbered collection in its sparse form. -/
abbrev AMap (α : Type) := List (Nat × α)

/-- The entry at `k`, where one is listed. -/
def AMap.find? {α : Type} : AMap α → Nat → Option α
  | [], _ => none
  | (a, v) :: m, k => if k = a then some v else AMap.find? m k

/-- The value at `k`: the listed one, else the default `d k`. -/
def AMap.get {α : Type} (m : AMap α) (d : Nat → α) (k : Nat) : α :=
  (AMap.find? m k).getD (d k)

/-- Put `v` at `k`, keeping the keys rising. -/
def AMap.put {α : Type} (k : Nat) (v : α) : AMap α → AMap α
  | [] => [(k, v)]
  | (a, w) :: m =>
    if k < a then (k, v) :: (a, w) :: m
    else if k = a then (k, v) :: m
    else (a, w) :: AMap.put k v m

/-- Take the entry at `k` out. -/
def AMap.drop {α : Type} (k : Nat) (m : AMap α) : AMap α :=
  m.filter fun e => e.1 != k

/-- Write `v` at `k`: writing the default takes the entry out. -/
def AMap.set {α : Type} [DecidableEq α] (m : AMap α) (d : Nat → α) (k : Nat) (v : α) : AMap α :=
  if v = d k then AMap.drop k m else AMap.put k v m

/-- The keys rise strictly. -/
def AMap.rising {α : Type} : AMap α → Bool
  | [] => true
  | [_] => true
  | (a, _) :: (b, w) :: m => decide (a < b) && AMap.rising ((b, w) :: m)

/-- The canonical form: keys strictly rising, no entry equal to its default. -/
def AMap.wf {α : Type} [DecidableEq α] (m : AMap α) (d : Nat → α) : Bool :=
  AMap.rising m && m.all fun e => decide (e.2 ≠ d e.1)

end Sys2Proof
end

