-- ==== Sys2Proof/Machine/RegTable.lean ====
section
/-! DEFINITION. The register pages of the FL-8464, as the chapters' register tables give them: for every page the
registers, for every register its fields with their access types and reset values (R5, R418, R429). Offsets and
counts are the tables' own. Bits that no field names are reserved (R7). -/

namespace Sys2Proof.Machine

/-- The access types of R5. -/
inductive FieldType where
  | rw | ro | w1c | w1s | wo | rwl | rws
deriving DecidableEq, Repr

/-- One field of a register: bits hi to lo, its access type and its reset value. -/
structure Field where
  hi : Nat
  lo : Nat
  ty : FieldType
  reset : Nat
deriving DecidableEq, Repr

/-- A register, or an array of `count` registers `stride` bytes apart. -/
structure RegRow where
  off : Nat
  stride : Nat
  count : Nat
  fields : List Field
deriving DecidableEq, Repr

/-- The page blocks of the index (R429); the reaction-table pages are four kinds, by bank and half (R282). -/
inductive PageKind where
  | device | warden | svc | fcol | rta0 | rta1 | rti0 | rti1 | pwr | timebase | bist | image | triad | core | region | sched | crcu | fwall | ddrc | lane | laneq | bvl | eth | lsched | vme | vmemap | vmepart | canfd | uart | mgmt | spif | i2c | gpio
deriving DecidableEq, Repr

/-- The common header of every page (16_register_pages.md R418): PGID, PGCAP, PGCTL, PGSTAT, PGERR, PGINJ, PGLOCK, PGGEN. -/
def regsHdr : List RegRow :=
  [
  ⟨0x000, 0x8, 1, [⟨63, 48, .ro, 0xA1⟩, ⟨42, 40, .ro, 0⟩, ⟨39, 32, .ro, 1⟩, ⟨31, 16, .ro, 0⟩, ⟨15, 0, .ro, 0⟩]⟩,
  ⟨0x008, 0x8, 1, [⟨33, 32, .ro, 0⟩, ⟨8, 8, .ro, 0⟩, ⟨7, 0, .ro, 0⟩]⟩,
  ⟨0x010, 0x8, 1, [⟨15, 0, .rwl, 0⟩]⟩,
  ⟨0x018, 0x8, 1, [⟨3, 3, .ro, 0⟩, ⟨2, 2, .ro, 0⟩, ⟨1, 1, .ro, 0⟩, ⟨0, 0, .ro, 1⟩]⟩,
  ⟨0x020, 0x8, 1, [⟨63, 48, .ro, 0⟩, ⟨43, 32, .ro, 0⟩, ⟨4, 4, .w1c, 0⟩, ⟨3, 3, .w1c, 0⟩, ⟨2, 2, .w1c, 0⟩, ⟨1, 1, .w1c, 0⟩, ⟨0, 0, .w1c, 0⟩]⟩,
  ⟨0x028, 0x8, 1, [⟨23, 16, .rw, 0⟩, ⟨15, 8, .rw, 0⟩, ⟨7, 7, .w1c, 0⟩, ⟨6, 4, .rw, 0⟩, ⟨0, 0, .rw, 0⟩]⟩,
  ⟨0x030, 0x8, 1, [⟨0, 0, .w1s, 0⟩]⟩,
  ⟨0x038, 0x8, 1, [⟨63, 0, .ro, 0⟩]⟩]

/-- The block registers of the DEVICE page (14_start.md R373,R374): RSTCTL, RSTWHY, RSTSTAT. -/
def regsDevice : List RegRow :=
  [
  ⟨0x100, 0x8, 1, [⟨63, 48, .wo, 0⟩, ⟨13, 8, .wo, 0⟩, ⟨2, 0, .wo, 0⟩]⟩,
  ⟨0x108, 0x8, 1, [⟨40, 32, .ro, 0⟩, ⟨31, 16, .ro, 0⟩, ⟨15, 8, .ro, 1⟩, ⟨2, 0, .ro, 0⟩]⟩,
  ⟨0x110, 0x8, 1, [⟨1, 1, .ro, 0⟩, ⟨0, 0, .w1c, 0⟩]⟩]

/-- The block registers of the WARDEN page (14_start.md R390,R391): WCTL, WSTAT, BOOTWHY, STARTCFG. -/
def regsWarden : List RegRow :=
  [
  ⟨0x100, 0x8, 1, [⟨0, 0, .wo, 0⟩]⟩,
  ⟨0x108, 0x8, 1, [⟨20, 20, .ro, 0⟩, ⟨17, 16, .ro, 0⟩, ⟨11, 8, .ro, 0⟩, ⟨5, 4, .ro, 0⟩, ⟨3, 0, .ro, 0⟩]⟩,
  ⟨0x110, 0x8, 1, [⟨63, 32, .ro, 0⟩, ⟨23, 16, .ro, 0xFF⟩, ⟨8, 8, .ro, 0⟩, ⟨7, 0, .ro, 0⟩]⟩,
  ⟨0x118, 0x8, 1, [⟨16, 16, .rwl, 0⟩, ⟨15, 0, .rwl, 0x64⟩]⟩]

/-- The block registers of the SVC page (15_service_update.md R395-R417): SCTL, SALLOW, SVCET, SVMEMBX, SCHSEL, SSEQH, SSEQW, SSTAT, MSGCTL, MSGIN, MSGOUT. -/
def regsSvc : List RegRow :=
  [
  ⟨0x100, 0x8, 1, [⟨9, 9, .wo, 0⟩, ⟨8, 8, .rwl, 0⟩, ⟨3, 0, .rwl, 0⟩]⟩,
  ⟨0x108, 0x8, 1, [⟨39, 32, .rwl, 0xFF⟩, ⟨31, 0, .rwl, 0xFFFFFFFF⟩]⟩,
  ⟨0x110, 0x8, 1, [⟨15, 0, .rwl, 0x88B5⟩]⟩,
  ⟨0x118, 0x8, 1, [⟨47, 13, .rwl, 0⟩]⟩,
  ⟨0x120, 0x8, 1, [⟨3, 0, .rw, 0⟩]⟩,
  ⟨0x128, 0x8, 1, [⟨63, 32, .ro, 0⟩, ⟨31, 0, .ro, 0⟩]⟩,
  ⟨0x130, 0x8, 1, [⟨63, 32, .ro, 0⟩, ⟨31, 0, .ro, 0⟩]⟩,
  ⟨0x138, 0x8, 1, [⟨63, 48, .ro, 0⟩, ⟨47, 32, .ro, 0⟩, ⟨31, 16, .ro, 0⟩, ⟨0, 0, .ro, 0⟩]⟩,
  ⟨0x140, 0x8, 1, [⟨21, 16, .ro, 0⟩, ⟨8, 8, .ro, 0⟩, ⟨0, 0, .wo, 0⟩]⟩,
  ⟨0x180, 0x8, 8, [⟨63, 0, .ro, 0⟩]⟩,
  ⟨0x1C0, 0x8, 8, [⟨63, 0, .rw, 0⟩]⟩]

/-- The block registers of the FCOL page (10_fault_reaction.md R264-R289): FCTL, FSTAT, RSWGEN, RSWSTAT, RTBLCHK, SRCSEL, SRCSTAT, FLOGHEAD, FLOGSEL, FLOGREC, FFIRST, CNTC, ISOMASK0, ISOMASK1, RSWEEP. -/
def regsFcol : List RegRow :=
  [
  ⟨0x100, 0x8, 1, [⟨4, 4, .wo, 0⟩, ⟨3, 3, .wo, 0⟩, ⟨2, 2, .rwl, 1⟩, ⟨1, 1, .rwl, 0⟩, ⟨0, 0, .rwl, 0⟩]⟩,
  ⟨0x108, 0x8, 1, [⟨25, 16, .ro, 0⟩, ⟨7, 7, .ro, 0⟩, ⟨6, 6, .ro, 0⟩, ⟨5, 5, .ro, 1⟩]⟩,
  ⟨0x110, 0x8, 1, [⟨63, 0, .rw, 0⟩]⟩,
  ⟨0x118, 0x8, 1, [⟨47, 32, .ro, 0⟩, ⟨23, 16, .ro, 0⟩, ⟨2, 0, .ro, 0⟩]⟩,
  ⟨0x120, 0x8, 1, [⟨0, 0, .wo, 0⟩]⟩,
  ⟨0x128, 0x8, 1, [⟨8, 0, .rw, 0⟩]⟩,
  ⟨0x130, 0x8, 1, [⟨63, 32, .ro, 0⟩, ⟨15, 8, .ro, 0⟩, ⟨2, 2, .ro, 0⟩, ⟨1, 0, .ro, 1⟩]⟩,
  ⟨0x138, 0x8, 1, [⟨31, 0, .ro, 0⟩]⟩,
  ⟨0x140, 0x8, 1, [⟨7, 0, .rw, 0⟩]⟩,
  ⟨0x148, 0x8, 4, [⟨63, 0, .ro, 0⟩]⟩,
  ⟨0x170, 0x8, 4, [⟨63, 0, .ro, 0⟩]⟩,
  ⟨0x190, 0x8, 5, [⟨63, 0, .ro, 0⟩]⟩,
  ⟨0x1B8, 0x8, 1, [⟨63, 0, .ro, 0⟩]⟩,
  ⟨0x1C0, 0x8, 1, [⟨29, 16, .ro, 0⟩, ⟨8, 8, .ro, 0⟩, ⟨7, 0, .ro, 0⟩]⟩,
  ⟨0x1C8, 0x8, 1, [⟨15, 0, .rwl, 0xA⟩]⟩]

/-- The block registers of the RTA0 page (10_fault_reaction.md R282 (page 0x0004, active bank)): RTENT, RTHDR. -/
def regsRta0 : List RegRow :=
  [
  ⟨0x100, 0x8, 256, [⟨63, 0, .ro, 0⟩]⟩,
  ⟨0x900, 0x8, 8, [⟨63, 0, .ro, 0⟩]⟩]

/-- The block registers of the RTA1 page (10_fault_reaction.md R282 (page 0x0005, active bank)): RTENT, RTSAFE. -/
def regsRta1 : List RegRow :=
  [
  ⟨0x100, 0x8, 256, [⟨63, 0, .ro, 0⟩]⟩,
  ⟨0x900, 0x8, 128, [⟨63, 0, .ro, 0⟩]⟩]

/-- The block registers of the RTI0 page (10_fault_reaction.md R282 (page 0x0006, inactive bank)): RTENT, RTHDR. -/
def regsRti0 : List RegRow :=
  [
  ⟨0x100, 0x8, 256, [⟨63, 0, .rw, 0⟩]⟩,
  ⟨0x900, 0x8, 8, [⟨63, 0, .rw, 0⟩]⟩]

/-- The block registers of the RTI1 page (10_fault_reaction.md R282 (page 0x0007, inactive bank)): RTENT, RTSAFE. -/
def regsRti1 : List RegRow :=
  [
  ⟨0x100, 0x8, 256, [⟨63, 0, .rw, 0⟩]⟩,
  ⟨0x900, 0x8, 128, [⟨63, 0, .rw, 0⟩]⟩]

/-- The block registers of the PWR page (13_power.md R349-R370): PCTL, PSTAT, ABORTS, WAKEEN, WAKEWHY, RDOM, XDOM, DOMSTAT, THERM, PIRQ, PEVT, TPWR. -/
def regsPwr : List RegRow :=
  [
  ⟨0x100, 0x8, 1, [⟨2, 2, .wo, 0⟩, ⟨1, 0, .rw, 0⟩]⟩,
  ⟨0x108, 0x8, 1, [⟨37, 32, .ro, 0⟩, ⟨20, 20, .w1c, 0⟩, ⟨19, 16, .ro, 0⟩, ⟨1, 0, .ro, 0⟩]⟩,
  ⟨0x110, 0x8, 1, [⟨31, 0, .ro, 0⟩]⟩,
  ⟨0x118, 0x8, 1, [⟨11, 8, .rw, 0⟩, ⟨3, 0, .rw, 0⟩]⟩,
  ⟨0x120, 0x8, 1, [⟨32, 32, .w1c, 0⟩, ⟨25, 24, .ro, 0⟩, ⟨12, 8, .ro, 0⟩, ⟨3, 0, .ro, 0⟩]⟩,
  ⟨0x128, 0x8, 1, [⟨15, 0, .rw, 0⟩]⟩,
  ⟨0x130, 0x8, 1, [⟨16, 16, .rw, 0⟩, ⟨15, 8, .rw, 0⟩, ⟨7, 0, .rw, 0⟩]⟩,
  ⟨0x138, 0x8, 1, [⟨63, 63, .ro, 0⟩, ⟨32, 32, .ro, 0⟩, ⟨31, 24, .ro, 0⟩, ⟨23, 16, .ro, 0⟩, ⟨15, 0, .ro, 0⟩]⟩,
  ⟨0x140, 0x8, 1, [⟨39, 32, .ro, 0⟩, ⟨31, 24, .ro, 0⟩, ⟨23, 16, .ro, 0⟩, ⟨7, 0, .rwl, 0xB3⟩]⟩,
  ⟨0x148, 0x8, 1, [⟨21, 16, .rw, 0⟩, ⟨2, 0, .rw, 0⟩]⟩,
  ⟨0x150, 0x8, 1, [⟨2, 0, .w1c, 0⟩]⟩,
  ⟨0x200, 0x8, 64, [⟨28, 28, .w1c, 0⟩, ⟨26, 24, .ro, 0⟩, ⟨19, 16, .ro, 0⟩, ⟨9, 8, .rw, 0⟩, ⟨2, 0, .rw, 1⟩]⟩]

/-- The block registers of the TIMEBASE page (07_schedules.md R179-R183,R211-R214): TBCTL, TBSTAT, TIME, FRAMENO, FRAMESTART, ACTGEN, TBLADDR, TBLDATA, TBLCHK, SWGEN, SWFRAME, SWSTAT, ALARMT, ALARMC. -/
def regsTimebase : List RegRow :=
  [
  ⟨0x100, 0x8, 1, [⟨8, 8, .rw, 0⟩, ⟨1, 0, .rw, 0⟩]⟩,
  ⟨0x108, 0x8, 1, [⟨5, 5, .ro, 0⟩, ⟨4, 4, .ro, 0⟩, ⟨3, 3, .ro, 0⟩, ⟨2, 2, .ro, 0⟩, ⟨1, 0, .ro, 0⟩]⟩,
  ⟨0x110, 0x8, 1, [⟨63, 0, .ro, 0⟩]⟩,
  ⟨0x118, 0x8, 1, [⟨63, 0, .ro, 0⟩]⟩,
  ⟨0x120, 0x8, 1, [⟨63, 0, .ro, 0⟩]⟩,
  ⟨0x128, 0x8, 1, [⟨63, 0, .ro, 0⟩]⟩,
  ⟨0x130, 0x8, 1, [⟨15, 3, .rw, 0⟩]⟩,
  ⟨0x138, 0x8, 1, [⟨63, 0, .wo, 0⟩]⟩,
  ⟨0x140, 0x8, 1, [⟨0, 0, .wo, 0⟩]⟩,
  ⟨0x148, 0x8, 1, [⟨63, 0, .rw, 0⟩]⟩,
  ⟨0x150, 0x8, 1, [⟨63, 0, .rw, 0⟩]⟩,
  ⟨0x158, 0x8, 1, [⟨23, 16, .ro, 0⟩, ⟨15, 8, .ro, 0⟩, ⟨2, 0, .ro, 0⟩]⟩,
  ⟨0x160, 0x8, 4, [⟨63, 0, .rw, 0⟩]⟩,
  ⟨0x180, 0x8, 4, [⟨63, 32, .rw, 0⟩, ⟨13, 8, .rw, 0⟩, ⟨0, 0, .rw, 0⟩]⟩]

/-- The block registers of the BIST page (14_start.md R384-R387): BCTL, BSTAT, BSIG, BTOKEN, BRUN, BFAIL0, BFAIL1, BCNT. -/
def regsBist : List RegRow :=
  [
  ⟨0x100, 0x8, 1, [⟨40, 32, .wo, 0⟩, ⟨25, 24, .wo, 0⟩, ⟨21, 16, .wo, 0⟩, ⟨10, 8, .wo, 0⟩, ⟨0, 0, .wo, 0⟩]⟩,
  ⟨0x108, 0x8, 1, [⟨16, 16, .w1c, 0⟩, ⟨9, 8, .ro, 0⟩, ⟨2, 0, .ro, 0⟩]⟩,
  ⟨0x110, 0x8, 1, [⟨63, 0, .ro, 0⟩]⟩,
  ⟨0x118, 0x8, 1, [⟨63, 0, .ro, 0⟩]⟩,
  ⟨0x120, 0x8, 1, [⟨63, 0, .ro, 0⟩]⟩,
  ⟨0x128, 0x8, 1, [⟨63, 0, .ro, 0⟩]⟩,
  ⟨0x130, 0x8, 1, [⟨17, 16, .ro, 0⟩, ⟨15, 0, .ro, 0⟩]⟩,
  ⟨0x138, 0x8, 1, [⟨63, 32, .ro, 0⟩, ⟨31, 0, .ro, 0⟩]⟩]

/-- The block registers of the IMAGE page (15_service_update.md R405-R415): IMCTL, IMSEL, IMINFO, IMATTR, OTPINFO, MCPEND. -/
def regsImage : List RegRow :=
  [
  ⟨0x100, 0x8, 1, [⟨0, 0, .rwl, 0⟩]⟩,
  ⟨0x108, 0x8, 1, [⟨12, 8, .rw, 0⟩, ⟨7, 0, .rw, 0⟩]⟩,
  ⟨0x110, 0x8, 1, [⟨63, 32, .ro, 0⟩, ⟨31, 24, .ro, 0⟩, ⟨22, 16, .ro, 0⟩, ⟨14, 8, .ro, 0⟩, ⟨2, 2, .ro, 0⟩, ⟨1, 1, .ro, 0⟩, ⟨0, 0, .ro, 0⟩]⟩,
  ⟨0x118, 0x8, 1, [⟨63, 0, .ro, 0⟩]⟩,
  ⟨0x120, 0x8, 1, [⟨9, 9, .ro, 0⟩, ⟨8, 8, .ro, 0⟩]⟩,
  ⟨0x128, 0x8, 1, [⟨47, 40, .ro, 0⟩, ⟨39, 32, .ro, 0⟩, ⟨31, 0, .ro, 0⟩]⟩]

/-- The block registers of the TRIAD page (02_triads.md R46,R68,R71,R74-R79): TMODE, TCFG, TSTAT, RETCNTX, DIVIDX, DIVINFO, DIVT, TMISTAT, IRQPEND, IRQSET, MORDSTAT, MORDCFG, RADM. -/
def regsTriad : List RegRow :=
  [
  ⟨0x100, 0x8, 1, [⟨2, 0, .rw, 0⟩]⟩,
  ⟨0x108, 0x8, 1, [⟨47, 32, .rwl, 0x64⟩, ⟨26, 16, .rwl, 0x100⟩, ⟨5, 0, .rwl, 2⟩]⟩,
  ⟨0x110, 0x8, 1, [⟨19, 17, .ro, 0⟩, ⟨16, 16, .w1c, 0⟩, ⟨13, 12, .ro, 3⟩, ⟨10, 8, .ro, 5⟩, ⟨6, 4, .ro, 5⟩, ⟨2, 0, .ro, 5⟩]⟩,
  ⟨0x118, 0x8, 3, [⟨63, 0, .ro, 0⟩]⟩,
  ⟨0x130, 0x8, 1, [⟨63, 0, .ro, 0⟩]⟩,
  ⟨0x138, 0x8, 1, [⟨8, 8, .w1c, 0⟩, ⟨4, 2, .ro, 0⟩, ⟨1, 0, .ro, 3⟩]⟩,
  ⟨0x140, 0x8, 3, [⟨63, 0, .ro, 0⟩]⟩,
  ⟨0x158, 0x8, 1, [⟨29, 24, .w1c, 0⟩, ⟨21, 16, .ro, 0⟩, ⟨14, 8, .w1c, 0⟩, ⟨6, 0, .ro, 0⟩]⟩,
  ⟨0x160, 0x8, 1, [⟨63, 32, .ro, 0⟩, ⟨31, 16, .ro, 0⟩]⟩,
  ⟨0x168, 0x8, 1, [⟨63, 32, .wo, 0⟩, ⟨31, 16, .wo, 0⟩]⟩,
  ⟨0x170, 0x8, 1, [⟨55, 53, .ro, 0⟩, ⟨47, 32, .ro, 0⟩, ⟨21, 12, .ro, 0⟩, ⟨11, 8, .ro, 0⟩, ⟨4, 2, .ro, 0⟩, ⟨1, 0, .ro, 3⟩]⟩,
  ⟨0x178, 0x8, 1, [⟨23, 20, .rwl, 4⟩, ⟨16, 16, .rwl, 0⟩, ⟨15, 0, .rwl, 0x64⟩]⟩,
  ⟨0x180, 0x8, 1, [⟨50, 48, .ro, 0⟩, ⟨45, 44, .ro, 0⟩, ⟨41, 40, .ro, 0⟩, ⟨37, 36, .ro, 0⟩, ⟨16, 0, .rws, 0xE10⟩]⟩]

/-- The block registers of the CORE page (03_core_pipeline.md R87-R94): CSTAT, CPC, STEPMON, STEPLIM, CNTPAIR, CNTSB, CNTFETCH, CNTSMC, CCTL, TCMERR. -/
def regsCore : List RegRow :=
  [
  ⟨0x100, 0x8, 1, [⟨16, 16, .ro, 0⟩, ⟨15, 15, .ro, 0⟩, ⟨14, 14, .ro, 0⟩, ⟨13, 12, .ro, 0⟩, ⟨11, 8, .ro, 0⟩, ⟨6, 4, .ro, 0⟩, ⟨3, 0, .ro, 0xB⟩]⟩,
  ⟨0x108, 0x8, 1, [⟨47, 0, .ro, 0⟩]⟩,
  ⟨0x110, 0x8, 1, [⟨63, 48, .ro, 0⟩, ⟨47, 32, .ro, 0⟩]⟩,
  ⟨0x118, 0x8, 1, [⟨15, 0, .rwl, 0⟩]⟩,
  ⟨0x120, 0x8, 1, [⟨63, 0, .ro, 0⟩]⟩,
  ⟨0x128, 0x8, 1, [⟨63, 0, .ro, 0⟩]⟩,
  ⟨0x130, 0x8, 1, [⟨63, 0, .ro, 0⟩]⟩,
  ⟨0x138, 0x8, 1, [⟨63, 0, .ro, 0⟩]⟩,
  ⟨0x140, 0x8, 1, [⟨1, 1, .wo, 0⟩, ⟨0, 0, .wo, 0⟩]⟩,
  ⟨0x148, 0x8, 1, [⟨48, 48, .w1c, 0⟩, ⟨47, 32, .ro, 0⟩, ⟨16, 3, .ro, 0⟩]⟩]

/-- The block registers of the REGION page (08_memory.md R225,R226): RSTAT, SRAMERR, SRAMCEADR, SRAMUEADR, RIRQ, RCTL. -/
def regsRegion : List RegRow :=
  [
  ⟨0x100, 0x8, 1, [⟨1, 1, .ro, 0⟩, ⟨0, 0, .ro, 0⟩]⟩,
  ⟨0x108, 0x8, 1, [⟨49, 49, .w1c, 0⟩, ⟨48, 48, .w1c, 0⟩, ⟨47, 32, .ro, 0⟩, ⟨31, 16, .ro, 0⟩, ⟨2, 0, .ro, 0⟩]⟩,
  ⟨0x110, 0x8, 1, [⟨47, 3, .ro, 0⟩]⟩,
  ⟨0x118, 0x8, 1, [⟨47, 3, .ro, 0⟩]⟩,
  ⟨0x120, 0x8, 1, [⟨31, 16, .rw, 0⟩, ⟨3, 2, .rw, 0⟩, ⟨1, 1, .rw, 0⟩, ⟨0, 0, .rw, 0⟩]⟩,
  ⟨0x128, 0x8, 1, [⟨0, 0, .wo, 0⟩]⟩]

/-- The block registers of the SCHED page (07_schedules.md R184-R198,R211,R452): SCTL, SSTAT, TBLADDR, TBLDATA, DONE, JSEL, JSTATE, CNTREL, CNTLOST, CNTSPARE, CNTFALL, CNTMOVEF, CNTSTRAY. -/
def regsSched : List RegRow :=
  [
  ⟨0x100, 0x8, 1, [⟨1, 1, .wo, 0⟩, ⟨0, 0, .rwl, 0⟩]⟩,
  ⟨0x108, 0x8, 1, [⟨47, 32, .ro, 0⟩, ⟨23, 16, .ro, 0⟩, ⟨4, 4, .ro, 0⟩, ⟨2, 0, .ro, 0⟩]⟩,
  ⟨0x110, 0x8, 1, [⟨15, 3, .rw, 0⟩]⟩,
  ⟨0x118, 0x8, 1, [⟨63, 0, .wo, 0⟩]⟩,
  ⟨0x120, 0x8, 1, [⟨43, 32, .wo, 0⟩, ⟨1, 0, .wo, 0⟩]⟩,
  ⟨0x128, 0x8, 1, [⟨11, 0, .rw, 0⟩]⟩,
  ⟨0x130, 0x8, 1, [⟨63, 32, .ro, 0⟩, ⟨7, 4, .ro, 0⟩, ⟨3, 0, .ro, 0⟩]⟩,
  ⟨0x140, 0x8, 1, [⟨63, 0, .ro, 0⟩]⟩,
  ⟨0x148, 0x8, 1, [⟨63, 0, .ro, 0⟩]⟩,
  ⟨0x150, 0x8, 1, [⟨63, 0, .ro, 0⟩]⟩,
  ⟨0x158, 0x8, 1, [⟨63, 0, .ro, 0⟩]⟩,
  ⟨0x160, 0x8, 1, [⟨63, 0, .ro, 0⟩]⟩,
  ⟨0x168, 0x8, 1, [⟨63, 0, .ro, 0⟩]⟩]

/-- The block registers of the CRCU page (09_protection.md R257-R263): CRCTL, CRSTAT, CCFG, CWBASE, CWLIM, CVALUE, CCOUNT, CRESULT, CEXPECT, CLAST. -/
def regsCrcu : List RegRow :=
  [
  ⟨0x100, 0x8, 1, [⟨19, 18, .rw, 0⟩, ⟨16, 16, .rw, 0⟩, ⟨7, 0, .wo, 0⟩]⟩,
  ⟨0x108, 0x8, 1, [⟨47, 32, .ro, 0⟩, ⟨8, 8, .w1c, 0⟩, ⟨7, 0, .w1c, 0⟩]⟩,
  ⟨0x200, 0x40, 8, [⟨63, 32, .rwl, 0⟩, ⟨29, 29, .rwl, 0⟩, ⟨28, 28, .rwl, 0⟩, ⟨26, 24, .rwl, 0⟩, ⟨20, 16, .rwl, 0⟩, ⟨13, 12, .rwl, 0⟩, ⟨9, 8, .rwl, 0⟩, ⟨5, 4, .rwl, 0⟩, ⟨0, 0, .rwl, 0⟩]⟩,
  ⟨0x208, 0x40, 8, [⟨47, 0, .rw, 0⟩]⟩,
  ⟨0x210, 0x40, 8, [⟨47, 0, .rw, 0⟩]⟩,
  ⟨0x218, 0x40, 8, [⟨63, 0, .rw, 0⟩]⟩,
  ⟨0x220, 0x40, 8, [⟨63, 0, .rw, 0⟩]⟩,
  ⟨0x228, 0x40, 8, [⟨63, 0, .ro, 0⟩]⟩,
  ⟨0x230, 0x40, 8, [⟨63, 0, .rw, 0⟩]⟩,
  ⟨0x238, 0x40, 8, [⟨63, 0, .ro, 0⟩]⟩]

/-- The block registers of the FWALL page (09_protection.md R248-R252): FWCTL, FWSTAT, FWOVL, DENYADR, DENYINF, RBASE, RLIM, RATTR, ABASE, ALIM, AATTR. -/
def regsFwall : List RegRow :=
  [
  ⟨0x100, 0x8, 1, [⟨2, 2, .wo, 0⟩, ⟨1, 1, .wo, 0⟩, ⟨0, 0, .rwl, 0⟩]⟩,
  ⟨0x108, 0x8, 1, [⟨47, 32, .ro, 0⟩, ⟨1, 1, .ro, 0⟩, ⟨0, 0, .ro, 0⟩]⟩,
  ⟨0x110, 0x8, 1, [⟨32, 32, .ro, 0⟩, ⟨31, 0, .ro, 0⟩]⟩,
  ⟨0x118, 0x8, 1, [⟨47, 0, .ro, 0⟩]⟩,
  ⟨0x120, 0x8, 1, [⟨63, 48, .ro, 0⟩, ⟨47, 32, .ro, 0⟩, ⟨21, 16, .ro, 0x3F⟩, ⟨8, 8, .w1c, 0⟩, ⟨5, 4, .ro, 0⟩, ⟨1, 0, .ro, 0⟩]⟩,
  ⟨0x200, 0x20, 32, [⟨47, 6, .rwl, 0⟩]⟩,
  ⟨0x208, 0x20, 32, [⟨47, 6, .rwl, 0⟩]⟩,
  ⟨0x210, 0x20, 32, [⟨63, 48, .rwl, 0⟩, ⟨47, 32, .rwl, 0⟩, ⟨2, 2, .rwl, 0⟩, ⟨1, 1, .rwl, 0⟩, ⟨0, 0, .rwl, 0⟩]⟩,
  ⟨0x600, 0x20, 32, [⟨47, 6, .ro, 0⟩]⟩,
  ⟨0x608, 0x20, 32, [⟨47, 6, .ro, 0⟩]⟩,
  ⟨0x610, 0x20, 32, [⟨63, 48, .ro, 0⟩, ⟨47, 32, .ro, 0⟩, ⟨2, 2, .ro, 0⟩, ⟨1, 1, .ro, 0⟩, ⟨0, 0, .ro, 0⟩]⟩]

/-- The block registers of the DDRC page (08_memory.md R227-R240): DCFG, DCTL, DSTAT, DERR, DERRADR, SCRUB, RSYNC, TRAIN. -/
def regsDdrc : List RegRow :=
  [
  ⟨0x100, 0x8, 1, [⟨39, 32, .rwl, 4⟩, ⟨24, 24, .rwl, 1⟩, ⟨20, 20, .rwl, 0⟩, ⟨16, 16, .rwl, 0⟩, ⟨15, 14, .rwl, 1⟩, ⟨13, 13, .rwl, 0⟩, ⟨0, 0, .rwl, 0⟩]⟩,
  ⟨0x108, 0x8, 1, [⟨5, 5, .wo, 0⟩, ⟨4, 4, .wo, 0⟩, ⟨3, 3, .wo, 0⟩, ⟨2, 2, .wo, 0⟩, ⟨1, 1, .rwl, 0⟩, ⟨0, 0, .wo, 0⟩]⟩,
  ⟨0x110, 0x8, 1, [⟨47, 32, .ro, 0⟩, ⟨24, 16, .ro, 0⟩, ⟨9, 9, .ro, 0⟩, ⟨8, 8, .w1c, 0⟩, ⟨3, 0, .ro, 0⟩]⟩,
  ⟨0x118, 0x8, 1, [⟨50, 50, .w1c, 0⟩, ⟨49, 49, .w1c, 0⟩, ⟨48, 48, .w1c, 0⟩, ⟨47, 32, .ro, 0⟩, ⟨31, 16, .ro, 0⟩, ⟨15, 0, .ro, 0⟩]⟩,
  ⟨0x120, 0x8, 1, [⟨49, 48, .ro, 0⟩, ⟨47, 3, .ro, 0⟩]⟩,
  ⟨0x128, 0x8, 1, [⟨63, 32, .ro, 0⟩, ⟨29, 0, .ro, 0⟩]⟩,
  ⟨0x130, 0x8, 1, [⟨16, 0, .ro, 0⟩]⟩,
  ⟨0x138, 0x8, 1, [⟨31, 16, .ro, 0⟩, ⟨15, 0, .ro, 0⟩]⟩]

/-- The block registers of the LANE page (11_lanes.md R293-R313): LCTL, LSTAT, PARTNER0, PARTNER1, LERR. -/
def regsLane : List RegRow :=
  [
  ⟨0x100, 0x8, 1, [⟨25, 25, .wo, 0⟩, ⟨24, 24, .wo, 0⟩, ⟨21, 20, .rw, 0⟩, ⟨18, 18, .wo, 0⟩, ⟨17, 17, .wo, 0⟩, ⟨16, 16, .rwl, 0⟩, ⟨13, 12, .rwl, 0⟩, ⟨8, 0, .rwl, 0x1FF⟩]⟩,
  ⟨0x108, 0x8, 1, [⟨20, 20, .w1c, 0⟩, ⟨19, 16, .ro, 0⟩, ⟨15, 12, .ro, 0⟩, ⟨8, 8, .ro, 0⟩, ⟨3, 0, .ro, 0⟩]⟩,
  ⟨0x110, 0x8, 1, [⟨55, 52, .ro, 0⟩, ⟨51, 48, .ro, 0⟩, ⟨47, 40, .ro, 0xFF⟩, ⟨36, 32, .ro, 0⟩, ⟨26, 24, .ro, 0⟩, ⟨19, 16, .ro, 0⟩, ⟨9, 8, .ro, 0⟩, ⟨7, 4, .ro, 0⟩, ⟨1, 0, .ro, 0⟩]⟩,
  ⟨0x118, 0x8, 1, [⟨63, 0, .ro, 0⟩]⟩,
  ⟨0x120, 0x8, 1, [⟨63, 48, .ro, 0⟩, ⟨47, 32, .ro, 0⟩, ⟨31, 0, .ro, 0⟩]⟩]

/-- The block registers of the LANEQ page (11_lanes.md R270,R412,R413): QCTL, QSTAT. -/
def regsLaneq : List RegRow :=
  [
  ⟨0x100, 0x8, 1, [⟨0, 0, .wo, 0⟩]⟩,
  ⟨0x108, 0x8, 1, [⟨47, 32, .ro, 0⟩, ⟨31, 16, .ro, 0⟩, ⟨8, 8, .ro, 0⟩, ⟨3, 0, .ro, 0⟩]⟩]

/-- The block registers of the BVL page (11_lanes.md R299-R317): BLCFG, BLSTAT, VCCFG, TSYNC, CNTTXF, CNTRXF, CNTRETRY, CNTNAK, CNTDISC, BLIRQ. -/
def regsBvl : List RegRow :=
  [
  ⟨0x100, 0x8, 1, [⟨63, 48, .rwl, 0⟩, ⟨47, 32, .rwl, 0⟩, ⟨31, 24, .rwl, 8⟩, ⟨23, 16, .rwl, 0x14⟩, ⟨15, 9, .rwl, 3⟩, ⟨2, 0, .rwl, 2⟩]⟩,
  ⟨0x108, 0x8, 1, [⟨63, 48, .ro, 0⟩, ⟨39, 32, .ro, 0xFF⟩, ⟨27, 24, .ro, 0⟩, ⟨23, 20, .ro, 0⟩, ⟨16, 16, .w1c, 0⟩, ⟨12, 8, .ro, 0⟩, ⟨3, 0, .ro, 0⟩]⟩,
  ⟨0x110, 0x8, 1, [⟨47, 32, .rwl, 0x400⟩, ⟨15, 9, .rwl, 0⟩, ⟨7, 0, .ro, 0⟩]⟩,
  ⟨0x118, 0x8, 1, [⟨63, 32, .ro, 0⟩, ⟨31, 16, .ro, 0⟩, ⟨3, 3, .ro, 0⟩, ⟨2, 2, .ro, 0⟩, ⟨1, 0, .rwl, 0⟩]⟩,
  ⟨0x120, 0x8, 1, [⟨63, 0, .ro, 0⟩]⟩,
  ⟨0x128, 0x8, 1, [⟨63, 0, .ro, 0⟩]⟩,
  ⟨0x130, 0x8, 1, [⟨63, 0, .ro, 0⟩]⟩,
  ⟨0x138, 0x8, 1, [⟨63, 0, .ro, 0⟩]⟩,
  ⟨0x140, 0x8, 1, [⟨63, 0, .ro, 0⟩]⟩,
  ⟨0x148, 0x8, 1, [⟨32, 32, .wo, 0⟩, ⟨21, 16, .rw, 0⟩, ⟨11, 8, .rw, 0⟩, ⟨0, 0, .rw, 0⟩]⟩]

/-- The block registers of the ETH page (11_lanes.md R319-R321): ECTL, EMAC, SCHET, TXRING, RXRING, TXPTR, RXPTR, ESTAT, CNTTXOK, CNTRXOK, CNTRXERR, CNTRXDROP, CNTPAUSE, EIRQ, BLCFG, BLSTAT, VCCFG, CNTTXF, CNTRXF, CNTRETRY, CNTNAK, CNTDISC, BLIRQ. -/
def regsEth : List RegRow :=
  [
  ⟨0x100, 0x8, 1, [⟨8, 8, .rw, 0⟩, ⟨0, 0, .rwl, 0⟩]⟩,
  ⟨0x108, 0x8, 1, [⟨47, 0, .rwl, 0⟩]⟩,
  ⟨0x110, 0x8, 1, [⟨15, 0, .rwl, 0⟩]⟩,
  ⟨0x118, 0x8, 1, [⟨63, 60, .rwl, 0⟩, ⟨47, 5, .rwl, 0⟩]⟩,
  ⟨0x120, 0x8, 1, [⟨63, 60, .rwl, 0⟩, ⟨47, 5, .rwl, 0⟩]⟩,
  ⟨0x128, 0x8, 1, [⟨43, 32, .ro, 0⟩, ⟨11, 0, .rw, 0⟩]⟩,
  ⟨0x130, 0x8, 1, [⟨43, 32, .ro, 0⟩, ⟨11, 0, .rw, 0⟩]⟩,
  ⟨0x138, 0x8, 1, [⟨2, 2, .ro, 0⟩, ⟨1, 1, .ro, 0⟩, ⟨0, 0, .ro, 0⟩]⟩,
  ⟨0x140, 0x8, 1, [⟨63, 0, .ro, 0⟩]⟩,
  ⟨0x148, 0x8, 1, [⟨63, 0, .ro, 0⟩]⟩,
  ⟨0x150, 0x8, 1, [⟨63, 0, .ro, 0⟩]⟩,
  ⟨0x158, 0x8, 1, [⟨63, 0, .ro, 0⟩]⟩,
  ⟨0x160, 0x8, 1, [⟨63, 0, .ro, 0⟩]⟩,
  ⟨0x168, 0x8, 1, [⟨32, 32, .wo, 0⟩, ⟨21, 16, .rw, 0⟩, ⟨11, 8, .rw, 0⟩, ⟨2, 2, .rw, 0⟩, ⟨1, 1, .rw, 0⟩, ⟨0, 0, .rw, 0⟩]⟩,
  ⟨0x200, 0x8, 1, [⟨31, 24, .rwl, 8⟩, ⟨23, 16, .rwl, 0x14⟩, ⟨15, 9, .rwl, 3⟩, ⟨2, 0, .rwl, 1⟩]⟩,
  ⟨0x208, 0x8, 1, [⟨48, 48, .ro, 0⟩, ⟨39, 32, .ro, 0xFF⟩, ⟨27, 24, .ro, 0⟩, ⟨23, 20, .ro, 0⟩, ⟨16, 16, .w1c, 0⟩, ⟨12, 8, .ro, 0⟩, ⟨3, 0, .ro, 0⟩]⟩,
  ⟨0x210, 0x8, 1, [⟨47, 32, .rwl, 0x400⟩, ⟨15, 9, .rwl, 0⟩, ⟨7, 0, .ro, 0⟩]⟩,
  ⟨0x220, 0x8, 1, [⟨63, 0, .ro, 0⟩]⟩,
  ⟨0x228, 0x8, 1, [⟨63, 0, .ro, 0⟩]⟩,
  ⟨0x230, 0x8, 1, [⟨63, 0, .ro, 0⟩]⟩,
  ⟨0x238, 0x8, 1, [⟨63, 0, .ro, 0⟩]⟩,
  ⟨0x240, 0x8, 1, [⟨63, 0, .ro, 0⟩]⟩,
  ⟨0x248, 0x8, 1, [⟨32, 32, .wo, 0⟩, ⟨21, 16, .rw, 0⟩, ⟨11, 8, .rw, 0⟩, ⟨0, 0, .rw, 0⟩]⟩]

/-- The block registers of the LSCHED page (07_schedules.md R199,R200): LCTL, LSTAT, TBLADDR, TBLDATA, RXFRESH, CNTTX, CNTTXLATE, CNTRXSTALE. -/
def regsLsched : List RegRow :=
  [
  ⟨0x100, 0x8, 1, [⟨1, 1, .wo, 0⟩, ⟨0, 0, .rwl, 0⟩]⟩,
  ⟨0x108, 0x8, 1, [⟨47, 32, .ro, 0⟩, ⟨23, 16, .ro, 0⟩, ⟨4, 4, .ro, 0⟩, ⟨2, 0, .ro, 0⟩]⟩,
  ⟨0x110, 0x8, 1, [⟨13, 3, .rw, 0⟩]⟩,
  ⟨0x118, 0x8, 1, [⟨63, 0, .wo, 0⟩]⟩,
  ⟨0x120, 0x8, 1, [⟨63, 0, .ro, 0⟩]⟩,
  ⟨0x128, 0x8, 1, [⟨63, 0, .ro, 0⟩]⟩,
  ⟨0x130, 0x8, 1, [⟨63, 0, .ro, 0⟩]⟩,
  ⟨0x138, 0x8, 1, [⟨63, 0, .ro, 0⟩]⟩]

/-- The block registers of the VME page (12_legacy_backplane.md R324-R333): VCFG, VCTL, VSTAT, VIRQ, VINT, VINTPOP, VERRADR, VERRINF, CNTOUT, CNTIN, CNTERR, CNTREF. -/
def regsVme : List RegRow :=
  [
  ⟨0x100, 0x8, 1, [⟨63, 48, .rwl, 0⟩, ⟨27, 24, .rwl, 2⟩, ⟨17, 16, .rwl, 0⟩, ⟨13, 12, .rwl, 3⟩, ⟨2, 2, .rwl, 0⟩, ⟨1, 1, .rwl, 0⟩, ⟨0, 0, .rwl, 0⟩]⟩,
  ⟨0x108, 0x8, 1, [⟨2, 2, .rw, 0⟩, ⟨1, 1, .wo, 0⟩]⟩,
  ⟨0x110, 0x8, 1, [⟨23, 16, .ro, 0⟩, ⟨13, 13, .w1c, 0⟩, ⟨12, 12, .w1c, 0⟩, ⟨11, 11, .ro, 0⟩, ⟨10, 10, .ro, 0⟩, ⟨4, 0, .ro, 0⟩]⟩,
  ⟨0x118, 0x8, 1, [⟨16, 16, .ro, 0⟩, ⟨15, 8, .rw, 0⟩, ⟨2, 0, .rw, 0⟩]⟩,
  ⟨0x120, 0x8, 1, [⟨25, 24, .rw, 0⟩, ⟨21, 16, .rw, 0⟩, ⟨11, 8, .rw, 0⟩, ⟨7, 1, .rw, 0⟩]⟩,
  ⟨0x128, 0x8, 1, [⟨63, 63, .ro, 0⟩, ⟨62, 62, .ro, 0⟩, ⟨34, 32, .ro, 0⟩, ⟨31, 0, .ro, 0⟩]⟩,
  ⟨0x130, 0x8, 1, [⟨63, 0, .ro, 0⟩]⟩,
  ⟨0x138, 0x8, 1, [⟨20, 16, .ro, 0⟩, ⟨13, 8, .ro, 0⟩, ⟨5, 4, .ro, 0⟩, ⟨1, 1, .ro, 0⟩, ⟨0, 0, .w1c, 0⟩]⟩,
  ⟨0x140, 0x8, 1, [⟨63, 0, .ro, 0⟩]⟩,
  ⟨0x148, 0x8, 1, [⟨63, 0, .ro, 0⟩]⟩,
  ⟨0x150, 0x8, 1, [⟨63, 0, .ro, 0⟩]⟩,
  ⟨0x158, 0x8, 1, [⟨63, 0, .ro, 0⟩]⟩]

/-- The block registers of the VMEMAP page (12_legacy_backplane.md R325,R329,R337,R338): OWBASE, OWLIM, OWXLAT, OWATTR, IWBASE, IWLIM, IWXLAT, IWATTR, TDCFG, TDSTAT. -/
def regsVmemap : List RegRow :=
  [
  ⟨0x100, 0x20, 16, [⟨63, 16, .rwl, 0⟩]⟩,
  ⟨0x108, 0x20, 16, [⟨63, 16, .rwl, 0⟩]⟩,
  ⟨0x110, 0x20, 16, [⟨63, 16, .rwl, 0⟩]⟩,
  ⟨0x118, 0x20, 16, [⟨15, 15, .rwl, 0⟩, ⟨12, 8, .rwl, 0⟩, ⟨5, 4, .rwl, 0⟩, ⟨2, 2, .rwl, 0⟩, ⟨1, 1, .rwl, 0⟩]⟩,
  ⟨0x300, 0x20, 8, [⟨63, 16, .rwl, 0⟩]⟩,
  ⟨0x308, 0x20, 8, [⟨63, 16, .rwl, 0⟩]⟩,
  ⟨0x310, 0x20, 8, [⟨47, 16, .rwl, 0⟩]⟩,
  ⟨0x318, 0x20, 8, [⟨15, 15, .rwl, 0⟩, ⟨5, 4, .rwl, 0⟩, ⟨3, 3, .rwl, 0⟩, ⟨2, 2, .rwl, 0⟩, ⟨1, 1, .rwl, 0⟩]⟩,
  ⟨0x400, 0x10, 8, [⟨63, 32, .rwl, 0⟩, ⟨25, 20, .rwl, 0⟩, ⟨18, 16, .rwl, 0⟩, ⟨11, 8, .rwl, 0⟩, ⟨1, 1, .rwl, 0⟩, ⟨0, 0, .rwl, 0⟩]⟩,
  ⟨0x408, 0x10, 8, [⟨63, 32, .ro, 0⟩, ⟨31, 16, .ro, 0⟩, ⟨15, 0, .ro, 0⟩]⟩]

/-- The block registers of the VMEPART page (12_legacy_backplane.md R334-R336): PCFG, PPROBE, PRES, PID, DISC, DBUSY. -/
def regsVmepart : List RegRow :=
  [
  ⟨0x100, 0x20, 32, [⟨63, 48, .rwl, 0⟩, ⟨43, 40, .rwl, 6⟩, ⟨35, 32, .rwl, 0⟩, ⟨27, 24, .rwl, 0⟩, ⟨21, 20, .rwl, 1⟩, ⟨17, 16, .rwl, 3⟩, ⟨12, 8, .rwl, 0⟩, ⟨2, 2, .rwl, 0⟩, ⟨1, 1, .rwl, 0⟩, ⟨0, 0, .rwl, 0⟩]⟩,
  ⟨0x108, 0x20, 32, [⟨63, 5, .rwl, 0⟩]⟩,
  ⟨0x110, 0x20, 32, [⟨19, 16, .ro, 0⟩, ⟨13, 12, .ro, 0⟩, ⟨11, 8, .ro, 0⟩, ⟨6, 4, .ro, 0⟩]⟩,
  ⟨0x118, 0x20, 32, [⟨55, 32, .ro, 0⟩, ⟨31, 0, .ro, 0⟩]⟩,
  ⟨0x500, 0x8, 1, [⟨31, 0, .wo, 0⟩]⟩,
  ⟨0x508, 0x8, 1, [⟨32, 32, .w1c, 0⟩, ⟨31, 0, .ro, 0⟩]⟩]

/-- The block registers of the CANFD page (12_legacy_backplane.md R340-R342,R348): CBT, CCTL, CSTAT, PIRQ, FID, FMASK, RXRING, RXPTR, MDATA0, MDATA1, MDATA2, MDATA3, MDATA4, MDATA5, MDATA6, MDATA7, MHDR, MSTATE. -/
def regsCanfd : List RegRow :=
  [
  ⟨0x100, 0x8, 1, [⟨63, 48, .rwl, 0⟩, ⟨47, 32, .rwl, 0⟩, ⟨31, 0, .rwl, 0⟩]⟩,
  ⟨0x108, 0x8, 1, [⟨3, 3, .wo, 0⟩, ⟨2, 2, .rwl, 0⟩, ⟨1, 1, .rwl, 0⟩, ⟨0, 0, .rwl, 0⟩]⟩,
  ⟨0x110, 0x8, 1, [⟨24, 24, .w1c, 0⟩, ⟨23, 16, .ro, 0⟩, ⟨15, 8, .ro, 0⟩, ⟨1, 0, .ro, 0⟩]⟩,
  ⟨0x1F8, 0x8, 1, [⟨21, 16, .rw, 0⟩, ⟨11, 8, .rw, 0⟩, ⟨7, 0, .rw, 0⟩]⟩,
  ⟨0x200, 0x10, 16, [⟨31, 31, .rwl, 0⟩, ⟨28, 0, .rwl, 0⟩]⟩,
  ⟨0x208, 0x10, 16, [⟨28, 0, .rwl, 0⟩]⟩,
  ⟨0x300, 0x8, 1, [⟨63, 60, .rwl, 0⟩, ⟨47, 5, .rwl, 0⟩]⟩,
  ⟨0x308, 0x8, 1, [⟨43, 32, .ro, 0⟩, ⟨11, 0, .rw, 0⟩]⟩,
  ⟨0x400, 0x80, 16, [⟨63, 0, .rw, 0⟩]⟩,
  ⟨0x408, 0x80, 16, [⟨63, 0, .rw, 0⟩]⟩,
  ⟨0x410, 0x80, 16, [⟨63, 0, .rw, 0⟩]⟩,
  ⟨0x418, 0x80, 16, [⟨63, 0, .rw, 0⟩]⟩,
  ⟨0x420, 0x80, 16, [⟨63, 0, .rw, 0⟩]⟩,
  ⟨0x428, 0x80, 16, [⟨63, 0, .rw, 0⟩]⟩,
  ⟨0x430, 0x80, 16, [⟨63, 0, .rw, 0⟩]⟩,
  ⟨0x438, 0x80, 16, [⟨63, 0, .rw, 0⟩]⟩,
  ⟨0x440, 0x80, 16, [⟨35, 32, .rw, 0⟩, ⟨31, 31, .rw, 0⟩, ⟨30, 30, .rw, 0⟩, ⟨29, 29, .rw, 0⟩, ⟨28, 0, .rw, 0⟩]⟩,
  ⟨0x448, 0x80, 16, [⟨1, 0, .ro, 0⟩]⟩]

/-- The block registers of the UART page (12_legacy_backplane.md R343,R348): UCFG, UDATA, UADDR, PIRQ. -/
def regsUart : List RegRow :=
  [
  ⟨0x100, 0x8, 1, [⟨47, 40, .rwl, 0x10⟩, ⟨39, 32, .rwl, 0x10⟩, ⟨31, 16, .rwl, 0x36⟩, ⟨9, 9, .rwl, 0⟩, ⟨8, 8, .rwl, 0⟩, ⟨7, 7, .rwl, 0⟩, ⟨6, 6, .rwl, 0⟩, ⟨5, 4, .rwl, 0⟩, ⟨3, 2, .rwl, 3⟩, ⟨0, 0, .rwl, 0⟩]⟩,
  ⟨0x108, 0x8, 1, [⟨63, 63, .ro, 0⟩, ⟨10, 9, .ro, 0⟩, ⟨8, 0, .rw, 0⟩]⟩,
  ⟨0x118, 0x8, 1, [⟨8, 8, .rw, 0⟩, ⟨7, 0, .rw, 0⟩]⟩,
  ⟨0x1F8, 0x8, 1, [⟨21, 16, .rw, 0⟩, ⟨11, 8, .rw, 0⟩, ⟨7, 0, .rw, 0⟩]⟩]

/-- The block registers of the MGMT page (12_legacy_backplane.md R344): ECTL, EMAC, TXRING, RXRING, TXPTR, RXPTR, ESTAT, CNTTXOK, CNTRXOK, CNTRXERR, CNTRXDROP, CNTPAUSE, EIRQ, MCFG, MDIO. -/
def regsMgmt : List RegRow :=
  [
  ⟨0x100, 0x8, 1, [⟨8, 8, .rw, 0⟩, ⟨0, 0, .rwl, 0⟩]⟩,
  ⟨0x108, 0x8, 1, [⟨47, 0, .rwl, 0⟩]⟩,
  ⟨0x118, 0x8, 1, [⟨63, 60, .rwl, 0⟩, ⟨47, 5, .rwl, 0⟩]⟩,
  ⟨0x120, 0x8, 1, [⟨63, 60, .rwl, 0⟩, ⟨47, 5, .rwl, 0⟩]⟩,
  ⟨0x128, 0x8, 1, [⟨43, 32, .ro, 0⟩, ⟨11, 0, .rw, 0⟩]⟩,
  ⟨0x130, 0x8, 1, [⟨43, 32, .ro, 0⟩, ⟨11, 0, .rw, 0⟩]⟩,
  ⟨0x138, 0x8, 1, [⟨2, 2, .ro, 0⟩, ⟨1, 1, .ro, 0⟩, ⟨0, 0, .ro, 0⟩]⟩,
  ⟨0x140, 0x8, 1, [⟨63, 0, .ro, 0⟩]⟩,
  ⟨0x148, 0x8, 1, [⟨63, 0, .ro, 0⟩]⟩,
  ⟨0x150, 0x8, 1, [⟨63, 0, .ro, 0⟩]⟩,
  ⟨0x158, 0x8, 1, [⟨63, 0, .ro, 0⟩]⟩,
  ⟨0x160, 0x8, 1, [⟨63, 0, .ro, 0⟩]⟩,
  ⟨0x168, 0x8, 1, [⟨32, 32, .wo, 0⟩, ⟨21, 16, .rw, 0⟩, ⟨11, 8, .rw, 0⟩, ⟨2, 2, .rw, 0⟩, ⟨1, 1, .rw, 0⟩, ⟨0, 0, .rw, 0⟩]⟩,
  ⟨0x170, 0x8, 1, [⟨5, 4, .rwl, 1⟩, ⟨3, 3, .rwl, 0⟩, ⟨2, 2, .rwl, 0⟩, ⟨1, 0, .rwl, 2⟩]⟩,
  ⟨0x178, 0x8, 1, [⟨31, 31, .rw, 0⟩, ⟨28, 28, .rw, 0⟩, ⟨25, 21, .rw, 0⟩, ⟨20, 16, .rw, 0⟩, ⟨15, 0, .rw, 0⟩]⟩]

/-- The block registers of the SPIF page (12_legacy_backplane.md R345): SPCFG. -/
def regsSpif : List RegRow :=
  [
  ⟨0x100, 0x8, 1, [⟨23, 16, .rwl, 8⟩, ⟨15, 8, .rwl, 3⟩, ⟨5, 4, .rwl, 1⟩, ⟨3, 3, .rwl, 0⟩, ⟨2, 0, .rwl, 0⟩]⟩]

/-- The block registers of the I2C page (12_legacy_backplane.md R346,R348): ICFG, ICMD, IRES, PIRQ. -/
def regsI2c : List RegRow :=
  [
  ⟨0x100, 0x8, 1, [⟨14, 8, .rwl, 0⟩, ⟨4, 4, .rwl, 0⟩, ⟨3, 3, .rwl, 0⟩, ⟨2, 2, .rwl, 0⟩, ⟨1, 0, .rwl, 0⟩]⟩,
  ⟨0x108, 0x8, 1, [⟨10, 8, .wo, 0⟩, ⟨7, 0, .wo, 0⟩]⟩,
  ⟨0x110, 0x8, 1, [⟨63, 63, .ro, 0⟩, ⟨8, 8, .ro, 0⟩, ⟨7, 0, .ro, 0⟩]⟩,
  ⟨0x1F8, 0x8, 1, [⟨21, 16, .rw, 0⟩, ⟨11, 8, .rw, 0⟩, ⟨7, 0, .rw, 0⟩]⟩]

/-- The block registers of the GPIO page (12_legacy_backplane.md R347,R348): GDIR, GOUT, GSET, GCLR, GIN, GEDGE, GIEN, GDEB, PIRQ. -/
def regsGpio : List RegRow :=
  [
  ⟨0x100, 0x8, 1, [⟨31, 0, .rw, 0⟩]⟩,
  ⟨0x108, 0x8, 1, [⟨31, 0, .rw, 0⟩]⟩,
  ⟨0x110, 0x8, 1, [⟨31, 0, .w1s, 0⟩]⟩,
  ⟨0x118, 0x8, 1, [⟨31, 0, .w1c, 0⟩]⟩,
  ⟨0x120, 0x8, 1, [⟨31, 0, .ro, 0⟩]⟩,
  ⟨0x128, 0x8, 1, [⟨31, 0, .w1c, 0⟩]⟩,
  ⟨0x130, 0x8, 1, [⟨63, 0, .rw, 0⟩]⟩,
  ⟨0x138, 0x8, 1, [⟨15, 0, .rw, 0⟩]⟩,
  ⟨0x1F8, 0x8, 1, [⟨21, 16, .rw, 0⟩, ⟨11, 8, .rw, 0⟩, ⟨7, 0, .rw, 0⟩]⟩]

/-- The block registers of a page kind. -/
def PageKind.rows : PageKind → List RegRow
  | .device => regsDevice
  | .warden => regsWarden
  | .svc => regsSvc
  | .fcol => regsFcol
  | .rta0 => regsRta0
  | .rta1 => regsRta1
  | .rti0 => regsRti0
  | .rti1 => regsRti1
  | .pwr => regsPwr
  | .timebase => regsTimebase
  | .bist => regsBist
  | .image => regsImage
  | .triad => regsTriad
  | .core => regsCore
  | .region => regsRegion
  | .sched => regsSched
  | .crcu => regsCrcu
  | .fwall => regsFwall
  | .ddrc => regsDdrc
  | .lane => regsLane
  | .laneq => regsLaneq
  | .bvl => regsBvl
  | .eth => regsEth
  | .lsched => regsLsched
  | .vme => regsVme
  | .vmemap => regsVmemap
  | .vmepart => regsVmepart
  | .canfd => regsCanfd
  | .uart => regsUart
  | .mgmt => regsMgmt
  | .spif => regsSpif
  | .i2c => regsI2c
  | .gpio => regsGpio

end Sys2Proof.Machine
end

