-- ==== Sys2Proof/Machine/Pages.lean ====
section
/-! DEFINITION. The register-page index (R429), the page header's fixed fields (R419, R420), which fault source a
page's errors go to (R423), and the reset value of every register (the Reset columns, R418). -/

namespace Sys2Proof.Machine

/-- One line of the page index: first page, instances, whether they halve on the FL-8432 (the dagger of R429),
block, BTYPE, safety page (R428), PGCAP.INJKINDS (R420). -/
structure PageRow where
  first : Nat
  count : Nat
  perDie : Bool
  kind : PageKind
  btype : Nat
  safety : Bool
  injKinds : Nat
deriving DecidableEq, Repr

/-- The page index (R429). -/
def pageIndex : List PageRow :=
  [⟨0x0000, 1, false, .device, 0x0001, true, 0x60⟩, ⟨0x0001, 1, false, .warden, 0x0002, true, 0x60⟩,
   ⟨0x0002, 1, false, .svc, 0x0003, false, 0x60⟩, ⟨0x0003, 1, false, .fcol, 0x0004, true, 0x60⟩,
   ⟨0x0004, 1, false, .rta0, 0x0005, true, 0x60⟩, ⟨0x0005, 1, false, .rta1, 0x0005, true, 0x60⟩,
   ⟨0x0006, 1, false, .rti0, 0x0005, true, 0x60⟩, ⟨0x0007, 1, false, .rti1, 0x0005, true, 0x60⟩,
   ⟨0x0008, 1, false, .pwr, 0x0006, true, 0x60⟩, ⟨0x0009, 1, false, .timebase, 0x0007, true, 0x60⟩,
   ⟨0x000A, 1, false, .bist, 0x0008, true, 0x60⟩, ⟨0x000B, 1, false, .image, 0x0009, true, 0x60⟩] ++
  [⟨0x0100, 64, true, .triad, 0x0010, true, 0x6E⟩, ⟨0x0200, 192, true, .core, 0x0011, false, 0x00⟩,
   ⟨0x0300, 16, true, .region, 0x0020, false, 0x66⟩, ⟨0x0310, 16, true, .sched, 0x0021, true, 0x10⟩,
   ⟨0x0320, 16, true, .crcu, 0x0022, false, 0x10⟩, ⟨0x0330, 16, true, .fwall, 0x0023, true, 0x10⟩] ++
  [⟨0x0400, 8, false, .ddrc, 0x0030, false, 0x66⟩, ⟨0x0500, 32, false, .lane, 0x0040, false, 0x00⟩,
   ⟨0x0520, 8, false, .laneq, 0x0041, false, 0x70⟩, ⟨0x0530, 16, false, .bvl, 0x0042, false, 0x00⟩,
   ⟨0x0540, 16, false, .eth, 0x0043, false, 0x00⟩, ⟨0x0550, 8, false, .lsched, 0x0044, true, 0x00⟩] ++
  [⟨0x0600, 1, false, .vme, 0x0050, false, 0x60⟩, ⟨0x0601, 1, false, .vmemap, 0x0051, false, 0x60⟩,
   ⟨0x0602, 1, false, .vmepart, 0x0052, false, 0x60⟩, ⟨0x0610, 4, false, .canfd, 0x0060, false, 0x60⟩,
   ⟨0x0620, 8, false, .uart, 0x0061, false, 0x60⟩, ⟨0x0630, 2, false, .mgmt, 0x0062, false, 0x60⟩,
   ⟨0x0640, 1, false, .spif, 0x0063, false, 0x60⟩, ⟨0x0641, 2, false, .i2c, 0x0064, false, 0x60⟩,
   ⟨0x0650, 1, false, .gpio, 0x0065, false, 0x60⟩]

/-- Instances present on a device with `dies` compute dies (R2, R429). -/
def PageRow.present (r : PageRow) (dies : Nat) : Nat := if r.perDie && dies == 1 then r.count / 2 else r.count

/-- The index line that holds page `p`, where the page is present (R429). -/
def pageRow (dies p : Nat) : Option PageRow :=
  pageIndex.find? fun r => decide (r.first ≤ p) && decide (p < r.first + r.present dies)

/-- The block of page `p` and its instance number (R419 INST). -/
def pageKind (dies p : Nat) : Option (PageKind × Nat) :=
  (pageRow dies p).map fun r => (r.kind, p - r.first)

/-- The first page of each block (R9, R429). -/
def pgTriad (t : Nat) : Nat := 0x0100 + t
def pgCore (key : Nat) : Nat := 0x0200 + key
def pgRegion (n : Nat) : Nat := 0x0300 + n
def pgSched (n : Nat) : Nat := 0x0310 + n
def pgCrcu (n : Nat) : Nat := 0x0320 + n
def pgFwall (n : Nat) : Nat := 0x0330 + n
def pgDdrc (k : Nat) : Nat := 0x0400 + k
def pgLane (l : Nat) : Nat := 0x0500 + l
def pgLaneq (q : Nat) : Nat := 0x0520 + q
def pgBvl (l : Nat) : Nat := 0x0530 + l
def pgEth (i : Nat) : Nat := 0x0540 + i
def pgLsched (q : Nat) : Nat := 0x0550 + q
def pgDevice : Nat := 0x0000
def pgWarden : Nat := 0x0001
def pgSvc : Nat := 0x0002
def pgFcol : Nat := 0x0003
def pgPwr : Nat := 0x0008
def pgTime : Nat := 0x0009
def pgBist : Nat := 0x000A
def pgImage : Nat := 0x000B
def pgVme : Nat := 0x0600
def pgVmemap : Nat := 0x0601
def pgVmepart : Nat := 0x0602
def pgCan (k : Nat) : Nat := 0x0610 + k
def pgUart (k : Nat) : Nat := 0x0620 + k
def pgMgmt (i : Nat) : Nat := 0x0630 + i
def pgSpif : Nat := 0x0640
def pgI2c (k : Nat) : Nat := 0x0641 + k
def pgGpio : Nat := 0x0650

/-- The row of a page kind that holds a register at `off` (header rows below 0x40, R418). -/
def regRow (k : PageKind) (off : Nat) : Option RegRow :=
  (if off < 0x40 then regsHdr else k.rows).find? fun r =>
    decide (r.off ≤ off) && decide ((off - r.off) % r.stride = 0) && decide ((off - r.off) / r.stride < r.count)

/-- The mask of bits hi to lo. -/
def bitMask (hi lo : Nat) : Word := BitVec.ofNat 64 ((2 ^ (hi + 1 - lo) - 1) * 2 ^ lo)

/-- Bits hi to lo of a word, as a number. -/
def bitsOf (w : Word) (hi lo : Nat) : Nat := (w.toNat / 2 ^ lo) % 2 ^ (hi + 1 - lo)

/-- A word with bits hi to lo replaced by `v` (its low bits). -/
def withBits (w : Word) (hi lo v : Nat) : Word :=
  (w &&& ~~~ (bitMask hi lo)) ||| (BitVec.ofNat 64 (v * 2 ^ lo) &&& bitMask hi lo)

/-- The named bits of a register: every bit that some field holds (the others are reserved, R7). -/
def RegRow.mask (r : RegRow) : Word := r.fields.foldl (fun a f => a ||| bitMask f.hi f.lo) 0

/-- The reset value a register's table gives. -/
def RegRow.resetVal (r : RegRow) : Word := r.fields.foldl (fun a f => withBits a f.hi f.lo f.reset) 0

/-- The key of a register in the state's register collection. -/
def regKey (page off : Nat) : Nat := page * 0x1000 + off

/-- The reset values that the tables give per instance: BVL[i].BLCFG.LANEMASK is lane i alone and BLSTAT.PRIMARY
is i (11_lanes.md, BVL and ETH registers); ETH[i]'s PRIMARY is its lane 16 + i (DEDUCED, assumption 26). -/
def instReset (k : PageKind) (i off : Nat) (v : Word) : Word :=
  match k with
  | .bvl => if off = 0x100 then withBits v 47 32 (2 ^ i) else if off = 0x108 then withBits v 12 8 i else v
  | .eth => if off = 0x208 then withBits v 12 8 (16 + i) else v
  | _ => v

/-- The reset value of every register (Reset columns); 0 where the page holds none (R418). -/
def regReset (key : Nat) : Word :=
  match pageKind 2 (key / 0x1000) with
  | none => 0
  | some (k, i) =>
    match regRow k (key % 0x1000) with
    | none => 0
    | some r => instReset k i (key % 0x1000) r.resetVal

/-- The fault source and event code of a page's errors (R423). -/
def pageErrSource (k : PageKind) (i : Nat) : Nat × Nat :=
  match k with
  | .triad => (5 * i + 4, 6)
  | .core => (5 * (i / 3) + 4, 6)
  | .region | .sched | .crcu | .fwall => (0x140 + 6 * i + 4, 2)
  | .ddrc => (0x1B0 + 4 * i + 3, 3)
  | .lane => (0x1D0 + 3 * (i / 4) + 1, 5)
  | .laneq | .lsched => (0x1D0 + 3 * i + 1, 5)
  | .bvl => (0x1D0 + 3 * (i / 4) + 1, 5)
  | .eth => (0x1D0 + 3 * ((16 + i) / 4) + 1, 5)
  | .vme | .vmemap | .vmepart | .canfd => (0x1E8, 3)
  | .uart | .mgmt | .spif | .i2c | .gpio => (0x1EC, 4)
  | .device | .warden | .svc | .fcol | .rta0 | .rta1 | .rti0 | .rti1 | .pwr | .timebase | .bist | .image => (0x1F1, 1)

/-- UNIT of a page's fault records: the port of source 0x1EC, else 0xFF (R286). -/
def fabUnit (k : PageKind) (i : Nat) : Nat :=
  match k with
  | .uart => i
  | .mgmt => 0x10 + i
  | .spif => 0x20
  | .i2c => 0x21 + i
  | .gpio => 0x30
  | _ => 0xFF

/-- The region whose firewall judges an access to the page (R248), where one does. -/
def pageRegion (k : PageKind) (i : Nat) : Option Nat :=
  match k with
  | .triad => some (i / 4)
  | .core => some (i / 12)
  | .region | .sched | .crcu | .fwall => some i
  | _ => none

end Sys2Proof.Machine
end

