-- ==== Sys2Proof/Config.lean ====
section
/-! DEFINITION. What the spec leaves open: values that no rule states. Each is a constant without a body, so that no
proof can see what it is; the assumption-log entry named with it says which rule leaves it open. -/

namespace Sys2Proof

/-- The data of a memory word that nothing has written since its memory was powered (R220): by the memory's power
epoch and the word's address. Assumption 3. -/
opaque Config.freeWord : Nat → Nat → Word

/-- The syndrome such a word reads with (R220: its check bits are undefined). Assumption 3. -/
opaque Config.freeSyndrome : Nat → Nat → Byte

/-- A value that no rule states, fresh by the count of such values taken so far (`State.fresh`). Assumption 3. -/
opaque Config.freeValue : Nat → Word

/-- The SHA-384 digest of a byte string (R378, FIPS 180-4), which no rule of the spec computes. Assumption 22. -/
opaque Config.sha384 : List Byte → Nat

/-- Whether an ECDSA P-384 signature verifies: public key, signature, message (R378, FIPS 186-5). Assumption 22. -/
opaque Config.ecdsaOk : List Byte → List Byte → List Byte → Bool

/-- The OTP key-hash slots 0 to 7 of this device: whether programmed, and the digest held (R378, OTPINFO.PROG).
Assumption 22. -/
opaque Config.otpProg : Nat → Bool
opaque Config.otpHash : Nat → Nat

/-- The bytes of the port's configuration ROM that neither R331 nor R335 gives, the manufacturer ID's among them. Assumption 74. -/
opaque Config.crRom : Nat → Byte

end Sys2Proof
end

