-- ==== Sys2Proof/Machine/Memory.lean ====
section
/-! DEFINITION. Plain memory: bytes by address in one canonical form, the word check code of R217 kept as each
word's syndrome (the stored check bits XOR the ones its data and its own address give, 0 for a word as written),
and the free contents of words that nothing has written (R220). -/

namespace Sys2Proof.Machine

/-- The number of 1 bits among the low eight of `n`. -/
def weight8 (n : Nat) : Nat :=
  n % 2 + n / 2 % 2 + n / 4 % 2 + n / 8 % 2 + n / 16 % 2 + n / 32 % 2 + n / 64 % 2 + n / 128 % 2

/-- The 8-bit values of weight `k`, ascending (R217). -/
def weightVals (k : Nat) : List Nat := (List.range 256).filter fun n => weight8 n == k

/-- The columns of data bits 0 to 63: the 56 values of weight 3, then the 8 smallest of weight 5 (R217). -/
def dataCols : List Nat := weightVals 3 ++ (weightVals 5).take 8

/-- The columns of the folded address bits, from bit 3 up: weight 2, then weight 4 (R217). -/
def addrCols : List Nat := weightVals 2 ++ weightVals 4

/-- The XOR of the columns whose bit of `v` is 1. -/
def foldCols (v : Nat) : List Nat → Nat
  | [] => 0
  | c :: cs => Nat.xor (if v % 2 = 1 then c else 0) (foldCols (v / 2) cs)

/-- The check bits of a word at an address (R217); `abits` folded address bits from bit 3 up: 14 for TCM, 45 for
region SRAM and DDR4. -/
def checkBits (abits : Nat) (addr : Nat) (data : Word) : Nat :=
  Nat.xor (foldCols data.toNat dataCols) (foldCols (addr / 8) (addrCols.take abits))

/-- What a syndrome says (R217). -/
inductive Ecc where
  /-- the word as read -/
  | ok
  /-- one data bit is wrong -/
  | fixData (bit : Nat)
  /-- one check bit is wrong -/
  | fixCheck
  /-- uncorrectable -/
  | bad
deriving DecidableEq, Repr

/-- The position of `x` in a list. -/
def indexFrom (x : Nat) (i : Nat) : List Nat → Option Nat
  | [] => none
  | y :: ys => if x = y then some i else indexFrom x (i + 1) ys

/-- Reading a syndrome (R217). -/
def eccOf (syn : Byte) : Ecc :=
  if syn = 0 then .ok
  else if weight8 syn.toNat = 1 then .fixCheck
  else match indexFrom syn.toNat 0 dataCols with
    | some j => .fixData j
    | none => .bad

/-- What lies under the listed bytes of a part of a memory: a fill byte, or nothing (its contents are free, by the
power epoch); and the syndrome that its words read with besides, nonzero where they were written under another address
than the one they are read at (R217). -/
structure Background where
  fill : Option Byte
  epoch : Nat
  syn : Byte
deriving DecidableEq, Repr

/-- A memory. `marks` gives the backgrounds of 1 MiB granules that differ from the base (only a mirrored DDR4
channel copies granules, R236). `syn` lists the words whose stored check bits are not their own (R220). -/
structure Ram where
  base : Background
  marks : AMap Background
  cells : AMap Byte
  syn : AMap Byte
deriving DecidableEq, Repr

/-- A memory just powered, holding nothing defined (R220). -/
def Ram.unwritten (epoch : Nat) : Ram := ⟨⟨none, epoch, 0⟩, [], [], []⟩

/-- A memory filled with one byte, check bits valid (R225, R238, R222). -/
def Ram.filled (b : Byte) : Ram := ⟨⟨some b, 0, 0⟩, [], [], []⟩

/-- The background of address `a`. -/
def Ram.bgAt (r : Ram) (a : Nat) : Background := AMap.get r.marks (fun _ => r.base) (a / 0x100000)

/-- The byte at `a`, where it is defined. -/
def Ram.byte? (r : Ram) (a : Nat) : Option Byte :=
  match AMap.find? r.cells a with
  | some b => some b
  | none => (r.bgAt a).fill

/-- Byte `i` of a word, little-endian. -/
def byteOfWord (w : Word) (i : Nat) : Byte := (w >>> (8 * i)).truncate 8

/-- The byte at `a`; undefined contents are the free word's byte (R220). -/
def Ram.byte (r : Ram) (a : Nat) : Byte :=
  match r.byte? a with
  | some b => b
  | none => byteOfWord (Config.freeWord (r.bgAt a).epoch (a / 8)) (a % 8)

/-- Write one byte, keeping the canonical form. -/
def Ram.setByte (r : Ram) (a : Nat) (b : Byte) : Ram :=
  if (r.bgAt a).fill = some b then { r with cells := AMap.drop a r.cells }
  else { r with cells := AMap.put a b r.cells }

/-- The word of eight bytes, byte 0 lowest. -/
def wordOfBytes (f : Nat → Byte) : Word :=
  (f 7 ++ f 6 ++ f 5 ++ f 4 ++ f 3 ++ f 2 ++ f 1 ++ f 0 : BitVec 64)

/-- The stored data of word `wa` (address wa * 8). -/
def Ram.rawWord (r : Ram) (wa : Nat) : Word := wordOfBytes fun i => r.byte (8 * wa + i)

/-- The syndrome word `wa` reads with. -/
def Ram.synAt (r : Ram) (wa : Nat) : Byte :=
  match AMap.find? r.syn wa with
  | some s => s
  | none =>
    let b := r.bgAt (8 * wa)
    match r.byte? (8 * wa) with
    | some _ => b.syn
    | none => Config.freeSyndrome b.epoch wa ^^^ b.syn

/-- Word `wa`'s check bits are its own (R218). -/
def Ram.clearSyn (r : Ram) (wa : Nat) : Ram :=
  { r with syn := if (r.bgAt (8 * wa)).syn = 0 then AMap.drop wa r.syn else AMap.put wa 0 r.syn }

/-- Write a whole word with valid check bits. -/
def Ram.setWord (r : Ram) (wa : Nat) (v : Word) : Ram :=
  let r0 := r.setByte (8 * wa) (byteOfWord v 0)
  let r1 := r0.setByte (8 * wa + 1) (byteOfWord v 1)
  let r2 := r1.setByte (8 * wa + 2) (byteOfWord v 2)
  let r3 := r2.setByte (8 * wa + 3) (byteOfWord v 3)
  let r4 := r3.setByte (8 * wa + 4) (byteOfWord v 4)
  let r5 := r4.setByte (8 * wa + 5) (byteOfWord v 5)
  let r6 := r5.setByte (8 * wa + 6) (byteOfWord v 6)
  let r7 := r6.setByte (8 * wa + 7) (byteOfWord v 7)
  r7.clearSyn wa

/-- The result of reading a checked word. -/
inductive WordRead where
  | good (v : Word)
  | fixed (v : Word)
  | bad
deriving DecidableEq, Repr

/-- A word through the check code; `inj` is XORed onto the syndrome (an armed injection of R288, else 0). -/
def Ram.readWord (r : Ram) (wa : Nat) (inj : Byte) : WordRead :=
  let v := r.rawWord wa
  match eccOf (r.synAt wa ^^^ inj) with
  | .ok => .good v
  | .fixData j => .fixed (v ^^^ BitVec.ofNat 64 (2 ^ j))
  | .fixCheck => .fixed v
  | .bad => .bad

/-- The value of a read that is not uncorrectable. -/
def WordRead.val : WordRead → Word
  | .good v => v
  | .fixed v => v
  | .bad => 0

/-- Bytes `lo .. lo+n-1` of `old` replaced by the low `n` bytes of `v`. -/
def mergeBytes (old v : Word) (lo n : Nat) : Word :=
  let m : Word := BitVec.ofNat 64 ((2 ^ (8 * n) - 1) * 2 ^ (8 * lo))
  (old &&& ~~~ m) ||| ((v <<< (8 * lo)) &&& m)

/-- Write `n` bytes of `v` at byte `lo` of word `wa`; a partial write leaves a nonzero syndrome in place (R220). -/
def Ram.mergeWrite (r : Ram) (wa lo n : Nat) (v : Word) : Ram :=
  if n = 8 then r.setWord wa v
  else
    let old := r.synAt wa
    let r' := r.setWord wa (mergeBytes (r.rawWord wa) v lo n)
    if old = 0 then r' else { r' with syn := AMap.put wa old r'.syn }

/-- The words an access of `n` bytes at `a` touches: word, first byte, byte count, bytes before it in the access
(at most three words: no access exceeds 16 bytes, R243). -/
def segments : Nat → Nat → Nat → Nat → List (Nat × Nat × Nat × Nat)
  | 0, _, _, _ => []
  | fuel + 1, a, n, done =>
    if n = 0 then []
    else
      let cnt := min n (8 - a % 8)
      (a / 8, a % 8, cnt, done) :: segments fuel (a + cnt) (n - cnt) (done + cnt)

/-- The 64 bits of an access's data that start at byte `k`. -/
def quadWord (q : Quad) (k : Nat) : Word := (q >>> (8 * k)).truncate 64

/-- Byte `i` of an access's data. -/
def quadByte (q : Quad) (i : Nat) : Byte := (q >>> (8 * i)).truncate 8

/-- The low `n` bytes of a word placed at byte `k` of an access's data. -/
def placeWord (w : Word) (n k : Nat) : Quad :=
  ((w &&& BitVec.ofNat 64 (2 ^ (8 * n) - 1)).zeroExtend 128) <<< (8 * k)

/-- Store `n` bytes at byte address `a`. -/
def Ram.writeBytes (r : Ram) (a n : Nat) (q : Quad) : Ram :=
  (segments 3 a n 0).foldl (fun r e => r.mergeWrite e.1 e.2.1 e.2.2.1 (quadWord q e.2.2.2)) r

/-- What a read of several words gives: the data, the words that were corrected, the uncorrectable words. -/
structure BytesRead where
  data : Quad
  fixed : List Nat
  bad : List Nat
deriving DecidableEq, Repr

/-- An armed injection of inverted check bits: the syndrome it adds and the checks it still acts on (R288). -/
structure Inject where
  syn : Byte
  left : Nat
deriving DecidableEq, Repr

/-- What the next check is given. -/
def Inject.next (i : Inject) : Byte := if i.left = 0 then 0 else i.syn

/-- One more word of a read: `e` its segment. -/
def BytesRead.add (x : BytesRead) (e : Nat × Nat × Nat × Nat) (w : WordRead) : BytesRead :=
  { data := x.data ||| placeWord (w.val >>> (8 * e.2.1)) e.2.2.1 e.2.2.2
    fixed := match w with | .fixed _ => x.fixed ++ [e.1] | _ => x.fixed
    bad := match w with | .bad => x.bad ++ [e.1] | _ => x.bad }

/-- Read the words of `segs`, gathering the data: every word is checked (R217). -/
def Ram.readSegs (r : Ram) (inj : Inject) : List (Nat × Nat × Nat × Nat) → BytesRead → BytesRead
  | [], x => x
  | e :: es, x => r.readSegs ⟨inj.syn, inj.left - 1⟩ es (x.add e (r.readWord e.1 inj.next))

/-- Read `n` bytes at byte address `a` through the check code. -/
def Ram.readBytes (r : Ram) (inj : Inject) (a n : Nat) : BytesRead := r.readSegs inj (segments 3 a n 0) ⟨0, [], []⟩

/-- The checks that a read of `n` bytes at `a` makes: one for each word. -/
def checksOf (a n : Nat) : Nat := (segments 3 a n 0).length

/-- The uncorrectable words that the read part of a partial write finds (R219, R220). -/
def partialBad (r : Ram) (a size : Nat) : List Nat :=
  ((segments 3 a size 0).filter fun e => decide (e.2.2.1 < 8) && decide (eccOf (r.synAt e.1) = .bad)).map fun e => e.1

/-- The words a partial write's read part corrects (R219). -/
def partialFixed (r : Ram) (a size : Nat) : List Nat :=
  ((segments 3 a size 0).filter fun e =>
      decide (e.2.2.1 < 8) && decide (r.synAt e.1 ≠ 0) && decide (eccOf (r.synAt e.1) ≠ .bad)).map fun e => e.1

/-- Write the words of an access whose partial words are correctable: each is corrected first, and stored whole with
new check bits (R218, R219). -/
def Ram.storeBytes (r : Ram) (a size : Nat) (q : Quad) : Ram :=
  ((partialFixed r a size).foldl (fun r wa => r.setWord wa ((r.readWord wa 0).val)) r).writeBytes a size q

/-- The words that an access stores whole: `rd` gives the word that the read part of a partial write reads (R219). -/
def wholeWords (rd : Nat → Word) (a size : Nat) (q : Quad) : List (Nat × Word) :=
  (segments 3 a size 0).map fun e =>
    (e.1, if e.2.2.1 = 8 then quadWord q e.2.2.2 else mergeBytes (rd e.1) (quadWord q e.2.2.2) e.2.1 e.2.2.1)

/-- Store whole words with their check bits. -/
def Ram.setWords (r : Ram) (ws : List (Nat × Word)) : Ram := ws.foldl (fun r e => r.setWord e.1 e.2) r

/-- Every word of the memory from now on is read at an address whose folded bits differ from those of before by the column `col`
(R217). -/
def Ram.refold (r : Ram) (col : Byte) : Ram :=
  let turn (b : Background) : Background := { b with syn := b.syn ^^^ col }
  let r' : Ram := { r with base := turn r.base, marks := r.marks.map fun e => (e.1, turn e.2), syn := [] }
  let words := (r.cells.map fun e => e.1 / 8) ++ r.syn.map fun e => e.1
  let put (m : AMap Byte) (wa : Nat) : AMap Byte :=
    let v := r.synAt wa ^^^ col
    if v = r'.synAt wa then AMap.drop wa m else AMap.put wa v m
  { r' with syn := words.foldl put [] }

/-- Copy one 1 MiB granule of `y` into `x`, check bits as read (R236). -/
def Ram.copyGranule (x y : Ram) (g : Nat) : Ram :=
  let inG (k : Nat) : Bool := k / 0x100000 == g
  let inW (k : Nat) : Bool := k / 0x20000 == g
  { x with
    marks := AMap.set x.marks (fun _ => x.base) g (y.bgAt (g * 0x100000))
    cells := (y.cells.filter fun e => inG e.1).foldl (fun m e => AMap.put e.1 e.2 m)
               (x.cells.filter fun e => !inG e.1)
    syn := (y.syn.filter fun e => inW e.1).foldl (fun m e => AMap.put e.1 e.2 m)
               (x.syn.filter fun e => !inW e.1) }

/-- The canonical form of a memory: keys rising, no byte equal to its background, no zero syndrome listed. -/
def Ram.wf (r : Ram) : Bool :=
  AMap.rising r.cells && (r.cells.all fun e => decide ((r.bgAt e.1).fill ≠ some e.2)) &&
  AMap.rising r.marks && AMap.rising r.syn

end Sys2Proof.Machine
end

