-- ==== Sys2Proof/Machine/CoreState.lean ====
section
/-! DEFINITION. The state of a core copy and of a triad: registers, control registers, the mode-change shadow,
the TMI's replay buffer and output gate, the voter's tints, the interrupt unit's stamps, mordanting
(02_triads.md, 03_core_pipeline.md, 06_exceptions.md). -/

namespace Sys2Proof.Machine

/-- One access of a group, as planned before any is performed (R126, R143). `prior` data are those the group's
first access read. -/
inductive AccData where
  | lit (v : Quad)
  | prior
deriving DecidableEq, Repr

/-- A planned access: kind, address, size in bytes, SPLIT prefix, data; whether it is one of R133's stack accesses. -/
structure Acc where
  kind : ReqKind
  addr : Word
  size : Nat
  split : Bool
  data : AccData
  stack : Bool
deriving DecidableEq, Repr

/-- An entry that waits for its frame push (R160): vector, target level, return address, and the register values a
fault entry writes. -/
structure EntryPlan where
  vec : Nat
  target : Level
  ra : Word
  status : Word
  frame : Word
  oldSp : Word
  adr : Option Word
  inf : Option Word
  arithPc : Option Word
  job : Option (Word × Word × Word)
  ejCopy : Option Nat
deriving DecidableEq, Repr

/-- The work of the group that stands at the head of the retire queue and waits at the TMI. -/
inductive Work where
  | instr (x : Ctx) (i : Fla) (rep : Option RepKind) (rest : List Acc) (vals : List Quad)
  | entry (e : EntryPlan)
deriving DecidableEq, Repr

/-- Which of its group's accesses a work waits for (a CMPS makes two at one index). A frame push comes behind every access of the
group whose fault it answers: the two are distinct requests of one index (R56, R160). -/
def Work.ord : Work → Nat
  | .instr _ _ _ _ vals => vals.length
  | .entry _ => 8

/-- Why a copy stands at its head group: nothing, WAIT (R150) or a FENCE (R151) with its length in bytes, or a memory
request at the TMI. -/
inductive Hold where
  | none
  | wait (len : Nat)
  | fence (rule : Bool) (len : Nat)
  | mem (req : MemReq) (work : Work) (presented : Bool)
deriving DecidableEq, Repr

/-- A control-register write inside its shadow: the register, the value still in force, instructions left (R89). -/
structure Shadow where
  cr : Nat
  old : Word
  left : Nat
deriving DecidableEq, Repr

/-- A pending arithmetic exception (R174 to R176). -/
structure ArithPend where
  index : Nat
  pc : Word
  code : Nat
  more : Bool
  exact : Bool
deriving DecidableEq, Repr

/-- The 64-byte tint record of a group (R48), before its check value is taken. -/
structure TintRec where
  index : Nat
  addr : Word
  dstA : Nat := 0xFF
  dstB : Nat := 0xFF
  pmask : Nat := 0
  preds : Nat := 1
  kind : Nat := 0
  wcode : Nat := 0
  crn : Nat := 0xFFFF
  valA : Word := 0
  valB : Word := 0
  maddr : Word := 0
  mdata : Word := 0
  crval : Word := 0
deriving DecidableEq, Repr

/-- What the pairing rules need of a slot A that has retired alone and may still take a slot B (R86). -/
structure SlotA where
  addr : Word
  next : Word
  writes : List Nat
  pwrites : Nat
deriving DecidableEq, Repr

/-- A group that X has issued behind the head of the retire queue (R80): its instruction, the address and length of the bytes
issued, whether it is the second instruction of the group before it (R86). -/
structure QGroup where
  x : Ctx
  i : Fla
  rep : Option RepKind
  addr : Nat
  len : Nat
  slotB : Bool
deriving DecidableEq, Repr

/-- A core copy (R99 to R101, R154 to R178). General registers by number: 0 to 14, then the three banks of g15 at 15
(Machine), 16 (System), 17 (Task). `queue` holds the groups issued and not yet at the head, `win` the first line of the prefetch
window (R83), none where it has been discarded, `xStall` why X issued no group at the last attempt, in CSTAT.STALL's codes; `ovl` counts the MPU generations
that had an overlap (R244), the model's own field. -/
structure Copy where
  st : CopyState
  g : AMap Word
  preds : Byte
  cr : AMap Word
  shadow : List Shadow
  pc : Word
  retcnt : Nat
  localFlag : Bool
  resv : Option Nat
  holdRem : Nat
  emerg : Bool
  afterEntry : Bool
  repu : Bool
  pend : Option ArithPend
  hold : Hold
  tcm : Ram
  tints : List TintRec
  slotA : Option SlotA
  queue : List QGroup
  win : Option Nat
  xStall : Nat
  ovl : Nat
  lastRetire : Nat
  tags : Nat
  writeBack : List Nat
  scrubPos : Nat
deriving DecidableEq, Repr

/-- A stamped request (R62, R64): vector, delivery index, which copies have taken it (bit c), the job registers a
release carries (R185), the copy a notice names. -/
structure Stamp where
  vec : Nat
  d : Nat
  taken : Nat
  job : Option (Word × Word × Word)
  ejCopy : Nat
deriving DecidableEq, Repr

/-- A response: data, or an error. -/
inductive Resp where
  | ok (data : Quad)
  | err
deriving DecidableEq, Repr

/-- A replay-buffer entry (R53): the group's index and which of its accesses, the held request, the copy on whose request
the load was issued, the copies whose requests equal it, the halves not yet issued and those out (tag, half), the data so
far, the half that failed, the result, the copies that have it; a differing request that waits for the third copy; whether
the request counts as no copy's (R71); the MPU generation that the request was checked under (R253). -/
structure Replay where
  index : Nat
  ord : Nat
  req : MemReq
  issuer : Nat
  same : List Nat
  todo : List Nat
  tags : List (Nat × Nat)
  acc : Quad
  bad : Option Nat
  result : Option Resp
  got : List Nat
  dissent : Option (Nat × MemReq)
  orphan : Bool
  gen : Nat
deriving DecidableEq, Repr

/-- An output-gate entry (R55): the group's index and which of its accesses, the requests presented, whether it was
released and on which copy's tags, the parts still to go, the tag and part under way, the data so far, the part that
failed, the recorded response, the copies that have it, the MPU generation that it was checked under (R253). -/
structure Gate where
  index : Nat
  ord : Nat
  reqs : List (Nat × MemReq)
  released : Bool
  by' : Nat
  todo : List Nat
  tag : Option (Nat × Nat)
  acc : Quad
  bad : Option Nat
  resp : Option Resp
  got : List Nat
  gen : Nat
deriving DecidableEq, Repr

/-- The phases of mordanting (MORDSTAT.PHASE). -/
inductive MordPhase where
  | idle | rounds | awaiting | pause | completed | abandoned
deriving DecidableEq, Repr

/-- The code of a phase (MORDSTAT.PHASE). -/
def MordPhase.code : MordPhase → Nat
  | .idle => 0 | .rounds => 1 | .awaiting => 2 | .pause => 3 | .completed => 4 | .abandoned => 5

/-- A triad (R50 to R79). The voter's tints are (copy, index, tint); `injTints` names those that an injection has inverted (R288). `entry` is the stage of a low-power entry under
way, 0 for none: 1 to 4 the stages of R359, 5 to 8 the device stages of R363. -/
structure Triad where
  mode : Nat
  entry : Nat
  stamps : List Stamp
  voter : List (Nat × Nat × Word)
  injTints : List (Nat × Nat)
  replay : List Replay
  gate : List Gate
  posted : Nat
  mord : MordPhase
  mordCopy : Nat
  mordSince : Nat
  boundary : Nat
  dirty : List Nat
  afterEject : List Nat
  readm : AMap (List Nat)
  isolated : Bool
deriving DecidableEq, Repr

/-- A copy with its triad unpowered: TCM contents undefined. -/
def Copy.off : Copy where
  st := .unpowered
  g := []
  preds := 1
  cr := []
  shadow := []
  pc := 0
  retcnt := 0
  localFlag := false
  resv := none
  holdRem := 0
  emerg := false
  afterEntry := false
  repu := false
  pend := none
  hold := .none
  tcm := Ram.unwritten 0
  tints := []
  slotA := none
  queue := []
  win := none
  xStall := 0
  ovl := 0
  lastRetire := 0
  tags := 0
  writeBack := []
  scrubPos := 0

/-- A triad after reset: Off (TMODE reset 0b000). -/
def Triad.off : Triad where
  mode := 0
  entry := 0
  stamps := []
  voter := []
  injTints := []
  replay := []
  gate := []
  posted := 0
  mord := .idle
  mordCopy := 3
  mordSince := 0
  boundary := 0
  dirty := []
  afterEject := []
  readm := []
  isolated := false

end Sys2Proof.Machine
end

