-- ==== Sys2Proof/Machine/UnitState.lean ====
section
/-! DEFINITION. The state of the units around the triads: the fault collector's pending events and log, the requests
under way in the fabric and at the memories (10_fault_reaction.md, 08_memory.md, 09_protection.md). -/

namespace Sys2Proof.Machine

/-- An event that a source holds until FCOL takes it (R264, R267, R286). -/
structure FaultEv where
  src : Nat
  code : Nat
  unit : Nat
  detail : Word
  rail : Bool
  injected : Bool
  merged : Bool
deriving DecidableEq, Repr

/-- A log record of 32 bytes as four words (R286). -/
structure LogRec where
  w0 : Word
  w1 : Word
  w2 : Word
  w3 : Word
deriving DecidableEq, Repr

/-- The fault collector (R264 to R287): events waiting in order of arrival, masked pairs, event and threshold
counts, the ring, the active generation (0: the built-in table), DEVICE-SAFE, the pending RESET, the ERROUT pins. -/
structure Fcol where
  waiting : List FaultEv
  masked : List Nat
  /-- pairs that stay broken after their rail fault, as (first line, second line) -/
  pairs : AMap Nat
  evcnt : AMap Nat
  thr : AMap Nat
  log : AMap LogRec
  head : Nat
  first : Option LogRec
  gen : Word
  checked : Option Word
  dsafe : Bool
  resetDue : Option Nat
  resetSrc : Nat
  errShown : Bool
  errPhase : Bool
  lastLeak : Nat
  lastSweep : Nat
deriving DecidableEq, Repr

/-- Who waits for a request's response. -/
inductive Origin where
  /-- the TMI of triad `t`, under a copy's tag (R88) -/
  | tmi (t tag : Nat)
  /-- schedule engine `e`, its move record (`commit` false) or commit record; `off` is twice the position in bytes, plus 1
  for a write (R190) -/
  | engine (e rec off : Nat) (commit : Bool)
  /-- the peer `dev` under its tag `tag`, piece `part` of the access, through link `link` (R38, R307) -/
  | peer (link dev tag part : Nat)
deriving DecidableEq, Repr

/-- A request in the fabric: its initiator number (R249), what it asks, who waits, the triad reservation it sets or
needs (R58), and the FWALL generation under which it was checked (R252). -/
structure FabReq where
  iid : Nat
  kind : ReqKind
  addr : Nat
  size : Nat
  data : Quad
  flag : Bool
  origin : Origin
  tag : Nat
  gen : Word
deriving DecidableEq, Repr

/-- A transaction outstanding under a tag (R35, R256): when it was issued; the region whose firewall judged it and under which
generation (R252, R253). -/
structure TagUse where
  tag : Nat
  since : Nat
  origin : Origin
  fw : Option (Nat × Word)
deriving DecidableEq, Repr

/-- A run of a job record in one engine (R189): the state and loss cause in JSTATE's codes, its frame, the tick of its
RELEASE slot and of its completion, whether it completed (it governs as complete even once committed, R193), whether a
move without REQUIRED failed (R192), whether the takeover notice came (R196), whether this engine owns its commits, the
next re-run move (R195). -/
structure Run where
  state : Nat
  cause : Nat
  frame : Nat
  rel : Nat
  doneTick : Nat
  ok : Bool
  stale : Bool
  handed : Bool
  own : Bool
  nextMove : Nat
deriving DecidableEq, Repr

/-- No run (JSTATE 0, Idle). -/
def Run.idle : Run := ⟨0, 0, 0, 0, 0, false, false, false, false, 0⟩

/-- The run open on a triad (R184, R187): job number, job record, frame, whether it is lost and waits for its stop to be
acknowledged. -/
structure OpenRun where
  job : Nat
  rec' : Nat
  frame : Nat
  lost : Bool
deriving DecidableEq, Repr

/-- A move or a commit's write (R190): its frame, whether it runs, succeeded or failed, the next byte, the end of its
window in ns, where its bytes come from (an address, or offset in the fallback pool), the job record whose re-run
move it is, and the bytes of a unit that was read and whose write waits for a tag (R36). -/
structure MoveRun where
  frame : Nat
  st : Nat
  pos : Nat
  windowEnd : Nat
  src : Nat
  pool : Bool
  rerun : Option Nat
  kept : List Byte
deriving DecidableEq, Repr

/-- A commit's vote in a frame (R197, R198): its digest, the window's end, whether it was judged and agreed, whether the
staging bytes were uncorrectable. -/
structure Ballot where
  frame : Nat
  digest : Word
  windowEnd : Nat
  judged : Bool
  agreed : Bool
  uncorr : Bool
deriving DecidableEq, Repr

/-- A notice on its way to engine `dst` about job number `job`. -/
structure Notice where
  kind : NoticeKind
  dst : Nat
  job : Nat
  frame : Nat
deriving DecidableEq, Repr

/-- A schedule engine (R184 to R198, R452): banks by 8-byte word, STATE code of SSTAT, whether it resumes at the next
frame, the latest run and the one before it by job record, the open run by triad, moves, commits and ballots by record,
the votes it holds, the slots that have acted in this frame. -/
structure Engine where
  active : AMap Word
  inactive : AMap Word
  bank : Bool
  state : Nat
  resume : Bool
  runs : AMap Run
  prev : AMap Run
  opens : AMap OpenRun
  moves : AMap MoveRun
  commits : AMap MoveRun
  ballots : AMap Ballot
  votes : List VoteRec
  acted : List Nat
deriving DecidableEq, Repr

/-- An engine without a table. -/
def Engine.empty : Engine := ⟨[], [], false, 0, false, [], [], [], [], [], [], [], []⟩

/-- A TX action under way (R199): where its window ends. -/
structure TxRun where
  windowEnd : Nat
deriving DecidableEq, Repr

/-- A link schedule engine (R199, R200): banks, state, receive pointer and byte ranges written since the last RXCHK per
lane record, stale RX records, TX actions under way, the slots that have acted in this frame. -/
structure LEngine where
  active : AMap Word
  inactive : AMap Word
  bank : Bool
  state : Nat
  resume : Bool
  rxPtr : AMap Nat
  written : AMap (List (Nat × Nat))
  stale : List Nat
  tx : AMap TxRun
  acted : List Nat
deriving DecidableEq, Repr

/-- A link engine without a table. -/
def LEngine.empty : LEngine := ⟨[], [], false, 0, false, [], [], [], [], []⟩

/-- The timebase beyond its registers (R179 to R182, R211 to R214): TIME, the frame, the active generation, the
device bank, whether a check passed and for which generation, whether a switch is armed, the first frame number of
the active table, source lock, whether a follower has locked since power-on reset (R316). -/
structure TimeState where
  time : Nat
  frameNo : Nat
  frameStart : Nat
  actGen : Word
  active : AMap Word
  inactive : AMap Word
  checked : Option Word
  armed : Bool
  firstFrame : Nat
  pendSrc : Option Nat
  everLocked : Bool
  ppsGain : Nat
  ppsLose : Nat
  ppsAcc : Nat
deriving DecidableEq, Repr

/-- A lane beyond its registers (R293 to R298, R312): the CAP last received and how many equal ones came in a row, READY as
shown, whether the partner has shown READY, the chosen version, rate code and lanes, the link it is to join as a spare,
whether a missing common ability was reported. -/
structure LaneSt where
  cap : Option Cap
  count : Nat
  ready : Bool
  partnerReady : Bool
  version : Nat
  rate : Nat
  lanes : Nat
  spareFor : Option Nat
  noAbility : Bool
deriving DecidableEq, Repr

/-- A lane without a partner. -/
def LaneSt.idle : LaneSt := ⟨none, 0, false, false, 0, 0, 0, none, false⟩

/-- A sequenced frame in the retry buffer: when it was sent last, how often it was retransmitted (R305). -/
structure Kept where
  hdr : BvlHdr
  body : BvlBody
  since : Nat
  tries : Nat
deriving DecidableEq, Repr

/-- A frame held for order (R304) and since when. -/
structure HeldFrame where
  hdr : BvlHdr
  body : BvlBody
  since : Nat
deriving DecidableEq, Repr

/-- A peer transaction that the requesting side holds (R307): its tag, its origin, since when. -/
structure PeerOut where
  tag : Nat
  origin : Origin
  size : Nat
  load : Bool
  since : Nat
deriving DecidableEq, Repr

/-- A peer transaction that the serving side holds: the peer and its tag, its plane, the local address, the size and the
bytes done, the data read or to store, since when (R38, R307). -/
structure PeerIn where
  dev : Nat
  tag : Nat
  plane : Bool
  load : Bool
  addr : Nat
  size : Nat
  pos : Nat
  bytes : List Byte
  since : Nat
deriving DecidableEq, Repr

/-- A BVL link (R299 to R317), by the lane of its primary engine: next SEQ and expected SEQ by VC, retry buffer, frames that
wait for their source's turn, the retry queue (VC and SEQ of frames in the retry buffer), ACK and NAK frames that wait for a gap, the
source whose turn is next (0 the retry queue, v + 1 VC v), the lane from which the next Active one is sought (R303), reorder buffer,
peer transactions of both sides, the greatest number of Active lanes since it came up, Active lanes the partner reported down, when
it went Down, the failed lane for which a spare was asked, the last TIME frame received (receive time, send time), TIME right after
it, what is left of the rate's allowance in 10^-6 ns (R316), TIME frames in a row within 2 ns. -/
structure Link where
  txSeq : AMap Nat
  rxSeq : AMap Nat
  retry : List Kept
  wait : List (BvlHdr × BvlBody)
  again : List (Nat × Nat)
  ctl : List (BvlHdr × BvlBody)
  turn : Nat
  laneFrom : Nat
  held : List HeldFrame
  peerOut : List PeerOut
  peerIn : List PeerIn
  full : Nat
  away : List Nat
  downSince : Nat
  spareAsked : Option Nat
  timeLast : Option (Nat × Nat)
  timeAt : Nat
  slew : Nat
  lockCount : Nat
deriving DecidableEq, Repr

/-- A link that carries nothing. -/
def Link.empty : Link := ⟨[], [], [], [], [], [], 0, 0, [], [], [], 0, [], 0, none, none, 0, 0, 0⟩

/-- What an entry of the outbound queue is (R324): an access, a tandem-bridge write of channel `c` (its bytes), an IACK cycle
of a level, the discovery of a partner entry. -/
inductive VmeWork where
  | access (r : FabReq)
  | bridge (c : Nat) (bytes : List Byte)
  | iack (level : Nat)
  | discover (p : Nat)
deriving DecidableEq, Repr

/-- An entry of the outbound queue: VME address, space, partner entry, SUP and PROG, whether posted, when accepted (R324 to
R327), whether the port's own slave side withholds its DTACK (R330, R338). -/
structure VmeEntry where
  work : VmeWork
  vaddr : Nat
  space : Nat
  part : Nat
  sup : Bool
  prog : Bool
  posted : Bool
  since : Nat
  held : Bool
deriving DecidableEq, Repr

/-- What discovery reads next of a partner (R335): the "C" at 0x1F, the "R" at 0x23, the rest of the CR, the probe bytes with a
protocol, then with single cycles. -/
inductive DiscStep where
  | c | r | cr
  | block (proto : Nat)
  | single (proto : Nat) (got : List Byte)
deriving DecidableEq, Repr

/-- The partner entry under discovery (R335): its step, what its CR holds, the width chosen, candidates given up. -/
structure Disc where
  p : Nat
  step : DiscStep
  view : CrView
  width : Nat
  lowered : Nat
deriving DecidableEq, Repr

/-- A cycle, or a block transfer, of the master side on the bus (R326): address modifier (none for an IACK cycle), address, bytes,
whether a write, an RMW cycle, whether it goes on with the block transfer before it, the data it writes. -/
structure VmeBus where
  am : Option Nat
  addr : Nat
  size : Nat
  write : Bool
  rmw : Bool
  cont : Bool
  data : List Byte
deriving DecidableEq, Repr

/-- The VME port (R323 to R339): outbound queue, interrupt FIFO, levels that other boards assert, inbound writes withheld by a
tandem channel, SYSRESET* driven for 200 ms, whether the port has stopped; the entry under discovery; the block transfer that a next
unit goes on with (initiator, partner, write, address); whether the slot-1 functions run (SYSCLK, the arbiter, the bus timer, the
daisy-chain starts) and whether SYSRESET* is driven (R332). -/
structure Vme where
  queue : List VmeEntry
  fifo : List Word
  lines : List Nat
  heldIn : List (Nat × VmeCycle)
  sysrst : Bool
  stopped : Bool
  disc : Option Disc
  block : Option (Nat × Nat × Bool × Nat)
  slot1 : Bool
  reset : Bool
deriving DecidableEq, Repr

/-- A port that holds nothing. -/
def Vme.idle : Vme := ⟨[], [], [], [], false, false, none, none, false, false⟩

/-- A CAN FD controller beyond its registers: queued mailboxes, whether the recovery sequence runs, frames dropped at a full
ring, whether it has stopped (R339 to R342). -/
structure Can where
  queue : List Nat
  recovering : Bool
  dropped : Nat
  stopped : Bool
deriving DecidableEq, Repr

/-- A UART (R343): FIFOs (characters with their ninth bit; received ones with the ERR bits above), whether the characters
after the last address are kept, whether driver-enable is asserted, whether it has stopped. -/
structure Uart where
  tx : List Nat
  rx : List Nat
  keep : Bool
  driving : Bool
  stopped : Bool
deriving DecidableEq, Repr

/-- An I2C port (R346): bus commands not yet finished (CMD, DATA), results, a slave response pending, stopped. -/
structure I2c where
  cmds : List (Nat × Nat)
  res : List Nat
  slave : Bool
  stopped : Bool
deriving DecidableEq, Repr

/-- What the device sends or drives outside: BVL frames by link, lane patterns, Ethernet frames by MAC (16, 17: MGMT0, 1),
VME answers, CAN frames, UART characters, MDIO and I2C bus commands, service messages by channel. -/
inductive Out where
  | bvl (link lane : Nat) (h : BvlHdr) (b : BvlBody)
  | cap (lane : Nat) (c : Cap)
  | indigo (lane : Nat)
  | eth (mac : Nat) (bytes : List Byte) (ts : Nat)
  | vmeCycle (c : VmeBus)
  | vmeAnswer (ok : Bool) (data : Quad)
  | can (k : Nat) (hdr : Word) (data : List Byte)
  | uart (k ch : Nat)
  | mdio (v : Word)
  | i2c (k cmd data : Nat)
  | svc (ch dst : Nat) (bytes : List Byte)
  | jtag
deriving DecidableEq, Repr

/-- A request that a service channel has accepted and not completed (R397): its number, command and payload. -/
structure SvcReq where
  hseq : Nat
  cmd : Nat
  payload : List Byte
deriving DecidableEq, Repr

/-- A service channel (R397, R398): LASTACC, LASTEXEC, WSEQ, HACK, the held messages by WSEQ with the request each answers
(0: a notice), the accepted requests. -/
structure Chan where
  lastAcc : Nat
  lastExec : Nat
  wseq : Nat
  hack : Nat
  held : List (Nat × Nat × List Byte)
  reqs : List SvcReq
deriving DecidableEq, Repr

/-- A channel after reset (R397). -/
def Chan.empty : Chan := ⟨0, 0, 0, 0, [], []⟩

/-- A service command whose end lies later (R410, R411, R416). -/
inductive SvcOp where
  | loadTable
  | loadReact
  /-- WARDENSWAP: directory entry and slot of the new firmware, since when -/
  | swap (entry slot since : Nat)
  /-- INSTALLSET: the WSEQ of its response, since when -/
  | install (wseq since : Nat)
  /-- abandoned by a reaction action (R25) -/
  | dropped
deriving DecidableEq, Repr

/-- The service channels (R395 to R417): the channel served last, the command under way with its channel, UART0's SLIP
decoder, messages held during a handover with their source addresses, the address that answers of channels 0 and 1 go to,
the channel whose host last sent a request on to a device, messages that wait for the response area of the mailbox. -/
structure Svc where
  chans : AMap Chan
  turn : Nat
  op : Option (Nat × SvcReq × SvcOp)
  slip : List Byte
  slipEsc : Bool
  parked : List (Nat × Nat × List Byte)
  mac : AMap Nat
  relay : AMap Nat
  mail : List (List Byte)
deriving DecidableEq, Repr

/-- The service channels after reset. -/
def Svc.idle : Svc := ⟨[], 0, none, [], false, [], [], [], []⟩

/-- An image in use: the directory entry it came from, its slot and its header's KIND, VERSION, SECVER, FLAGS bit 0 and
ATTR (R404, R405); whether it was loaded live (R415); of a triad image, the triads for which it is in force (R405). -/
structure ImageUse where
  entry : Nat
  slot : Nat
  kind : Nat
  version : Nat
  secver : Nat
  advance : Bool
  attr : Word
  live : Bool
  force : Word
deriving DecidableEq, Repr

/-- The warden (R375 to R393): when step 3 began, when the first frame began, when the last start failed (a retry waits
from then on), the part of step 8 under way and the configuration record it stands at, the images in use, revoked key
slots, anti-rollback counters by kind, the flash pages that failed the double read of R345. -/
structure Warden where
  startAt : Nat
  firstAt : Nat
  failedAt : Option Nat
  part : Nat
  rec' : Nat
  images : List ImageUse
  revoked : List Nat
  arc : AMap Nat
  unread : List Nat
deriving DecidableEq, Repr

/-- A BIST run (R384 to R387): TKIND, triad or region, copy, block, whether RETEST ordered it. -/
structure BistRun where
  kind : Nat
  inst : Nat
  copy : Nat
  block : Nat
  retest : Bool
deriving DecidableEq, Repr

/-- The BIST sequencer: the run under way and the runs queued by RETEST (triad, copy) (R387, R450). -/
structure Bist where
  run : Option BistRun
  queue : List (Nat × Nat)
deriving DecidableEq, Repr

end Sys2Proof.Machine
end

