-- ==== Sys2Proof/Machine/State.lean ====
section
/-! DEFINITION. The state of the whole device, and the state right after power-on reset. -/

namespace Sys2Proof.Machine

/-- Why the machine stops: nothing in the spec does (a device in Deep or in reset still takes commands), so no meaning
raises a fault. Raising one would be safe. -/
inductive Fault where
  /-- no meaning raises it; safe -/
  | unreachable
deriving DecidableEq, Repr

/-- Why a command is not run. -/
inductive Refusal where
  /-- a row of the table without its meaning; no arm answers it now; safe -/
  | notModelled (mnemonic : String)
deriving DecidableEq, Repr

/-- The two orderable variants: one compute die or two (R1). -/
inductive Variant where
  | fl8432 | fl8464
deriving DecidableEq, Repr

/-- Compute dies present, DEVICE.PGCAP.DIES (R3). -/
def Variant.dies : Variant → Nat
  | .fl8432 => 1
  | .fl8464 => 2

/-- The device (01_hierarchy.md to 16_register_pages.md). -/
structure State where
  /-- commands that wait, first in, first out -/
  pending : List Instr
  /-- which variant the device is (R1) -/
  variant : Variant
  /-- the DEVID strap sampled at power-on reset (R11) -/
  devid : Nat
  /-- the board fits a 25 MHz crystal or a reference clock (R181, R435) -/
  xtal : Bool
  /-- the slot that GA0 to GA4 and GAP give, none where they give no valid one (R323, R331) -/
  slot : Option Nat
  /-- counts the free values taken so far: the model's own field -/
  fresh : Nat
  /-- register values that differ from their tables' reset values, by page and offset -/
  regs : AMap Word
  /-- FWALL active rule sets and generations live in `regs` (RO copies) and here (R252) -/
  pggen : AMap Word
  copies : AMap Copy
  triads : AMap Triad
  fcol : Fcol
  /-- region SRAM by region, its local-port queue, and words its banks still write back (R224, R226) -/
  sram : AMap Ram
  port : AMap (List FabReq)
  sramWb : AMap (List Nat)
  /-- DDR4 by channel, the channel's queue and write-back queue (R229, R232) -/
  ddr : AMap Ram
  ddrQ : AMap (List FabReq)
  ddrWb : AMap (List Nat)
  ddrDirty : AMap (List Nat)
  /-- when the last maintenance window of a channel began (R230) -/
  ddrWin : AMap Nat
  /-- bursts done of the granule a channel is copying (R236) -/
  resync : AMap Nat
  /-- triad reservations at the target monitors: (triad, granule) (R58) -/
  resv : List (Nat × Nat)
  /-- responses on their way to the TMIs: (origin, response) (R56) -/
  resps : List (Origin × Resp)
  /-- outstanding tags (R35, R256) -/
  tags : List TagUse
  /-- by path, the sequence number that its destination endpoint expects and the one its source gives next (R255) -/
  flitRx : AMap Nat
  flitTx : AMap Nat
  /-- requests on their way to the VME port and to peers (R52, R29) -/
  vmeIn : List FabReq
  timeB : TimeState
  engines : AMap Engine
  lengines : AMap LEngine
  notices : List Notice
  /-- checks an armed PGINJ injection of a page has made (R288) -/
  injMade : AMap Nat
  /-- lanes and BVL links (R293 to R317) -/
  lanes : AMap LaneSt
  links : AMap Link
  /-- spare lanes that have joined a link, by lane (R312) -/
  spares : AMap Nat
  /-- BVL versions that a quad's microcode supports, where not those of the first one (R296, R413) -/
  bvlVers : AMap Nat
  /-- what the device has sent, oldest first: the model's own field, read by nothing -/
  out : List Out
  vme : Vme
  cans : AMap Can
  uarts : AMap Uart
  i2cs : AMap I2c
  /-- the boot flash behind SPIF, by offset; an unlisted byte is 0xFF, as erased (R401) -/
  flash : AMap Byte
  warden : Warden
  svc : Svc
  bist : Bist
  /-- die, region and triad resets in progress, as RSTCTL's KIND and INST (R373) -/
  resets : List (Nat × Nat)
  /-- dies whose bridge is closed (R19) -/
  bridgeShut : List Nat
  /-- DOMSTAT saved by a device entry (R363), and a wake latched after the last abort point (R365) -/
  savedDom : Word
  wakeLatch : Option (Nat × Nat)
  /-- lanes whose detector in AO0 was enabled when the device fell asleep (R318, R365) -/
  savedWake : List Nat
  /-- dies above THWARN since their last report (R357) -/
  warned : List Nat
  /-- output pins that do not follow their function, by pin group of R281 times 256 plus index: 0 float, 1 low, 2 high -/
  pins : AMap Nat
  /-- FABIO is on, the fabric domains are on (R16); AOC0 and AOC1 are on (R12) -/
  fabio : Bool
  fab : Bool
  aoc : Bool
  /-- the TAP stands in Test-Logic-Reset (R371) -/
  tapReset : Bool
  /-- domains that are switching, with the state they switch to; requests held behind them, in order (R349, R350) -/
  switching : AMap Bool
  heldSwitch : List (Nat × Bool)
deriving DecidableEq, Repr

/-- Compute dies present (R3). -/
def State.dies (s : State) : Nat := s.variant.dies

/-- FCOL after power-on reset: nothing reported or logged, the safe flag clear, ERROUT showing error (R276, R394). -/
def Fcol.reset : Fcol where
  waiting := []
  masked := []
  pairs := []
  evcnt := []
  thr := []
  log := []
  head := 0
  first := none
  gen := 0
  checked := none
  dsafe := false
  resetDue := none
  resetSrc := 0
  errShown := true
  errPhase := false
  lastLeak := 0
  lastSweep := 0

/-- The timebase after power-on reset: TIME 0 on the internal oscillator, no table active (R179 to R181). -/
def TimeState.reset : TimeState where
  time := 0
  frameNo := 0
  frameStart := 0
  actGen := 0
  active := []
  inactive := []
  checked := none
  armed := false
  firstFrame := 0
  pendSrc := none
  everLocked := false
  ppsGain := 0
  ppsLose := 0
  ppsAcc := 0

/-- The device right after power-on reset (R371, R375, R394): every register at its table's reset value, every domain but
VAO's off, the memories unwritten, the start sequence before step 2. An FL-8464 with DEVID 0, a crystal and an erased flash (DESIGN
CHOICE, assumption 5). -/
def State.reset : State where
  pending := []
  variant := .fl8464
  devid := 0
  xtal := true
  slot := none
  fresh := 24
  regs := []
  pggen := []
  copies := []
  triads := []
  fcol := Fcol.reset
  sram := (List.range 16).map fun n => (n, Ram.unwritten (1 + n))
  port := []
  sramWb := []
  ddr := (List.range 8).map fun k => (k, Ram.unwritten (17 + k))
  ddrQ := []
  ddrWb := []
  ddrDirty := []
  ddrWin := []
  resync := []
  resv := []
  resps := []
  tags := []
  flitRx := []
  flitTx := []
  vmeIn := []
  timeB := TimeState.reset
  engines := []
  lengines := []
  notices := []
  injMade := []
  lanes := []
  links := []
  spares := []
  bvlVers := []
  out := []
  vme := Vme.idle
  cans := []
  uarts := []
  i2cs := []
  flash := []
  warden := ⟨0, 0, none, 0, 0, [], [], [], []⟩
  svc := Svc.idle
  bist := ⟨none, []⟩
  resets := []
  bridgeShut := []
  savedDom := 0
  wakeLatch := none
  savedWake := []
  warned := []
  pins := []
  fabio := false
  fab := false
  aoc := false
  tapReset := false
  switching := []
  heldSwitch := []

end Sys2Proof.Machine
end

