-- ==== Sys2Proof/Machine/Ops.lean ====
section
/-! DEFINITION. The named operations over the state: registers of the pages, copies and triads by number, TIME, fault
reports, the address map. -/

namespace Sys2Proof.Machine

/-- Bit `i` of a number. -/
def bitAt (n i : Nat) : Bool := n / 2 ^ i % 2 == 1

/-- The number with bit `i` set. -/
def setBitN (n i : Nat) : Nat := if bitAt n i then n else n + 2 ^ i

/-- The number with bit `i` clear. -/
def clrBitN (n i : Nat) : Nat := if bitAt n i then n - 2 ^ i else n

/-- A Bool as a bit. -/
def b2n (b : Bool) : Nat := if b then 1 else 0

/-- The stored value of a register. -/
def State.reg (s : State) (page off : Nat) : Word := AMap.get s.regs regReset (regKey page off)

/-- Store a register's value. -/
def State.setReg (s : State) (page off : Nat) (v : Word) : State :=
  { s with regs := AMap.set s.regs regReset (regKey page off) v }

/-- A field of a register. -/
def State.fld (s : State) (page off hi lo : Nat) : Nat := bitsOf (s.reg page off) hi lo

/-- Store a field of a register. -/
def State.setFld (s : State) (page off hi lo v : Nat) : State :=
  s.setReg page off (withBits (s.reg page off) hi lo v)

/-- One bit of a register. -/
def State.bit (s : State) (page off i : Nat) : Bool := s.fld page off i i == 1

/-- A counter of a page, wrapping at 2^64. -/
def State.count (s : State) (page off : Nat) : State := s.setReg page off (s.reg page off + 1)

/-- A counter field that saturates at its greatest value. -/
def State.countSat (s : State) (page off hi lo : Nat) : State :=
  let v := s.fld page off hi lo
  if v + 1 < 2 ^ (hi + 1 - lo) then s.setFld page off hi lo (v + 1) else s

/-- Every register of a page at its reset value, but those whose offset `keep` names. -/
def State.dropPage (s : State) (page : Nat) (keep : Nat → Bool) : State :=
  { s with regs := s.regs.filter fun e => !(e.1 / 0x1000 == page) || keep (e.1 % 0x1000) }

/-- Copy `k` = 3t + c. -/
def State.copy (s : State) (k : Nat) : Copy := AMap.get s.copies (fun _ => Copy.off) k

/-- Replace copy `k`. -/
def State.setCopy (s : State) (k : Nat) (c : Copy) : State :=
  { s with copies := AMap.set s.copies (fun _ => Copy.off) k c }

/-- Triad `t`. -/
def State.triad (s : State) (t : Nat) : Triad := AMap.get s.triads (fun _ => Triad.off) t

/-- Replace triad `t`. -/
def State.setTriad (s : State) (t : Nat) (d : Triad) : State :=
  { s with triads := AMap.set s.triads (fun _ => Triad.off) t d }

/-- The schedule engine of region `n`. -/
def State.engine (s : State) (n : Nat) : Engine := AMap.get s.engines (fun _ => Engine.empty) n

/-- Replace the schedule engine of region `n`. -/
def State.setEngine (s : State) (n : Nat) (e : Engine) : State :=
  { s with engines := AMap.set s.engines (fun _ => Engine.empty) n e }

/-- The link schedule engine of quad `q`. -/
def State.lengine (s : State) (q : Nat) : LEngine := AMap.get s.lengines (fun _ => LEngine.empty) q

/-- Replace the link schedule engine of quad `q`. -/
def State.setLengine (s : State) (q : Nat) (e : LEngine) : State :=
  { s with lengines := AMap.set s.lengines (fun _ => LEngine.empty) q e }

/-- TIMEBASE.TIME in ns (R179). -/
def State.now (s : State) : Nat := s.timeB.time

/-- TIME moves on to `due`, where that lies ahead: it never decreases (R179). -/
def State.advance (s : State) (due : Nat) : State :=
  { s with timeB := { s.timeB with time := max s.timeB.time due } }

/-- The triads present (R1, R2). -/
def State.nTriads (s : State) : Nat := 32 * s.dies

/-- The regions present (R1, R2). -/
def State.nRegions (s : State) : Nat := 8 * s.dies

/-- The running copies of a triad by letter. -/
def State.running (s : State) (t : Nat) : List Nat :=
  (List.range 3).filter fun c => decide ((s.copy (3 * t + c)).st = .running)

/-- The leading running copy: highest RETCNT, earliest letter among equals (R449). -/
def State.leader (s : State) (t : Nat) : Option Nat :=
  (s.running t).foldl (fun b c =>
    match b with
    | none => some c
    | some l => if (s.copy (3 * t + l)).retcnt < (s.copy (3 * t + c)).retcnt then some c else some l) none

/-- The class of a fault source (R268). -/
def srcClass (src : Nat) : Nat :=
  if src < 0x140 then (if src % 5 = 3 then 3 else 2)
  else if src < 0x1A0 then
    match (src - 0x140) % 6 with
    | 0 => 1 | 1 => 3 | 2 => 0 | 3 => 2 | 4 => 2 | _ => 3
  else if src < 0x1A8 then
    match (src - 0x1A0) % 4 with
    | 0 => 3 | 1 => 2 | 2 => 3 | _ => 0
  else if src < 0x1B0 then 4
  else if src < 0x1D0 then (if (src - 0x1B0) % 4 = 0 then 1 else 2)
  else if src < 0x1E8 then
    match (src - 0x1D0) % 3 with
    | 0 => 1 | 1 => 2 | _ => 3
  else if src = 0x1E9 then 0
  else if src = 0x1EA then 3
  else 2

/-- The source exists on this device and may fire (R268). -/
def srcPresent (dies src : Nat) : Bool :=
  if src < 0x140 then decide (src < 160 * dies)
  else if src < 0x1A0 then decide (src - 0x140 < 48 * dies)
  else if src < 0x1A8 then decide (src - 0x1A0 < 4 * dies)
  else decide (src < 0x1F2)

/-- The domain of a source is on and not switching (R265); a triad's pairs are clamped from stage 3 of an entry on, and in Nap (R359):
triads, regions, channels, quads, the legacy bank; the fabric
domains for bridges, mesh, crossbar, tags and FABIO ports; AOC0 and AOC1 for a die's controller and sensors; those of AO0 always. -/
def State.srcLive (s : State) (src : Nat) : Bool :=
  let still (d : Nat) : Bool := (AMap.find? s.switching d).isNone
  let dom (i : Nat) : Bool := s.bit 0x0008 0x138 i
  if src < 0x140 then
    let st := s.fld 0x0008 (0x200 + 8 * (src / 5)) 19 16
    decide (st ≠ 0) && decide (st ≠ 1) && decide (st ≠ 6) && decide (st ≠ 8) && decide ((s.triad (src / 5)).entry < 4)
  else if src < 0x1A0 then dom ((src - 0x140) / 6) && still (64 + (src - 0x140) / 6)
  else if src < 0x1A8 then (if 2 ≤ (src - 0x1A0) % 4 then s.aoc else s.fab)
  else if 0x1B0 ≤ src ∧ src < 0x1D0 then dom (16 + (src - 0x1B0) / 4) && still (80 + (src - 0x1B0) / 4)
  else if 0x1D0 ≤ src ∧ src < 0x1E8 then dom (24 + (src - 0x1D0) / 3) && still (88 + (src - 0x1D0) / 3)
  else if 0x1E8 ≤ src ∧ src ≤ 0x1EB then dom 32 && still 96
  else if src = 0x1A8 ∨ src = 0x1AE ∨ src = 0x1EC ∨ src = 0x1EE then s.fabio
  else true

/-- The pairs of a domain that is off or switching are clamped to quiet: what they held is gone (R265). -/
def State.clampPairs (s : State) : State :=
  { s with fcol := { s.fcol with
      waiting := s.fcol.waiting.filter fun e => s.srcLive e.src, pairs := s.fcol.pairs.filter fun e => s.srcLive e.1 } }

/-- A fault source drives its pair to error (R264): the event waits for FCOL; one of the source that already waits takes
it in, marked MERGED; a rail fault is an event of its own (R267). A masked pair reports nothing (R267),
nor does one of a domain that is off or switching (R265). -/
def State.reportEv (s : State) (e : FaultEv) : State :=
  if !srcPresent s.dies e.src || !s.srcLive e.src then s
  else if s.fcol.masked.contains e.src then s
  else if s.fcol.waiting.any fun w => w.src == e.src && w.rail == e.rail then
    { s with fcol := { s.fcol with
        waiting := s.fcol.waiting.map fun w => if w.src = e.src ∧ w.rail = e.rail then { w with merged := true } else w } }
  else { s with fcol := { s.fcol with waiting := s.fcol.waiting ++ [e] } }

/-- Report an event of a source: code, UNIT, DETAIL (R264, R286). -/
def State.report (s : State) (src code unit : Nat) (detail : Word) : State :=
  s.reportEv ⟨src, code, unit, detail, false, false, false⟩

/-- The classes of the address map (R26). -/
inductive Target where
  | tcm | unmapped | sram (n : Nat) | page (p : Nat) | vme | ddr (k : Nat) | peer (n : Nat)
deriving DecidableEq, Repr

/-- The class an address belongs to (R26). -/
def classify (a : Nat) : Target :=
  if a < 0x20000 then .tcm
  else if a < 0x10000000 then .unmapped
  else if a < 0x14000000 then .sram ((a - 0x10000000) / 0x400000)
  else if a < 0x40000000 then .unmapped
  else if a < 0x50000000 then .page ((a - 0x40000000) / 0x1000)
  else if a < 0x80000000 then .unmapped
  else if a < 0x100000000 then .vme
  else if a < 0x10000000000 then .unmapped
  else if a < 0x18000000000 then .ddr ((a - 0x10000000000) / 0x1000000000)
  else if a < 0x800000000000 then .unmapped
  else if a < 0x1000000000000 then .peer ((a - 0x800000000000) / 0x100000000000)
  else .unmapped

/-- The last address of the range of R26 that holds `a`. -/
def rangeEnd (a : Nat) : Nat :=
  if a < 0x20000 then 0x1FFFF
  else if a < 0x10000000 then 0xFFFFFFF
  else if a < 0x14000000 then 0x13FFFFFF
  else if a < 0x40000000 then 0x3FFFFFFF
  else if a < 0x50000000 then 0x4FFFFFFF
  else if a < 0x80000000 then 0x7FFFFFFF
  else if a < 0x100000000 then 0xFFFFFFFF
  else if a < 0x10000000000 then 0xFFFFFFFFFF
  else if a < 0x18000000000 then 0x17FFFFFFFFF
  else if a < 0x800000000000 then 0x7FFFFFFFFFFF
  else if a < 0x1000000000000 then 0x800000000000 + ((a - 0x800000000000) / 0x100000000000 + 1) * 0x100000000000 - 1
  else 2 ^ 64 - 1

/-- Device space: register pages, VME outbound windows, peers (R26). -/
def Target.isDevice : Target → Bool
  | .page _ => true
  | .vme => true
  | .peer _ => true
  | _ => false

end Sys2Proof.Machine
end

