-- ==== Sys2Proof/Machine/ControlRegs.lean ====
section
/-! DEFINITION. The registers of one copy: general registers and their banks, predicates, control registers written
and in force (R99 to R102, R89, R148), the MPU's judgement of a byte (R241 to R247). -/

namespace Sys2Proof.Machine

/-- The reset value of a control register (R159 and the Reset columns of 06_exceptions.md): NIMAX 64, VSTAT.EJCOPY
0b11, every other 0. -/
def crReset (n : Nat) : Word :=
  if n = 0x0005 then 64 else if n = 0x0003 then 0xC00 else 0

/-- A control register as last written (R148). -/
def Copy.crv (c : Copy) (n : Nat) : Word := AMap.get c.cr crReset n

/-- Store a control register. -/
def Copy.setCr (c : Copy) (n : Nat) (v : Word) : Copy := { c with cr := AMap.set c.cr crReset n v }

/-- A control register in force: inside a shadow the oldest value still standing (R89). -/
def Copy.inForce (c : Copy) (n : Nat) : Word :=
  match c.shadow.find? fun e => e.cr == n with
  | some e => e.old
  | none => c.crv n

/-- The level in force, STATUS.LVL (R154): changed only by entry and RETE, never by a shadow. -/
def Copy.level (c : Copy) : Level :=
  match bitsOf (c.crv 0) 1 0 with
  | 0 => .machine
  | 1 => .system
  | _ => .task

/-- The bank of g15 a level uses (R99): 15 Machine, 16 System, 17 Task. -/
def spBank (l : Level) : Nat := 15 + l.code

/-- Where register `r` lives at the level in force. -/
def Copy.slotOf (c : Copy) (r : Reg) : Nat := if r.val = 15 then spBank c.level else r.val

/-- Read a register by its place: 0 to 14, or a bank of g15. -/
def Copy.gAt (c : Copy) (k : Nat) : Word := AMap.get c.g (fun _ => 0) k

/-- Write a register by its place. -/
def Copy.setG (c : Copy) (k : Nat) (v : Word) : Copy := { c with g := AMap.set c.g (fun _ => 0) k v }

/-- The control register that names a bank of g15: SPT, SPS (R101); no register names the Machine bank. -/
def bankCr (k : Nat) : Nat := if k = 17 then 0xC else if k = 16 then 0xD else 0x10000

/-- The stack pointer of the level in force: inside the shadow of an MTC to SPT or SPS the value before it (R89, R99). -/
def Copy.sp (c : Copy) : Word :=
  match c.shadow.find? fun e => e.cr == bankCr (spBank c.level) with
  | some e => e.old
  | none => c.gAt (spBank c.level)

/-- Read a general register (R99). -/
def Copy.rd (c : Copy) (r : Reg) : Word := if r.val = 15 then c.sp else c.gAt r.val

/-- Write the stack pointer of the level in force: the written value holds from then on, and no shadow of an MTC to that bank stays
open (DESIGN CHOICE, assumption 7). -/
def Copy.setSp (c : Copy) (v : Word) : Copy :=
  { c.setG (spBank c.level) v with shadow := c.shadow.filter fun e => e.cr != bankCr (spBank c.level) }

/-- Write a general register (R99). -/
def Copy.wr (c : Copy) (r : Reg) (v : Word) : Copy := if r.val = 15 then c.setSp v else c.setG r.val v

/-- A predicate; p0 reads true (R100). -/
def Copy.p (c : Copy) (i : Pred) : Bool := if i.val = 0 then true else c.preds.getLsbD i.val

/-- The guard holds (R107, R109). -/
def Copy.guardOk (c : Copy) (g : Option Guard) : Bool :=
  match g with
  | none => true
  | some g => c.p g.pred == g.sense

/-- p7 to p0 as a number; bit 0 is 1 (R48, MOVPG). -/
def Copy.predBits (c : Copy) : Nat := c.preds.toNat / 2 * 2 + 1

/-- Write the predicates that `mask` names; bit 0 is never written (R100). -/
def Copy.setPreds (c : Copy) (mask vals : Nat) : Copy :=
  let m : Byte := BitVec.ofNat 8 (mask / 2 * 2)
  { c with preds := (c.preds &&& ~~~ m) ||| (BitVec.ofNat 8 vals &&& m) }

/-- The levels that may read a control register, in level-code order; none where unassigned (R101). -/
def crReadLevels (n : Nat) : Option (List Level) :=
  if n = 0 ∨ n = 1 ∨ n = 2 ∨ n = 0x18 ∨ n = 0x19 ∨ n = 0x1A then some [.machine, .system, .task]
  else if n = 3 ∨ n = 8 ∨ n = 9 ∨ n = 0xC ∨ n = 0x10 ∨ n = 0x11 ∨ n = 0x12 ∨ n = 0x21 then some [.machine, .system]
  else if n = 4 ∨ n = 5 ∨ n = 0xA ∨ n = 0xD ∨ n = 0x20 ∨ (0x40 ≤ n ∧ n ≤ 0x71) then some [.machine]
  else none

/-- The levels that may write a control register (R101); empty where the Write column is a dash. -/
def crWriteLevels (n : Nat) : List Level :=
  if n = 0 ∨ n = 8 ∨ n = 0xC ∨ n = 0x21 then [.machine, .system]
  else if n = 4 ∨ n = 5 ∨ n = 9 ∨ n = 0xA ∨ n = 0xD ∨ n = 0x10 ∨ n = 0x11 ∨ n = 0x12 ∨ n = 0x20 ∨
      (0x40 ≤ n ∧ n ≤ 0x70) then [.machine]
  else []

/-- The writable bits of a control register at a level (register tables of 06_exceptions.md and 09_protection.md);
an MTC to STATUS at System leaves MIE (R155). -/
def crMask (l : Level) (n : Nat) : Word :=
  if n = 0 then (if l = .machine then 0x1C else 0x18)
  else if n = 4 then 0xFFFFFFFF04FF01BE
  else if n = 5 then 0x1FFF
  else if n = 8 ∨ n = 9 ∨ n = 0xA then 0x0000FFFFFFFFFFF8
  else if n = 0x12 then 0xDF1FFFFF
  else if 0x40 ≤ n ∧ n ≤ 0x5F then 0x0000FFFFFFFFFFE0
  else if 0x60 ≤ n ∧ n ≤ 0x6F then 0x8777
  else if n = 0x70 then 3
  else 0xFFFFFFFFFFFFFFFF

/-- The value an MTC leaves in a control register: reserved and read-only bits stay, NIMAX holds at most 4,096
(R148, R168). -/
def crNext (l : Level) (n : Nat) (old v : Word) : Word :=
  if n = 5 then (if v.toNat > 4096 then 4096 else v)
  else (old &&& ~~~ crMask l n) ||| (v &&& crMask l n)

/-- What MFC reads (R148): SPT and SPS are banks of g15, LEVEL and RETCNT show the copy's own state. -/
def Copy.readCr (c : Copy) (n : Nat) : Word :=
  if n = 1 then BitVec.ofNat 64 (c.holdRem * 2 ^ 16 + b2n c.emerg * 4 + c.level.code)
  else if n = 2 then BitVec.ofNat 64 c.retcnt
  else if n = 0xC then c.gAt 17
  else if n = 0xD then c.gAt 16
  else c.crv n

/-- MPU registers and MPUCTL: a write that takes effect makes a generation (R247). -/
def isMpuCr (n : Nat) : Bool := decide (0x40 ≤ n ∧ n ≤ 0x70)

/-- MPU region `i` in force: its enable and its block bounds as byte addresses (R243). -/
def Copy.mpuHolds (c : Copy) (i a : Nat) : Bool :=
  let at' := c.inForce (0x60 + i)
  let base := bitsOf (c.inForce (0x40 + i)) 47 5 * 32
  let lim := bitsOf (c.inForce (0x50 + i)) 47 5 * 32 + 31
  bitsOf at' 15 15 == 1 && decide (base ≤ a) && decide (a ≤ lim)

/-- Region `i`'s permissions at a level, bit 0 R, 1 W, 2 X (MPUATTR). -/
def Copy.mpuPerm (c : Copy) (i : Nat) (l : Level) : Nat :=
  let at' := c.inForce (0x60 + i)
  match l with
  | .machine => bitsOf at' 10 8
  | .system => bitsOf at' 6 4
  | .task => bitsOf at' 2 0

/-- The MPU checks accesses at a level (R245). -/
def Copy.mpuOn (c : Copy) (l : Level) : Bool :=
  bitsOf (c.inForce 0x70) 0 0 == 1 && (decide (l ≠ .machine) || bitsOf (c.inForce 0x70) 1 1 == 1)

/-- The MPU's answer for one byte (R241): allowed, or denied by a region (`true`: an overlap, whose lowest region is
named). `need` holds the permission bits the access kind needs (R242). -/
def Copy.mpuByte (c : Copy) (l : Level) (need a : Nat) : Option (Nat × Bool) :=
  if !c.mpuOn l then none
  else
    match (List.range 16).filter fun i => c.mpuHolds i a with
    | [] => none
    | [i] => if Nat.land (c.mpuPerm i l) need = need then none else some (i, false)
    | i :: _ => some (i, true)

/-- The regions that lie in an overlap (R244), as a mask. -/
def Copy.overlapMask (c : Copy) : Nat :=
  let lo' (i : Nat) := bitsOf (c.inForce (0x40 + i)) 47 5
  let hi' (i : Nat) := bitsOf (c.inForce (0x50 + i)) 47 5
  let live (i : Nat) : Bool := bitsOf (c.inForce (0x60 + i)) 15 15 == 1 && decide (lo' i ≤ hi' i)
  let meet (i j : Nat) : Bool :=
    i != j && live i && live j && decide (lo' i ≤ hi' j) && decide (lo' j ≤ hi' i)
  (List.range 16).foldl (fun m i => if (List.range 16).any (meet i) then m + 2 ^ i else m) 0

/-- A new MPU generation with its overlap check (R244, R247); `ovl` counts the generations that had an overlap. -/
def Copy.newGen (c : Copy) : Copy :=
  let m := c.overlapMask
  let g := bitsOf (c.crv 0x71) 31 0
  { c.setCr 0x71 (BitVec.ofNat 64 (m * 2 ^ 48 + b2n (m != 0) * 2 ^ 32 + (g + 1) % 2 ^ 32)) with
    ovl := if m = 0 then c.ovl else c.ovl + 1 }

/-- One shadow entry ends: an MPU write among them makes a generation (R247). -/
def Copy.endShadow (c : Copy) (e : Shadow) : Copy :=
  let c' : Copy := { c with shadow := c.shadow.erase e }
  if isMpuCr e.cr then c'.newGen else c'

/-- End the shadow entries that `keep` does not hold, in the order of their writes (R89 to R91, R247). -/
def Copy.endShadows (c : Copy) (keep : Shadow → Bool) : Copy :=
  (c.shadow.filter fun e => !keep e).foldl (fun c e => c.endShadow e) c

/-- One instruction of a shadow has retired (R89). -/
def Copy.tickShadow (c : Copy) : Copy :=
  let c' : Copy := { c with shadow := c.shadow.map fun e => { e with left := e.left - 1 } }
  c'.endShadows fun e => e.left != 0

/-- An MTC's write: readable at once, in force after two instructions, whatever register it names (R89, R148). -/
def Copy.mtc (c : Copy) (n : Nat) (v : Word) : Copy :=
  let old := c.readCr n
  let c' :=
    if n = 0xC then c.setG 17 v
    else if n = 0xD then c.setG 16 v
    else c.setCr n (crNext c.level n old v)
  { c' with shadow := c'.shadow ++ [⟨n, old, 2⟩] }

end Sys2Proof.Machine
end

