-- ==== Sys2Proof/Machine/Flags.lean ====
section
/-! DEFINITION. What stands in for flags: FLA has none (R125). Signed overflow and the corners of division
(R128 to R130), the compares and predicate logic (R115, R116, R131). Operands are 64-bit registers; `lo` takes the
low 8w bits (R124). -/

namespace Sys2Proof.Machine

/-- The low 8w bits, zero-extended: lo(x), and zx of it (R124). -/
def lo (w : Width) (x : Word) : Word := BitVec.ofNat 64 (x.toNat % 2 ^ w.bits)

/-- The low 8w bits, sign-extended: sx(x) (05_instruction_set.md, "Reading the descriptions"). -/
def sx (w : Width) (x : Word) : Word :=
  match w with
  | .w1 => (x.truncate 8).signExtend 64
  | .w2 => (x.truncate 16).signExtend 64
  | .w4 => (x.truncate 32).signExtend 64
  | .w8 => x

/-- The low 8w bits as an unsigned number. -/
def uval (w : Width) (x : Word) : Nat := x.toNat % 2 ^ w.bits

/-- The low 8w bits as a signed number. -/
def sval (w : Width) (x : Word) : Int := (sx w x).toInt

/-- A signed result fits in 8w bits (R128, R130). -/
def fitsS (w : Width) (v : Int) : Bool := decide (-(2 : Int) ^ (w.bits - 1) ≤ v) && decide (v < (2 : Int) ^ (w.bits - 1))

/-- An integer result narrowed to 8w bits and zero-extended (R124). -/
def narrow (w : Width) (v : Int) : Word := lo w (BitVec.ofInt 64 v)

/-- All ones in 8w bits. -/
def allOnes (w : Width) : Word := BitVec.ofNat 64 (2 ^ w.bits - 1)

/-- The causes of an arithmetic exception, in FAULTINF.CODE's numbers (R162): 1 divide by zero, 2 signed overflow. -/
abbrev ArithCause := Option Nat

/-- A result and its arithmetic exception. -/
abbrev AluRes := Word × ArithCause

/-- ADD: r := a + b. -/
def resAdd (w : Width) (a b : Word) : AluRes := (lo w (a + b), none)
/-- SUB: r := a - b. -/
def resSub (w : Width) (a b : Word) : AluRes := (lo w (a - b), none)
/-- AND. -/
def resAnd (w : Width) (a b : Word) : AluRes := (lo w (a &&& b), none)
/-- OR. -/
def resOr (w : Width) (a b : Word) : AluRes := (lo w (a ||| b), none)
/-- XOR. -/
def resXor (w : Width) (a b : Word) : AluRes := (lo w (a ^^^ b), none)
/-- ANDN: a and not b. -/
def resAndn (w : Width) (a b : Word) : AluRes := (lo w (a &&& ~~~ b), none)

/-- The shift count n := b mod 8w (R127). -/
def shiftCount (w : Width) (b : Word) : Nat := uval w b % w.bits

/-- SHL: zeros enter (R127). -/
def resShl (w : Width) (a b : Word) : AluRes := (BitVec.ofNat 64 (uval w a * 2 ^ shiftCount w b % 2 ^ w.bits), none)
/-- SHR: zeros enter (R127). -/
def resShr (w : Width) (a b : Word) : AluRes := (BitVec.ofNat 64 (uval w a / 2 ^ shiftCount w b), none)
/-- SAR: bit 8w - 1 of a enters (R127). -/
def resSar (w : Width) (a b : Word) : AluRes := (lo w ((sx w a).sshiftRight (shiftCount w b)), none)
/-- ROL within 8w bits (R127). -/
def resRol (w : Width) (a b : Word) : AluRes :=
  (BitVec.ofNat 64 (uval w a * 2 ^ shiftCount w b % 2 ^ w.bits + uval w a / 2 ^ (w.bits - shiftCount w b)), none)
/-- ROR within 8w bits (R127). -/
def resRor (w : Width) (a b : Word) : AluRes :=
  (BitVec.ofNat 64 (uval w a / 2 ^ shiftCount w b + uval w a * 2 ^ (w.bits - shiftCount w b) % 2 ^ w.bits), none)

/-- MUL: the low 8w bits of the product (R128). -/
def resMul (w : Width) (a b : Word) : AluRes := (BitVec.ofNat 64 (uval w a * uval w b % 2 ^ w.bits), none)
/-- MULH: the high 8w bits of the signed product (R128). -/
def resMulh (w : Width) (a b : Word) : AluRes := (narrow w ((sval w a * sval w b) / (2 : Int) ^ w.bits), none)
/-- MULHU: the high 8w bits of the unsigned product (R128). -/
def resMulhu (w : Width) (a b : Word) : AluRes := (BitVec.ofNat 64 (uval w a * uval w b / 2 ^ w.bits), none)
/-- ADDT: signed overflow raises arith(overflow); the result is written all the same (R130). -/
def resAddt (w : Width) (a b : Word) : AluRes :=
  (lo w (a + b), if fitsS w (sval w a + sval w b) then none else some 2)
/-- SUBT (R130). -/
def resSubt (w : Width) (a b : Word) : AluRes :=
  (lo w (a - b), if fitsS w (sval w a - sval w b) then none else some 2)
/-- MULT: as MUL, with arith(overflow) (R128). -/
def resMult (w : Width) (a b : Word) : AluRes :=
  (BitVec.ofNat 64 (uval w a * uval w b % 2 ^ w.bits), if fitsS w (sval w a * sval w b) then none else some 2)
/-- DIV: signed, truncating toward zero; b = 0 gives all ones and arith(divide by zero); the one overflow gives a
(R129). -/
def resDiv (w : Width) (a b : Word) : AluRes :=
  if uval w b = 0 then (allOnes w, some 1) else (narrow w (Int.tdiv (sval w a) (sval w b)), none)
/-- DIVU (R129). -/
def resDivu (w : Width) (a b : Word) : AluRes :=
  if uval w b = 0 then (allOnes w, some 1) else (BitVec.ofNat 64 (uval w a / uval w b), none)
/-- REM: the remainder carries the sign of a; b = 0 gives a (R129). -/
def resRem (w : Width) (a b : Word) : AluRes :=
  if uval w b = 0 then (lo w a, some 1) else (narrow w (Int.tmod (sval w a) (sval w b)), none)
/-- REMU (R129). -/
def resRemu (w : Width) (a b : Word) : AluRes :=
  if uval w b = 0 then (lo w a, some 1) else (BitVec.ofNat 64 (uval w a % uval w b), none)
/-- MIN, signed (05_instruction_set.md). -/
def resMin (w : Width) (a b : Word) : AluRes := (if sval w a ≤ sval w b then lo w a else lo w b, none)
/-- MAX, signed. -/
def resMax (w : Width) (a b : Word) : AluRes := (if sval w a ≤ sval w b then lo w b else lo w a, none)
/-- MINU, unsigned. -/
def resMinu (w : Width) (a b : Word) : AluRes := (if uval w a ≤ uval w b then lo w a else lo w b, none)
/-- MAXU, unsigned. -/
def resMaxu (w : Width) (a b : Word) : AluRes := (if uval w a ≤ uval w b then lo w b else lo w a, none)

/-- The result of an arithmetic operation (R113, R114). -/
def aluRes (op : AluOp) (w : Width) (a b : Word) : AluRes :=
  match op with
  | .add => resAdd w a b
  | .sub => resSub w a b
  | .and => resAnd w a b
  | .or => resOr w a b
  | .xor => resXor w a b
  | .andn => resAndn w a b
  | .shl => resShl w a b
  | .shr => resShr w a b
  | .sar => resSar w a b
  | .rol => resRol w a b
  | .ror => resRor w a b
  | .mul => resMul w a b
  | .mulh => resMulh w a b
  | .mulhu => resMulhu w a b
  | .addt => resAddt w a b
  | .div => resDiv w a b
  | .divu => resDivu w a b
  | .rem => resRem w a b
  | .remu => resRemu w a b
  | .subt => resSubt w a b
  | .mult => resMult w a b
  | .min => resMin w a b
  | .max => resMax w a b
  | .minu => resMinu w a b
  | .maxu => resMaxu w a b

/-- Leading zeros among the low `n` bits. -/
def leadZeros : Nat → Nat → Nat
  | 0, _ => 0
  | n + 1, v => if v / 2 ^ n % 2 = 1 then 0 else 1 + leadZeros n v

/-- Trailing zeros among `n` bits. -/
def trailZeros : Nat → Nat → Nat
  | 0, _ => 0
  | n + 1, v => if v % 2 = 1 then 0 else 1 + trailZeros n (v / 2)

/-- The 1 bits among `n` bits. -/
def popCount : Nat → Nat → Nat
  | 0, _ => 0
  | n + 1, v => v % 2 + popCount n (v / 2)

/-- The `n` bytes of `v` in reverse order. -/
def byteSwap : Nat → Nat → Nat
  | 0, _ => 0
  | n + 1, v => v % 256 * 256 ^ n + byteSwap n (v / 256)

/-- MOV: zx(lo(gA)). -/
def unMov (w : Width) (a : Word) : Word := lo w a
/-- NEG: zx(lo(0 - gA)). -/
def unNeg (w : Width) (a : Word) : Word := lo w (0 - a)
/-- NOT: zx(lo(not gA)). -/
def unNot (w : Width) (a : Word) : Word := lo w (~~~ a)
/-- SXB, SXH, SXW: bits 7:0, 15:0, 31:0 sign-extended. -/
def unSxb (a : Word) : Word := sx .w1 a
def unSxh (a : Word) : Word := sx .w2 a
def unSxw (a : Word) : Word := sx .w4 a
/-- ZXB, ZXH, ZXW: the same, zero-extended. -/
def unZxb (a : Word) : Word := lo .w1 a
def unZxh (a : Word) : Word := lo .w2 a
def unZxw (a : Word) : Word := lo .w4 a
/-- CLZ: leading zeros of lo(gA), 8w when it is 0. -/
def unClz (w : Width) (a : Word) : Word := BitVec.ofNat 64 (leadZeros w.bits (uval w a))
/-- CTZ: trailing zeros of lo(gA), 8w when it is 0. -/
def unCtz (w : Width) (a : Word) : Word := BitVec.ofNat 64 (trailZeros w.bits (uval w a))
/-- POPC: the 1 bits of lo(gA). -/
def unPopc (w : Width) (a : Word) : Word := BitVec.ofNat 64 (popCount w.bits (uval w a))
/-- BSWAP: the w bytes of lo(gA) reversed. -/
def unBswap (w : Width) (a : Word) : Word := BitVec.ofNat 64 (byteSwap w.bytes (uval w a))

/-- The result of a one-operand operation (R113, table of 05_instruction_set.md). -/
def unRes (op : UnOp) (w : Width) (a : Word) : Word :=
  match op with
  | .mov => unMov w a
  | .neg => unNeg w a
  | .not => unNot w a
  | .sxb => unSxb a
  | .sxh => unSxh a
  | .sxw => unSxw a
  | .zxb => unZxb a
  | .zxh => unZxh a
  | .zxw => unZxw a
  | .clz => unClz w a
  | .ctz => unCtz w a
  | .popc => unPopc w a
  | .bswap => unBswap w a

/-- The conditions of the compares, at 8w bits (R115). -/
def condEq (w : Width) (a b : Word) : Bool := uval w a == uval w b
def condNe (w : Width) (a b : Word) : Bool := uval w a != uval w b
def condLt (w : Width) (a b : Word) : Bool := decide (sval w a < sval w b)
def condLe (w : Width) (a b : Word) : Bool := decide (sval w a ≤ sval w b)
def condGt (w : Width) (a b : Word) : Bool := decide (sval w b < sval w a)
def condGe (w : Width) (a b : Word) : Bool := decide (sval w b ≤ sval w a)
def condLtu (w : Width) (a b : Word) : Bool := decide (uval w a < uval w b)
def condLeu (w : Width) (a b : Word) : Bool := decide (uval w a ≤ uval w b)
def condGtu (w : Width) (a b : Word) : Bool := decide (uval w b < uval w a)
def condGeu (w : Width) (a b : Word) : Bool := decide (uval w b ≤ uval w a)

/-- A compare's result (R115). -/
def cmpRes (op : CmpOp) (w : Width) (a b : Word) : Bool :=
  match op with
  | .eq => condEq w a b
  | .ne => condNe w a b
  | .lt => condLt w a b
  | .le => condLe w a b
  | .gt => condGt w a b
  | .ge => condGe w a b
  | .ltu => condLtu w a b
  | .leu => condLeu w a b
  | .gtu => condGtu w a b
  | .geu => condGeu w a b

/-- TST, TSTI: (a and b) is not zero, at 8w bits (R115). -/
def tstRes (w : Width) (a b : Word) : Bool := uval w (a &&& b) != 0

/-- Predicate logic: pD and pS as they were before the group (R116, R131). -/
def predAnd (d s : Bool) : Bool := d && s
def predOr (d s : Bool) : Bool := d || s
def predXor (d s : Bool) : Bool := d != s
def predAndn (d s : Bool) : Bool := d && !s
def predNot (_ s : Bool) : Bool := !s
def predMov (_ s : Bool) : Bool := s

/-- A predicate operation's result (R116). -/
def predRes (op : PredOp) (d s : Bool) : Bool :=
  match op with
  | .pand => predAnd d s
  | .por => predOr d s
  | .pxor => predXor d s
  | .pandn => predAndn d s
  | .pnot => predNot d s
  | .pmov => predMov d s

end Sys2Proof.Machine
end

