-- ==== Sys2Proof/Machine/Operands.lean ====
section
/-! DEFINITION. Operand forms and per-instruction shape: lengths (R104), displacements and second operands (R105,
R115), issue kinds (R81, R95), what pairs (R86), the registers each instruction writes, the accesses each makes
(R126, R133 to R136, R143), what each retires with (R113 to R116, R137 to R149). -/

namespace Sys2Proof.Machine

/-- A displacement, sign-extended (R105). -/
def dispVal : Disp → Word
  | .d8 v => v.signExtend 64
  | .d32 v => v.signExtend 64

/-- A displacement's bytes. -/
def dispLen : Disp → Nat
  | .d8 _ => 1
  | .d32 _ => 4

/-- The second operand: gB, or the sign-extended immediate (R105, R124). -/
def srcVal (c : Copy) : Src2 → Word
  | .reg b => c.rd b
  | .imm8 v => v.signExtend 64
  | .imm32 v => v.signExtend 64

/-- The operations of map 0xE0, whose opcode takes two bytes (R114). -/
def aluIsLong : AluOp → Bool
  | .div | .divu | .rem | .remu | .subt | .mult | .min | .max | .minu | .maxu => true
  | _ => false

/-- Length without prefixes (R104, R113 to R118). -/
def flaBaseLen (w : Width) : Fla → Nat
  | .alu op _ _ (.reg _) => if aluIsLong op then 4 else 3
  | .alu _ _ _ (.imm8 _) => 3
  | .alu _ _ _ (.imm32 _) => 6
  | .un _ _ _ => 2
  | .movi _ _ => 2 + w.bytes
  | .movis _ _ => 6
  | .movpg _ => 2
  | .ld _ _ o => 2 + dispLen o
  | .lds _ _ o => 2 + dispLen o
  | .ldpc _ _ => 6
  | .st _ _ o => 2 + dispLen o
  | .sti _ o _ => 2 + dispLen o + w.bytes
  | .lea _ _ o => 2 + dispLen o
  | .leapc _ _ => 6
  | .push _ => 2
  | .pop _ => 2
  | .br o => 1 + dispLen o
  | .brr _ => 2
  | .call _ => 5
  | .callr _ => 2
  | .dbnz _ o => 2 + dispLen o
  | .ret => 1
  | .rete => 1
  | .tas _ _ o => 2 + dispLen o
  | .ldrs _ _ => 2
  | .stc _ _ _ => 3
  | .clrres => 1
  | .mfc _ _ => 4
  | .mtc _ _ => 4
  | .hold _ => 3
  | .wait => 1
  | .msync => 1
  | .fence => 1
  | .fenceRule => 2
  | .nop => 1
  | .movs => 1
  | .fills => 1
  | .cmps _ => 2
  | .scans _ _ => 2
  | .crcs => 1
  | .cmp _ _ _ (.reg _) => 3
  | .cmp _ _ _ (.imm8 _) => 4
  | .cmp _ _ _ (.imm32 _) => 7
  | .tst _ _ _ => 3
  | .tsti _ _ _ => 7
  | .plog _ _ _ => 3
  | .pset _ => 3
  | .pclr _ => 3
  | .pnz _ _ => 3
  | .movgp _ => 3

/-- Prefix bytes (R103, R107). -/
def prefixLen (x : Ctx) (rep : Option RepKind) : Nat :=
  b2n x.guard.isSome + b2n (x.w != .w8) + b2n x.split + b2n rep.isSome

/-- The length in bytes, prefixes included (R104, R137). -/
def flaLen (x : Ctx) (rep : Option RepKind) (i : Fla) : Nat := prefixLen x rep + flaBaseLen x.w i

/-- The issue kinds (R81). -/
inductive IssueKind where
  | normal | head | barrier
deriving DecidableEq, Repr

/-- The issue kind of an instruction (R81, R95, R144, R149 to R151). -/
def flaKind (rep : Option RepKind) (i : Fla) : IssueKind :=
  if rep.isSome then .barrier
  else match i with
    | .ld _ _ _ | .lds _ _ _ | .ldpc _ _ | .st _ _ _ | .sti _ _ _ | .push _ | .pop _ | .ldrs _ _ | .mfc _ _
    | .mtc _ _ | .clrres => .head
    | .call _ | .callr _ | .ret | .rete | .tas _ _ _ | .stc _ _ _ | .msync | .fence | .fenceRule | .wait | .hold _
    | .movs | .fills | .cmps _ | .scans _ _ | .crcs => .barrier
    | _ => .normal

/-- The instruction can raise an arithmetic exception (R128 to R130). -/
def canArith : Fla → Bool
  | .alu .addt _ _ _ | .alu .subt _ _ _ | .alu .mult _ _ _ | .alu .div _ _ _ | .alu .divu _ _ _ | .alu .rem _ _ _
  | .alu .remu _ _ _ => true
  | _ => false

/-- May stand in slot A of a pair, but for its guard and prefixes (R86 condition 4). -/
def slotAOk (precise : Bool) : Fla → Bool
  | .br _ | .brr _ | .dbnz _ _ | .call _ | .callr _ | .ret | .rete | .wait | .hold _ | .msync | .fence | .fenceRule
  | .tas _ _ _ | .ldrs _ _ | .stc _ _ _ => false
  | i => !(precise && canArith i)

/-- May stand in slot B (R86 condition 1): ALU, logic, shift, move, compare, predicate logic; no multiply, divide or
remainder. -/
def slotBOk : Fla → Bool
  | .alu op _ _ _ =>
    match op with
    | .mul | .mulh | .mulhu | .mult | .div | .divu | .rem | .remu => false
    | _ => true
  | .un _ _ _ | .movi _ _ | .movis _ _ | .movpg _ | .lea _ _ _ | .leapc _ _ | .nop | .cmp _ _ _ _ | .tst _ _ _
  | .tsti _ _ _ | .plog _ _ _ | .pset _ | .pclr _ | .pnz _ _ | .movgp _ => true
  | _ => false

/-- The guard lets an instruction pair: none, or 0xC0 (R86 conditions 2, 3). -/
def guardPairs (g : Option Guard) : Bool :=
  match g with
  | none => true
  | some g => g.sense && g.pred.val == 0

/-- The general registers an instruction writes (R86 conditions 5, 6). -/
def flaWrites : Fla → List Nat
  | .alu _ d _ _ | .un _ d _ | .movi d _ | .movis d _ | .movpg d | .ld d _ _ | .lds d _ _ | .ldpc d _ | .lea d _ _
  | .leapc d _ | .dbnz d _ | .ldrs d _ | .mfc d _ => [d.val]
  | .push _ | .call _ | .callr _ | .ret | .rete => [15]
  | .pop d => [d.val, 15]
  | .movs | .cmps _ => [2, 3]
  | .fills => [3]
  | .scans _ _ | .crcs => [2]
  | _ => []

/-- The predicates an instruction writes, as a mask. -/
def flaPwrites : Fla → Nat
  | .cmp _ p _ _ | .tst p _ _ | .tsti p _ _ | .plog _ p _ | .pset p | .pclr p | .pnz p _ | .tas p _ _ | .stc p _ _
  | .cmps p | .scans p _ => 2 ^ p.val
  | .movgp _ => 0xFE
  | _ => 0

/-- The general registers that an instruction reads (R86, R87; a repetition reads g1 too, R140). -/
def flaReads : Fla → List Nat
  | .alu _ _ a (.reg b) => [a.val, b.val]
  | .alu _ _ a _ => [a.val]
  | .un _ _ a => [a.val]
  | .lea _ a _ | .ld _ a _ | .lds _ a _ | .sti a _ _ | .tas _ a _ | .ldrs _ a | .mtc a _ => [a.val]
  | .st d a _ | .stc _ d a => [d.val, a.val]
  | .dbnz d _ => [d.val]
  | .push a | .callr a => [a.val, 15]
  | .pop _ | .call _ | .ret | .rete => [15]
  | .movs | .cmps _ => [2, 3]
  | .fills => [0, 3]
  | .scans _ a => [2, a.val]
  | .crcs => [2]
  | .cmp _ _ d (.reg b) => [d.val, b.val]
  | .cmp _ _ d _ => [d.val]
  | .tst _ d a => [d.val, a.val]
  | .tsti _ d _ => [d.val]
  | .pnz _ a => [a.val]
  | .movgp a => [a.val]
  | .brr a => [a.val]
  | _ => []

/-- An instruction whose result is not ready in its issue step: loads, MUL, DIV, REM (R87). -/
def setsScore : Fla → Bool
  | .alu op _ _ _ =>
    match op with
    | .mul | .mulh | .mulhu | .mult | .div | .divu | .rem | .remu => true
    | _ => false
  | .ld _ _ _ | .lds _ _ _ | .ldpc _ _ | .ldrs _ _ | .pop _ => true
  | _ => false

/-- An instruction that may leave the sequence: what follows it is known once it has executed. -/
def mayBranch : Fla → Bool
  | .br _ | .brr _ | .dbnz _ _ => true
  | _ => false

/-- The predicates a slot B instruction reads, as a mask. -/
def flaPreads : Fla → Nat
  | .movpg _ => 0xFE
  | .plog .pnot _ q | .plog .pmov _ q => 2 ^ q.val
  | .plog _ p q => Nat.lor (2 ^ p.val) (2 ^ q.val)
  | _ => 0

/-- The accesses an instruction makes, addresses and store data read before any is performed (R126, R133, R143).
`next` is the address of the next instruction. -/
def flaAcc (x : Ctx) (c : Copy) (next : Word) (i : Fla) : List Acc :=
  let n := x.w.bytes
  match i with
  | .ld _ a o | .lds _ a o => [⟨.load, c.rd a + dispVal o, n, x.split, .lit 0, false⟩]
  | .ldpc _ o => [⟨.load, next + o.signExtend 64, n, x.split, .lit 0, false⟩]
  | .st d a o => [⟨.store, c.rd a + dispVal o, n, x.split, .lit ((lo x.w (c.rd d)).zeroExtend 128), false⟩]
  | .sti a o v => [⟨.store, c.rd a + dispVal o, n, x.split, .lit ((lo x.w v).zeroExtend 128), false⟩]
  | .push a => [⟨.store, c.sp - 8, 8, false, .lit ((c.rd a).zeroExtend 128), true⟩]
  | .pop _ | .ret => [⟨.load, c.sp, 8, false, .lit 0, true⟩]
  | .call _ | .callr _ => [⟨.frame, c.sp - 8, 8, false, .lit (next.zeroExtend 128), true⟩]
  | .rete =>
    if c.emerg then [⟨.load, 0x800, 16, false, .lit 0, true⟩, ⟨.load, 0x810, 8, false, .lit 0, true⟩]
    else [⟨.load, c.sp, 16, false, .lit 0, true⟩]
  | .tas _ a o => [⟨.tas, c.rd a + dispVal o, 1, false, .lit 1, false⟩]
  | .ldrs _ a => [⟨.ldrs, c.rd a, 8, false, .lit 0, false⟩]
  | .stc _ d a => [⟨.stc, c.rd a, 8, false, .lit ((c.rd d).zeroExtend 128), false⟩]
  | .movs => [⟨.load, c.gAt 2, n, false, .lit 0, false⟩, ⟨.store, c.gAt 3, n, false, .prior, false⟩]
  | .fills => [⟨.store, c.gAt 3, n, false, .lit ((lo x.w (c.gAt 0)).zeroExtend 128), false⟩]
  | .cmps _ => [⟨.load, c.gAt 2, n, false, .lit 0, false⟩, ⟨.load, c.gAt 3, n, false, .lit 0, false⟩]
  | .scans _ _ => [⟨.load, c.gAt 2, n, false, .lit 0, false⟩]
  | .crcs => [⟨.load, c.gAt 2, n, false, .lit 0, false⟩, ⟨.crc, c.gAt 2, n, false, .prior, false⟩]
  | _ => []

/-- What else a group's retirement does to its copy. -/
inductive Special where
  | none
  /-- HOLD n with m := min(n, NIMAX) (R149) -/
  | hold (m : Nat)
  /-- ends every shadow (R91) -/
  | msync
  /-- LDRS: reserve a granule (R136) -/
  | reserve (granule : Nat)
  /-- STC, CLRRES: clear the local flag (R136) -/
  | clrRes
  /-- WAIT closes an open window (R149) -/
  | wait
  /-- RETE: the status and return address read; `some g` in the emergency, the Machine g15 restored (R169) -/
  | rete (ra st : Word) (em : Option Word)
deriving DecidableEq, Repr

/-- What a group retires with: register, predicate and control-register writes, a branch target, an arithmetic
exception, the memory fields of its tint (R153). -/
structure Eff where
  dstA : Option (Reg × Word) := none
  dstB : Option (Reg × Word) := none
  sp : Option Word := none
  pmask : Nat := 0
  pvals : Nat := 0
  target : Option Word := none
  arith : ArithCause := none
  crw : Option (Nat × Word) := none
  kind : Nat := 0
  wcode : Nat := 0
  maddr : Word := 0
  mdata : Word := 0
  special : Special := .none
deriving DecidableEq, Repr

/-- The value of the `k`-th access of the group. -/
def valAt (vals : List Quad) (k : Nat) : Word := ((vals[k]?).getD 0).truncate 64

/-- The 64-byte granule of an address (R136). -/
def granule (a : Nat) : Nat := a / 64

/-- A predicate write. -/
def predWrite (p : Pred) (v : Bool) : Nat × Nat := (2 ^ p.val, b2n v * 2 ^ p.val)

/-- The width code with the SPLIT bit (R48 offset 0x15). -/
def wcodeOf (x : Ctx) : Nat := x.w.code + b2n x.split * 8

/-- The effect of one element of a memory or block instruction, or of a whole instruction, from the values its
accesses read (R113 to R116, R132 to R149, R153). -/
def flaEff (x : Ctx) (c : Copy) (next : Word) (vals : List Quad) (i : Fla) : Eff :=
  let w := x.w
  let n : Word := BitVec.ofNat 64 w.bytes
  let v0 := valAt vals 0
  let v1 := valAt vals 1
  let a0 : Word := match flaAcc x c next i with | a :: _ => a.addr | [] => 0
  match i with
  | .alu op d a b =>
    let r := aluRes op w (c.rd a) (srcVal c b)
    { dstA := some (d, r.1), arith := r.2 }
  | .un op d a => { dstA := some (d, unRes op w (c.rd a)) }
  | .movi d v => { dstA := some (d, lo w v) }
  | .movis d v => { dstA := some (d, v.signExtend 64) }
  | .movpg d => { dstA := some (d, BitVec.ofNat 64 c.predBits) }
  | .ld d _ _ | .ldpc d _ => { dstA := some (d, lo w v0), kind := 1, wcode := wcodeOf x, maddr := a0, mdata := lo w v0 }
  | .lds d _ _ => { dstA := some (d, sx w v0), kind := 1, wcode := wcodeOf x, maddr := a0, mdata := lo w v0 }
  | .st d _ _ => { kind := 2, wcode := wcodeOf x, maddr := a0, mdata := lo w (c.rd d) }
  | .sti _ _ v => { kind := 2, wcode := wcodeOf x, maddr := a0, mdata := lo w v }
  | .lea d a o => { dstA := some (d, c.rd a + dispVal o) }
  | .leapc d o => { dstA := some (d, next + o.signExtend 64) }
  | .push a => { sp := some (c.sp - 8), kind := 2, wcode := 3, maddr := a0, mdata := c.rd a }
  | .pop d => { sp := some (c.sp + 8), dstA := some (d, v0), kind := 1, wcode := 3, maddr := a0, mdata := v0 }
  | .br o => { target := some (next + dispVal o) }
  | .brr a => { target := some (c.rd a) }
  | .call o =>
    { sp := some (c.sp - 8), target := some (next + o.signExtend 64), kind := 6, wcode := 3, maddr := a0, mdata := next }
  | .callr a =>
    { sp := some (c.sp - 8), target := some (c.rd a), kind := 6, wcode := 3, maddr := a0, mdata := next }
  | .dbnz d o =>
    let r := c.rd d - 1
    { dstA := some (d, r), target := if r = 0 then none else some (next + dispVal o) }
  | .ret => { sp := some (c.sp + 8), target := some v0, kind := 1, wcode := 3, maddr := a0, mdata := v0 }
  | .rete =>
    let q := (vals[0]?).getD 0
    let ra : Word := q.truncate 64
    let st : Word := (q >>> 64).truncate 64
    let em : Option Word := if c.emerg then some v1 else none
    { sp := if c.emerg then none else some (c.sp + 16), kind := 1, wcode := 3, maddr := a0, mdata := ra,
      special := .rete ra st em }
  | .tas p _ _ =>
    let m := predWrite p (v0.getLsbD 0)
    { pmask := m.1, pvals := m.2, kind := 3, wcode := 0, maddr := a0, mdata := lo .w1 v0 }
  | .ldrs d a =>
    { dstA := some (d, v0), kind := 4, wcode := 3, maddr := a0, mdata := v0,
      special := .reserve (granule (c.rd a).toNat) }
  | .stc p d _ =>
    let m := predWrite p (v0 != 0)
    { pmask := m.1, pvals := m.2, kind := 5, wcode := 3, maddr := a0, mdata := c.rd d, special := .clrRes }
  | .clrres => { special := .clrRes }
  | .mfc d k => { dstA := some (d, c.readCr k.toNat) }
  | .mtc a k => { crw := some (k.toNat, c.rd a) }
  | .hold k => { special := .hold (min k.toNat (bitsOf (c.inForce 5) 12 0)) }
  | .wait => { special := .wait }
  | .msync => { special := .msync }
  | .fence | .fenceRule | .nop => {}
  | .movs =>
    { dstA := some (3, c.gAt 3 + n), dstB := some (2, c.gAt 2 + n), kind := 2, wcode := w.code, maddr := c.gAt 3,
      mdata := lo w v0 }
  | .fills => { dstA := some (3, c.gAt 3 + n), kind := 2, wcode := w.code, maddr := c.gAt 3, mdata := lo w (c.gAt 0) }
  | .cmps p =>
    let m := predWrite p (lo w v0 == lo w v1)
    { dstA := some (3, c.gAt 3 + n), dstB := some (2, c.gAt 2 + n), pmask := m.1, pvals := m.2, kind := 1,
      wcode := w.code, maddr := c.gAt 3, mdata := lo w v1 }
  | .scans p a =>
    let m := predWrite p (lo w v0 == lo w (c.rd a))
    { dstA := some (2, c.gAt 2 + n), pmask := m.1, pvals := m.2, kind := 1, wcode := w.code, maddr := c.gAt 2,
      mdata := lo w v0 }
  | .crcs => { dstA := some (2, c.gAt 2 + n), kind := 7, wcode := w.code, maddr := c.gAt 2, mdata := lo w v0 }
  | .cmp op p d b =>
    let m := predWrite p (cmpRes op w (c.rd d) (srcVal c b))
    { pmask := m.1, pvals := m.2 }
  | .tst p d a =>
    let m := predWrite p (tstRes w (c.rd d) (c.rd a))
    { pmask := m.1, pvals := m.2 }
  | .tsti p d v =>
    let m := predWrite p (tstRes w (c.rd d) (v.signExtend 64))
    { pmask := m.1, pvals := m.2 }
  | .plog op p q =>
    let m := predWrite p (predRes op (c.p p) (c.p q))
    { pmask := m.1, pvals := m.2 }
  | .pset p =>
    let m := predWrite p true
    { pmask := m.1, pvals := m.2 }
  | .pclr p =>
    let m := predWrite p false
    { pmask := m.1, pvals := m.2 }
  | .pnz p a =>
    let m := predWrite p (c.rd a != 0)
    { pmask := m.1, pvals := m.2 }
  | .movgp a => { pmask := 0xFE, pvals := (c.rd a).toNat % 256 }

end Sys2Proof.Machine
end

