-- ==== Sys2Proof/Machine/Checks.lean ====
section
/-! DEFINITION. The checks an instruction meets before it acts: fetch (R43, R246), privilege (R102, R138, R149),
alignment, stack limit, MPU, address range and target class (R126), with the FAULTADR and FAULTINF each fault
writes (R162). -/

namespace Sys2Proof.Machine

/-- A fault to be taken: vector, FAULTADR where it writes one, FAULTINF without its LVLF field (R162). -/
structure FaultInfo where
  vec : Nat
  adr : Option Word
  inf : Word
deriving DecidableEq, Repr

/-- FAULTINF's fields placed (06_exceptions.md, FAULTINF). -/
def faultInf (code : Nat) (offset : Nat := 0) (width : Nat := 0) (split : Bool := false) (half : Nat := 0)
    (kind : Nat := 0) (fetch : Bool := false) (region : Nat := 0) : Word :=
  BitVec.ofNat 64 (code + offset * 2 ^ 8 + width * 2 ^ 12 + b2n split * 2 ^ 15 + half * 2 ^ 16 + kind * 2 ^ 17 +
    b2n fetch * 2 ^ 20 + region * 2 ^ 24)

/-- An illegal opcode at `pc` with reason and offset (R119, R162). -/
def illegal (pc : Word) (reason offset : Nat) : FaultInfo := ⟨1, some pc, faultInf reason offset⟩

/-- A privilege fault of the instruction at `pc` (R162). -/
def privilege (pc : Word) (code : Nat) : FaultInfo := ⟨7, some pc, faultInf code⟩

/-- The fetch condition at one byte of an instruction, `j` bytes from its start (R43, R246). -/
def fetchByte (c : Copy) (pc : Nat) (j : Nat) : Option FaultInfo :=
  if pc + j ≥ 0x20000 then some ⟨3, some (BitVec.ofNat 64 (pc + j)), faultInf 1 (fetch := true)⟩
  else match c.mpuByte c.level 4 (pc + j) with
    | none => none
    | some (r, ov) =>
      some ⟨4, some (BitVec.ofNat 64 (pc + j)),
        faultInf (if ov then 3 else if j = 0 then 1 else 2) (fetch := true) (region := r)⟩

/-- The first fetch condition among `n` bytes at `pc` (R120, R246). -/
def fetchFault (c : Copy) (pc : Word) (n : Nat) : Option FaultInfo :=
  (List.range n).findSome? fun j => fetchByte c pc.toNat j

/-- The privilege fault of an instruction at the level in force, where it has one (R102, R138, R149). -/
def privFault (c : Copy) (i : Fla) : Option FaultInfo :=
  match i with
  | .mfc _ n => if ((crReadLevels n.toNat).getD []).contains c.level then none else some (privilege c.pc 1)
  | .mtc _ n => if (crWriteLevels n.toNat).contains c.level then none else some (privilege c.pc 1)
  | .rete => if c.level = .task then some (privilege c.pc 2) else none
  | .hold _ => if c.level = .task then some (privilege c.pc 3) else none
  | _ => none

/-- The MPU permissions an access needs, bit 0 R, 1 W (R242). -/
def needOf : ReqKind → Nat
  | .load => 1
  | .ldrs => 1
  | .store => 2
  | .stc => 2
  | .frame => 2
  | .tas => 3
  | .crc => 0

/-- The parts of an access as (first byte, bytes): two where a SPLIT access is unaligned (R132). -/
def accParts (addr size : Nat) (split : Bool) : List (Nat × Nat) :=
  if split && decide (addr % size ≠ 0) then
    [(addr, size - addr % size), (addr + (size - addr % size), addr % size)]
  else [(addr, size)]

/-- The width code of an access of `n` bytes (R48); the 16-byte RETE frame read has code 3 (R153). -/
def sizeCode (n : Nat) : Nat := if n = 1 then 0 else if n = 2 then 1 else if n = 4 then 2 else 3

/-- The stack-limit register in force at a level; the emergency stack ends at 0x0840 (R134, R171). -/
def stackLimit (c : Copy) (l : Level) : Nat :=
  match l with
  | .machine => if c.emerg then 0x840 else bitsOf (c.inForce 0xA) 47 3 * 8
  | .system => bitsOf (c.inForce 9) 47 3 * 8
  | .task => bitsOf (c.inForce 8) 47 3 * 8

/-- The MPU's denial of one part of an access: its first byte, then its last, addresses modulo 2^64 (R126 step 3, R105, R241). -/
def mpuPart (c : Copy) (l : Level) (a : Acc) (half : Nat) (first n : Nat) : Option FaultInfo :=
  let one (byte code : Nat) : Option FaultInfo :=
    match c.mpuByte l (needOf a.kind) byte with
    | none => none
    | some (r, ov) =>
      some ⟨4, some (BitVec.ofNat 64 byte),
        faultInf (if ov then 3 else code) 0 (sizeCode a.size) a.split half a.kind.code false r⟩
  match one first 1 with
  | some f => some f
  | none => one ((first + n - 1) % 2 ^ 64) 2

/-- Target classes that do not accept an access (R126 step 5). -/
def classRefuses (a : Acc) : Bool :=
  match a.kind, classify a.addr.toNat with
  | .tas, .page _ => true
  | .tas, .peer _ => true
  | .ldrs, tg => tg.isDevice
  | .stc, tg => tg.isDevice
  | _, .page _ => a.size == 16
  | _, _ => false

/-- The first fault of an access, in the order of R126, checked at level `l` (R245). -/
def accFault (c : Copy) (l : Level) (a : Acc) : Option FaultInfo :=
  let ad := a.addr.toNat
  let wc := sizeCode a.size
  let k := a.kind.code
  let parts := accParts ad a.size a.split
  if a.kind = .crc then none
  else if a.stack && decide (ad % 8 ≠ 0) then some ⟨2, some a.addr, faultInf 3 0 wc a.split 0 k⟩
  else if !a.stack && !a.split && decide (ad % a.size ≠ 0) then some ⟨2, some a.addr, faultInf 1 0 wc a.split 0 k⟩
  else if a.split && Target.isDevice (classify ad) then some ⟨2, some a.addr, faultInf 2 0 wc a.split 0 k⟩
  else if a.stack && decide (a.kind ≠ .load) && decide (ad < stackLimit c l) then
    some ⟨5, some a.addr, faultInf 1 0 wc false 0 k⟩
  else match (parts.zipIdx.findSome? fun e => mpuPart c l a e.2 e.1.1 e.1.2) with
    | some f => some f
    | none =>
      match (parts.zipIdx.find? fun e => decide (e.1.1 + e.1.2 - 1 > rangeEnd ad)) with
      | some e => some ⟨3, some (BitVec.ofNat 64 e.1.1), faultInf 2 0 wc a.split e.2 k⟩
      | none =>
        if classRefuses a then some ⟨3, some a.addr, faultInf 4 0 wc a.split 0 k⟩ else none

/-- The first fault among an instruction's accesses: all are checked before any is performed (R143). -/
def accsFault (c : Copy) (l : Level) (as : List Acc) : Option FaultInfo := as.findSome? (accFault c l)

/-- The error response to an access: bus error code 0x03 (R162), HALF naming the failing part. -/
def busError (a : Nat) (size : Nat) (split : Bool) (half : Nat) (k : ReqKind) : FaultInfo :=
  ⟨3, some (BitVec.ofNat 64 a), faultInf 3 0 (sizeCode size) split half k.code⟩

end Sys2Proof.Machine
end

