-- ==== Sys2Proof/Machine/Fla.lean ====
section
/-! DEFINITION. FLA instruction encoding: the conditions of R119 that an instruction with its prefixes can hold
(R107 to R118), and the decoding of the bytes at the program counter (R103 to R106, R113 to R120). -/

namespace Sys2Proof.Machine

/-- A width prefix is permitted (W of R113 to R118). -/
def flaW : Fla → Bool
  | .alu _ _ _ _ | .movi _ _ | .ld _ _ _ | .lds _ _ _ | .ldpc _ _ | .st _ _ _ | .sti _ _ _ | .movs | .fills | .cmps _
  | .scans _ _ | .crcs | .cmp _ _ _ _ | .tst _ _ _ | .tsti _ _ _ => true
  | .un op _ _ =>
    match op with
    | .mov | .neg | .not | .clz | .ctz | .popc | .bswap => true
    | _ => false
  | _ => false

/-- A repeat prefix is permitted (P of R113 to R118). -/
def flaP : Fla → Bool
  | .push _ | .pop _ | .br _ | .brr _ | .call _ | .callr _ | .dbnz _ _ | .ret | .rete | .tas _ _ _ | .ldrs _ _
  | .stc _ _ _ | .clrres | .mfc _ _ | .mtc _ _ | .hold _ | .wait | .msync | .fence | .fenceRule => false
  | _ => true

/-- A split prefix is permitted (S of R113). -/
def flaS : Fla → Bool
  | .ld _ _ _ | .lds _ _ _ | .ldpc _ _ | .st _ _ _ | .sti _ _ _ => true
  | _ => false

/-- The opcode takes an escape byte and a second byte (R103). -/
def flaEsc : Fla → Bool
  | .alu op _ _ _ => aluIsLong op
  | .cmp _ _ _ _ | .tst _ _ _ | .tsti _ _ _ | .plog _ _ _ | .pset _ | .pclr _ | .pnz _ _ | .movgp _ | .fenceRule => true
  | _ => false

/-- A held condition of R119: the reason, the byte at which it holds, the last byte on which it depends (R120). -/
structure IllCond where
  reason : Nat
  off : Nat
  last : Nat
deriving DecidableEq, Repr

/-- Shifts, whose immediate is a count (R113, R127). -/
def isShift : AluOp → Bool
  | .shl | .shr | .sar | .rol | .ror => true
  | _ => false

/-- One condition, where it holds. -/
def condIf (b : Bool) (reason off last : Nat) : List IllCond := if b then [⟨reason, off, last⟩] else []

/-- The conditions of R119 that the instruction and its prefixes hold (reserved bits that no operand carries aside). -/
def flaIllegals (x : Ctx) (rep : Option RepKind) (i : Fla) : List IllCond :=
  let o := prefixLen x rep
  let at' := if flaEsc i then o + 1 else o
  let wide := x.w != .w8
  let needW := match i with | .lds _ _ _ => true | _ => false
  condIf ((wide && !flaW i) || (needW && !wide) || (rep.isSome && !flaP i) || (x.split && !flaS i) ||
      (rep.isSome && x.split) || (x.split && x.w == .w1)) 6 at' at' ++
  condIf (rep.isSome && (flaWrites i).contains 1) 6 at' (at' + 1) ++
  (match i with
   | .alu op _ _ (.imm8 v) => condIf (isShift op && decide (64 ≤ v.toNat)) 7 (o + 2) (o + 2)
   | .alu op _ _ (.imm32 v) => condIf (isShift op && decide (64 ≤ v.toNat)) 7 (o + 2) (o + 5)
   | .cmp _ p _ _ => condIf (p.val == 0) 2 (o + 1) (o + 1)
   | .tst p _ _ => condIf (p.val == 0) 2 (o + 1) (o + 1)
   | .tsti p _ _ => condIf (p.val == 0) 2 (o + 1) (o + 1)
   | .tas p _ _ => condIf (p.val == 0) 7 (o + 1) (o + 1)
   | .stc p _ _ => condIf (p.val == 0) 7 (o + 2) (o + 2)
   | .cmps p => condIf (p.val == 0) 7 (o + 1) (o + 1)
   | .scans p _ => condIf (p.val == 0) 7 (o + 1) (o + 1)
   | .plog _ p _ => condIf (p.val == 0) 7 (o + 2) (o + 2)
   | .pset p => condIf (p.val == 0) 7 (o + 2) (o + 2)
   | .pclr p => condIf (p.val == 0) 7 (o + 2) (o + 2)
   | .pnz p _ => condIf (p.val == 0) 7 (o + 2) (o + 2)
   | .hold n => condIf (decide (4096 < n.toNat)) 7 (o + 1) (o + 2)
   | .mfc _ n => condIf (crReadLevels n.toNat).isNone 9 (o + 2) (o + 3)
   | .mtc _ n => condIf (crWriteLevels n.toNat).isEmpty 9 (o + 2) (o + 3)
   | _ => []) ++
  condIf (decide (15 < flaLen x rep i)) 8 15 14

/-- The condition at the lowest offset; at one byte an unassigned entry ranks before a conflicting prefix (R120). -/
def firstCond : List IllCond → Option IllCond
  | [] => none
  | c :: cs =>
    match firstCond cs with
    | none => some c
    | some b => if b.off < c.off ∨ (b.off = c.off ∧ c.reason = 6) then some b else some c

/-- The illegal-opcode condition of an instruction, as reason and offset. -/
def flaIllegal (x : Ctx) (rep : Option RepKind) (i : Fla) : Option (Nat × Nat) :=
  (firstCond (flaIllegals x rep i)).map fun c => (c.reason, c.off)

/-- The outcome of decoding the bytes at the program counter (R120). -/
inductive FlaDecode where
  | ok (x : Ctx) (rep : Option RepKind) (i : Fla)
  | illegal (reason off : Nat)
  | fetch (off : Nat)
deriving DecidableEq, Repr

/-- What follows the opcode bytes: how many bytes, reserved fields that are not zero (byte, last byte needed), the
instruction. Offsets count from the first byte after the opcode bytes. -/
structure Shape where
  n : Nat
  bad : List (Nat × Nat)
  ins : Fla

/-- `n` bytes at `j`, little-endian. -/
def leNum (b : Nat → Nat) (j : Nat) : Nat → Nat
  | 0 => 0
  | n + 1 => b j + 256 * leNum b (j + 1) n

/-- A register field. -/
def regOf (n : Nat) : Reg := ⟨n % 16, Nat.mod_lt _ (by decide)⟩

/-- A predicate field. -/
def predOf (n : Nat) : Pred := ⟨n % 8, Nat.mod_lt _ (by decide)⟩

/-- A reserved field at byte `j` that must be zero. -/
def mustZero (j v : Nat) : List (Nat × Nat) := if v = 0 then [] else [(j, j)]

/-- The operation that the low nibble of rows 0x0 to 0x2 selects (R113). -/
def aluOfNibble : Nat → Option AluOp
  | 1 => some .add | 2 => some .sub | 3 => some .and | 4 => some .or | 5 => some .xor | 6 => some .andn
  | 7 => some .shl | 8 => some .shr | 9 => some .sar | 10 => some .rol | 11 => some .ror | 12 => some .mul
  | 13 => some .mulh | 14 => some .mulhu | 15 => some .addt | _ => none

/-- The one-operand operations 0x30, 0x33 to 0x3E (R113). -/
def unOfOpcode : Nat → Option UnOp
  | 0x30 => some .mov | 0x33 => some .neg | 0x34 => some .not | 0x35 => some .sxb | 0x36 => some .sxh
  | 0x37 => some .sxw | 0x38 => some .zxb | 0x39 => some .zxh | 0x3A => some .zxw | 0x3B => some .clz
  | 0x3C => some .ctz | 0x3D => some .popc | 0x3E => some .bswap | _ => none

/-- The primary map, 0x00 to 0xBF (R113). -/
def shapePrimary (w : Width) (op : Nat) (b : Nat → Nat) : Option Shape :=
  let d := regOf (b 0 / 16)
  let a := regOf (b 0)
  let dn := b 0 / 16
  let an := b 0 % 16
  let d8 (j : Nat) : Disp := .d8 (BitVec.ofNat 8 (b j))
  let d32 (j : Nat) : Disp := .d32 (BitVec.ofNat 32 (leNum b j 4))
  let i32 (j : Nat) : BitVec 32 := BitVec.ofNat 32 (leNum b j 4)
  let i16 (j : Nat) : BitVec 16 := BitVec.ofNat 16 (leNum b j 2)
  let iw (j : Nat) : Word := BitVec.ofNat 64 (leNum b j w.bytes)
  let pbit (j v : Nat) := mustZero j (v / 8)
  if op < 0x10 then (aluOfNibble op).map fun o => ⟨2, mustZero 1 (b 1 / 16), .alu o d a (.reg (regOf (b 1)))⟩
  else if op < 0x20 then (aluOfNibble (op - 0x10)).map fun o => ⟨2, [], .alu o d a (.imm8 (BitVec.ofNat 8 (b 1)))⟩
  else if op < 0x30 then (aluOfNibble (op - 0x20)).map fun o => ⟨5, [], .alu o d a (.imm32 (i32 1))⟩
  else match unOfOpcode op with
    | some u => some ⟨1, [], .un u d a⟩
    | none =>
      match op with
      | 0x31 => some ⟨1 + w.bytes, mustZero 0 an, .movi d (iw 1)⟩
      | 0x32 => some ⟨5, mustZero 0 an, .movis d (i32 1)⟩
      | 0x3F => some ⟨1, mustZero 0 an, .movpg d⟩
      | 0x40 => some ⟨2, [], .ld d a (d8 1)⟩
      | 0x41 => some ⟨5, [], .ld d a (d32 1)⟩
      | 0x42 => some ⟨2, [], .lds d a (d8 1)⟩
      | 0x43 => some ⟨5, [], .lds d a (d32 1)⟩
      | 0x44 => some ⟨2, [], .st d a (d8 1)⟩
      | 0x45 => some ⟨5, [], .st d a (d32 1)⟩
      | 0x46 => some ⟨2 + w.bytes, mustZero 0 dn, .sti a (d8 1) (iw 2)⟩
      | 0x47 => some ⟨5 + w.bytes, mustZero 0 dn, .sti a (d32 1) (iw 5)⟩
      | 0x48 => some ⟨2, [], .lea d a (d8 1)⟩
      | 0x49 => some ⟨5, [], .lea d a (d32 1)⟩
      | 0x4A => some ⟨5, mustZero 0 an, .ldpc d (i32 1)⟩
      | 0x4B => some ⟨5, mustZero 0 an, .leapc d (i32 1)⟩
      | 0x4C => some ⟨1, mustZero 0 dn, .push a⟩
      | 0x4D => some ⟨1, mustZero 0 an, .pop d⟩
      | 0x50 => some ⟨1, [], .br (d8 0)⟩
      | 0x51 => some ⟨4, [], .br (d32 0)⟩
      | 0x52 => some ⟨1, mustZero 0 dn, .brr a⟩
      | 0x53 => some ⟨4, [], .call (i32 0)⟩
      | 0x54 => some ⟨1, mustZero 0 dn, .callr a⟩
      | 0x55 => some ⟨2, mustZero 0 an, .dbnz d (d8 1)⟩
      | 0x56 => some ⟨5, mustZero 0 an, .dbnz d (d32 1)⟩
      | 0x60 => some ⟨2, pbit 0 dn, .tas (predOf dn) a (d8 1)⟩
      | 0x61 => some ⟨5, pbit 0 dn, .tas (predOf dn) a (d32 1)⟩
      | 0x62 => some ⟨1, [], .ldrs d a⟩
      | 0x63 => some ⟨2, mustZero 1 (b 1 / 8), .stc (predOf (b 1)) d a⟩
      | 0x64 => some ⟨3, mustZero 0 an, .mfc d (i16 1)⟩
      | 0x65 => some ⟨3, mustZero 0 dn, .mtc a (i16 1)⟩
      | 0x66 => some ⟨2, [], .hold (i16 0)⟩
      | 0x70 => some ⟨0, [], .movs⟩
      | 0x71 => some ⟨0, [], .fills⟩
      | 0x72 => some ⟨1, if dn / 8 + an = 0 then [] else [(0, 0)], .cmps (predOf dn)⟩
      | 0x73 => some ⟨1, pbit 0 dn, .scans (predOf dn) a⟩
      | 0x74 => some ⟨0, [], .crcs⟩
      | _ => none

/-- The one-byte operations 0xF0 to 0xF6 (R118). -/
def shapeOneByte : Nat → Option Fla
  | 0xF0 => some .nop | 0xF1 => some .ret | 0xF2 => some .rete | 0xF3 => some .wait | 0xF4 => some .msync
  | 0xF5 => some .fence | 0xF6 => some .clrres | _ => none

/-- Map 0xE0 (R114). -/
def longAlu : Nat → Option AluOp
  | 0 => some .div | 1 => some .divu | 2 => some .rem | 3 => some .remu | 4 => some .subt | 5 => some .mult
  | 6 => some .min | 7 => some .max | 8 => some .minu | 9 => some .maxu | _ => none

/-- The conditions of map 0xE1 (R115). -/
def cmpOfNat : Nat → CmpOp
  | 0 => .eq | 1 => .ne | 2 => .lt | 3 => .le | 4 => .gt | 5 => .ge | 6 => .ltu | 7 => .leu | 8 => .gtu | _ => .geu

/-- The predicate logic of map 0xE2 (R116). -/
def plogOfNat : Nat → Option PredOp
  | 0 => some .pand | 1 => some .por | 2 => some .pxor | 3 => some .pandn | 4 => some .pnot | 5 => some .pmov
  | _ => none

/-- The secondary maps 0xE0 to 0xEF (R114 to R117). -/
def shapeEscape (esc op : Nat) (b : Nat → Nat) : Option Shape :=
  let d := regOf (b 0 / 16)
  let a := regOf (b 0)
  let dn := b 0 / 16
  let an := b 0 % 16
  let i32 (j : Nat) : BitVec 32 := BitVec.ofNat 32 (leNum b j 4)
  if esc = 0xE0 then
    (longAlu op).map fun o => ⟨2, mustZero 1 (b 1 / 16), .alu o d a (.reg (regOf (b 1)))⟩
  else if esc = 0xE1 then
    let f := op / 8
    let p := predOf op
    if op % 8 = 0 then none
    else if f < 10 then some ⟨1, [], .cmp (cmpOfNat f) p d (.reg a)⟩
    else if f < 20 then some ⟨2, mustZero 0 an, .cmp (cmpOfNat (f - 10)) p d (.imm8 (BitVec.ofNat 8 (b 1)))⟩
    else if f < 30 then some ⟨5, mustZero 0 an, .cmp (cmpOfNat (f - 20)) p d (.imm32 (i32 1))⟩
    else if f = 30 then some ⟨1, [], .tst p d a⟩
    else some ⟨5, mustZero 0 an, .tsti p d (i32 1)⟩
  else if esc = 0xE2 then
    let pd := mustZero 0 (dn / 8)
    let pa := mustZero 0 (dn / 8 + an / 8)
    match plogOfNat op with
    | some o => some ⟨1, pa, .plog o (predOf dn) (predOf an)⟩
    | none =>
      match op with
      | 6 => some ⟨1, mustZero 0 (dn / 8 + an), .pset (predOf dn)⟩
      | 7 => some ⟨1, mustZero 0 (dn / 8 + an), .pclr (predOf dn)⟩
      | 8 => some ⟨1, pd, .pnz (predOf dn) a⟩
      | 9 => some ⟨1, mustZero 0 dn, .movgp a⟩
      | _ => none
  else if esc = 0xE3 then (if op = 0 then some ⟨0, [], .fenceRule⟩ else none)
  else none

/-- The prefixes read so far: the context and the repeat prefix, and how many bytes. -/
structure Prefixes where
  x : Ctx
  rep : Option RepKind
  wide : Bool
  n : Nat

/-- Decode the instruction whose prefixes are `q`, from its opcode byte (R103 to R120). `get` answers none at a byte
that holds a fetch condition. -/
def decodeBody (q : Prefixes) (get : Nat → Option Nat) : FlaDecode :=
  let o := q.n
  match get o with
  | none => .fetch o
  | some op =>
    let finish (hdr : Nat) (sh : Shape) : FlaDecode :=
      let total := hdr + sh.n
      let f := ((List.range (min total 15)).find? fun j => (get j).isNone).getD 16
      let raw := sh.bad.map fun e => (⟨7, hdr + e.1, hdr + e.2⟩ : IllCond)
      let held := (raw ++ flaIllegals q.x q.rep sh.ins).filter fun c => decide (c.last < f)
      match firstCond held with
      | some c => if c.off < f then .illegal c.reason c.off else .fetch f
      | none => if f < 16 then .fetch f else .ok q.x q.rep sh.ins
    let after (hdr : Nat) (j : Nat) : Nat := (get (hdr + j)).getD 0
    if op = 0x00 ∨ op = 0xFF then .illegal 0x0B o
    else if 0xF0 ≤ op then
      match shapeOneByte op with
      | some i => finish (o + 1) ⟨0, [], i⟩
      | none => .illegal 3 o
    else if 0xE0 ≤ op then
      match get (o + 1) with
      | none => .fetch (o + 1)
      | some op2 =>
        match shapeEscape op op2 (after (o + 2)) with
        | some sh => finish (o + 2) sh
        | none => .illegal 2 (o + 1)
    else
      match shapePrimary q.x.w op (after (o + 1)) with
      | some sh => finish (o + 1) sh
      | none => .illegal 1 o

/-- Read the prefixes (R107, R108), then the rest. A fifth prefix byte that is one of 0xD6 to 0xDF is both an excess prefix (0x05)
and a reserved byte (0x04, R119); the spec states no precedence between the two at one byte, and 0x04 is raised (DESIGN CHOICE,
assumption 59). -/
def decodePrefixes (get : Nat → Option Nat) : Nat → Prefixes → FlaDecode
  | 0, q => .illegal 5 q.n
  | fuel + 1, q =>
    match get q.n with
    | none => .fetch q.n
    | some b =>
      if b < 0xC0 ∨ 0xDF < b then decodeBody q get
      else if 0xD6 ≤ b then .illegal 4 q.n
      else if b = 0xD5 then
        if q.x.split then .illegal 5 q.n
        else decodePrefixes get fuel { q with x := { q.x with split := true }, n := q.n + 1 }
      else if 0xD2 ≤ b then
        if q.wide then .illegal 5 q.n
        else
          let w : Width := if b = 0xD2 then .w1 else if b = 0xD3 then .w2 else .w4
          decodePrefixes get fuel { q with x := { q.x with w := w }, wide := true, n := q.n + 1 }
      else if 0xD0 ≤ b then
        if q.rep.isSome then .illegal 5 q.n
        else
          let r : RepKind := if b = 0xD0 then .rep else .repu
          decodePrefixes get fuel { q with x := { q.x with repAt := q.n }, rep := some r, n := q.n + 1 }
      else if q.x.guard.isSome then .illegal 5 q.n
      else
        decodePrefixes get fuel
          { q with x := { q.x with guard := some ⟨decide (b < 0xC8), predOf (b % 8)⟩ }, n := q.n + 1 }

/-- Decode the bytes that `get` gives, for copy `c` of triad `t` (R103 to R120). -/
def decodeFla (t c : Nat) (get : Nat → Option Nat) : FlaDecode :=
  decodePrefixes get 5 ⟨{ t := t, c := c }, none, false, 0⟩

end Sys2Proof.Machine
end

