-- ==== Sys2Proof/Machine/Tables.lean ====
section
/-! DEFINITION. Reading the schedule tables from their banks (R201 to R210, R451): a bank is a list of 8-byte words
by word number, little-endian. -/

namespace Sys2Proof.Machine

/-- The word at word number `k` of a bank. -/
def bankWord (b : AMap Word) (k : Nat) : Word := AMap.get b (fun _ => 0) k

/-- The byte at offset `o` of a bank. -/
def bankByte (b : AMap Word) (o : Nat) : Nat := (bankWord b (o / 8)).toNat / 2 ^ (8 * (o % 8)) % 256

/-- `n` bytes at offset `o`, little-endian. -/
def bankNum (b : AMap Word) : Nat → Nat → Nat
  | _, 0 => 0
  | o, n + 1 => bankByte b o + 256 * bankNum b (o + 1) n

/-- The next multiple of 8. -/
def up8 (n : Nat) : Nat := (n + 7) / 8 * 8

/-- The header's GEN, FRAMELEN in ticks, CYCLE, PRECISE flag (R201). -/
def hdrGen (b : AMap Word) : Word := bankWord b 1
def hdrFrameLen (b : AMap Word) : Nat := bankNum b 0x10 4
def hdrCycle (b : AMap Word) : Nat := bankNum b 0x14 2
def hdrRcal (b : AMap Word) : Nat := bankNum b 0x16 2
def hdrPrecise (b : AMap Word) : Bool := bankByte b 0x06 % 2 == 1
def hdrNsect (b : AMap Word) : Nat := bankNum b 0x1A 2

/-- A directory entry (R201). -/
structure DirEnt where
  kind : Nat
  inst : Nat
  off : Nat
  len : Nat
  rsv : Nat
deriving DecidableEq, Repr

/-- Directory entry `i`. -/
def dirEnt (b : AMap Word) (i : Nat) : DirEnt :=
  let o := 0x40 + 16 * i
  ⟨bankNum b o 2, bankNum b (o + 2) 2, bankNum b (o + 4) 4, bankNum b (o + 8) 4, bankNum b (o + 12) 4⟩

/-- The whole directory. -/
def directory (b : AMap Word) : List DirEnt := (List.range (hdrNsect b)).map (dirEnt b)

/-- The sections that lie in the device bank: TRIADS, RESERVE, OPENRR, AGREE (R451). -/
def isDeviceKind (k : Nat) : Bool := k == 1 || k == 2 || k == 3 || k == 4

/-- Where each device section lies in the device bank, in directory order (R451). -/
def deviceOffsets : List DirEnt → Nat → List (DirEnt × Nat)
  | [], _ => []
  | d :: ds, o =>
    if isDeviceKind d.kind then (d, o) :: deviceOffsets ds (up8 (o + d.len)) else deviceOffsets ds o

/-- The device-bank offset and length of the section of a kind. -/
def deviceSection (b : AMap Word) (kind : Nat) : Option (Nat × Nat) :=
  ((deviceOffsets (directory b) (up8 (0x40 + 16 * hdrNsect b))).find? fun e => e.1.kind == kind).map
    fun e => (e.2, e.1.len)

/-- The level TRIADS declares for a triad and its PAUSE flag (R202). -/
def triadPl (b : AMap Word) (t : Nat) : Nat :=
  match deviceSection b 1 with
  | some (o, _) => bankByte b (o + 4 * t)
  | none => 0
def triadPause (b : AMap Word) (t : Nat) : Bool :=
  match deviceSection b 1 with
  | some (o, _) => bankByte b (o + 4 * t + 1) % 2 == 1
  | none => false

/-- The subheader of a section (R203). -/
def secNslot (b : AMap Word) : Nat := bankNum b 0 2
def secNjob (b : AMap Word) : Nat := bankNum b 2 2
def secNmove (b : AMap Word) : Nat := bankNum b 4 2
def secNcommit (b : AMap Word) : Nat := bankNum b 6 2
def secPoolLen (b : AMap Word) : Nat := bankNum b 8 4

/-- Where the arrays of a SCHED section begin (R203). -/
def jobsAt (b : AMap Word) : Nat := 16 + 16 * secNslot b
def movesAt (b : AMap Word) : Nat := jobsAt b + 64 * secNjob b
def commitsAt (b : AMap Word) : Nat := movesAt b + 32 * secNmove b
def poolAt (b : AMap Word) : Nat := commitsAt b + 32 * secNcommit b
/-- Where an LSCHED section's lane records begin. -/
def lanesAt (b : AMap Word) : Nat := 16 + 16 * secNslot b

/-- A slot record (R203). -/
structure SlotRec where
  time : Nat
  action : Nat
  rsv : Nat
  period : Nat
  phase : Nat
  index : Nat
  dur : Nat
deriving DecidableEq, Repr

def slotRec (b : AMap Word) (i : Nat) : SlotRec :=
  let o := 16 + 16 * i
  ⟨bankNum b o 4, bankByte b (o + 4), bankByte b (o + 5), bankNum b (o + 6) 2, bankNum b (o + 8) 2,
   bankNum b (o + 10) 2, bankNum b (o + 12) 4⟩

/-- A job record (R204). -/
structure JobRec where
  job : Nat
  triad : Nat
  spare : Nat
  flags : Nat
  entry : Nat
  inBase : Nat
  outBase : Nat
  inLen : Nat
  outLen : Nat
  deadline : Nat
  spareLat : Nat
  spareDl : Nat
  moveFirst : Nat
  moveCnt : Nat
  spareIn : Nat
  spareOut : Nat
deriving DecidableEq, Repr

def jobRec (b : AMap Word) (i : Nat) : JobRec :=
  let o := jobsAt b + 64 * i
  { job := bankNum b o 2, triad := bankByte b (o + 2), spare := bankByte b (o + 3), flags := bankByte b (o + 4),
    entry := bankNum b (o + 5) 3, inBase := bankNum b (o + 8) 8, outBase := bankNum b (o + 0x10) 8,
    inLen := bankNum b (o + 0x18) 4, outLen := bankNum b (o + 0x1C) 4, deadline := bankNum b (o + 0x20) 4,
    spareLat := bankNum b (o + 0x24) 4, spareDl := bankNum b (o + 0x28) 4, moveFirst := bankNum b (o + 0x2C) 2,
    moveCnt := bankNum b (o + 0x2E) 2, spareIn := bankNum b (o + 0x30) 8, spareOut := bankNum b (o + 0x38) 8 }

/-- The job record is a SPARECOPY (R204). -/
def JobRec.isCopy (j : JobRec) : Bool := j.flags % 2 == 1

/-- A move record (R205). -/
structure MoveRec where
  src : Nat
  dst : Nat
  len : Nat
  width : Nat
  flags : Nat
  job : Nat
  rerunDur : Nat
  rsv : Nat
deriving DecidableEq, Repr

def moveRec (b : AMap Word) (i : Nat) : MoveRec :=
  let o := movesAt b + 32 * i
  ⟨bankNum b o 8, bankNum b (o + 8) 8, bankNum b (o + 0x10) 4, bankByte b (o + 0x14), bankByte b (o + 0x15),
   bankNum b (o + 0x16) 2, bankNum b (o + 0x18) 4, bankNum b (o + 0x1C) 4⟩

/-- REQUIRED (R192). -/
def MoveRec.required (m : MoveRec) : Bool := m.flags % 2 == 1

/-- A commit record (R206). -/
structure CommitRec where
  job : Nat
  flags : Nat
  group : Nat
  off : Nat
  len : Nat
  fallback : Nat
  dst : Nat
  width : Nat
  rsv1 : Nat
  key : Nat
  rsv2 : Nat
deriving DecidableEq, Repr

def commitRec (b : AMap Word) (i : Nat) : CommitRec :=
  let o := commitsAt b + 32 * i
  ⟨bankNum b o 2, bankByte b (o + 2), bankByte b (o + 3), bankNum b (o + 4) 4, bankNum b (o + 8) 4,
   bankNum b (o + 0xC) 4, bankNum b (o + 0x10) 8, bankByte b (o + 0x18), bankByte b (o + 0x19), bankNum b (o + 0x1A) 2,
   bankNum b (o + 0x1C) 4⟩

/-- The flags of a commit record (R206). -/
def CommitRec.agree (c : CommitRec) : Bool := bitAt c.flags 0
def CommitRec.quorum (c : CommitRec) : Bool := bitAt c.flags 1
def CommitRec.noFallback (c : CommitRec) : Bool := bitAt c.flags 2
def CommitRec.voteOnly (c : CommitRec) : Bool := bitAt c.flags 3
def CommitRec.isCopy (c : CommitRec) : Bool := bitAt c.flags 4

/-- A lane record (R207). -/
structure LaneRec where
  buf : Nat
  len : Nat
  lane : Nat
  vc : Nat
  dir : Nat
  rsv : Nat
deriving DecidableEq, Repr

def laneRec (b : AMap Word) (i : Nat) : LaneRec :=
  let o := lanesAt b + 16 * i
  ⟨bankNum b o 8, bankNum b (o + 8) 4, bankByte b (o + 0xC), bankByte b (o + 0xD), bankByte b (o + 0xE),
   bankByte b (o + 0xF)⟩

/-- A group record of AGREE (R210): group, DEVMASK, QMIN, VC. -/
def groupRec (b : AMap Word) (g : Nat) : Option (Nat × Nat × Nat) :=
  match deviceSection b 4 with
  | none => none
  | some (o, len) =>
    ((List.range (len / 16)).find? fun i => bankByte b (o + 16 * i) == g).map fun i =>
      (bankByte b (o + 16 * i + 1), bankByte b (o + 16 * i + 2), bankByte b (o + 16 * i + 3))

/-- The slots of a section. -/
def slots (b : AMap Word) : List SlotRec := (List.range (secNslot b)).map (slotRec b)

/-- The job records of a section with their record numbers. -/
def jobs (b : AMap Word) : List (Nat × JobRec) := (List.range (secNjob b)).map fun i => (i, jobRec b i)

/-- A run of an engine by job record number. -/
def Engine.run (e : Engine) (j : Nat) : Run := AMap.get e.runs (fun _ => Run.idle) j

/-- Replace a run. -/
def Engine.setRun (e : Engine) (j : Nat) (r : Run) : Engine := { e with runs := AMap.set e.runs (fun _ => Run.idle) j r }

/-- The engine's region of the job's spare triad (R194). -/
def spareEngine (j : JobRec) : Option Nat := if j.spare = 0xFF then none else some (j.spare / 4)

/-- Engine `n` runs its table (SSTAT.STATE 0b001). -/
def State.engineRuns (s : State) (n : Nat) : Bool := (s.engine n).state == 1

/-- Send a notice to another engine (R194). -/
def State.notify (s : State) (kind : NoticeKind) (dst job : Nat) : State :=
  { s with notices := s.notices ++ [⟨kind, dst, job, s.timeB.frameNo⟩] }

/-- A run of engine `n` is lost with a cause: counted; a primary run's loss goes to the spare engine (R187, R189,
R194). -/
def State.loseRun (s : State) (n j : Nat) (cause : Nat) : State :=
  let e := s.engine n
  let jr := jobRec e.active j
  let s := s.setEngine n (e.setRun j { e.run j with state := if jr.isCopy then 10 else 4, cause := cause })
  let s := s.count (pgSched n) 0x148
  if jr.isCopy then s
  else match spareEngine jr with
    | some m => s.notify .loss m jr.job
    | none => s

/-- The triad on which a job record of an engine runs: the primary, or the spare in a SPARECOPY record (R204). -/
def JobRec.runsOn (j : JobRec) : Nat := if j.isCopy then j.spare else j.triad

/-- The open run of a triad in its region's engine. -/
def Engine.openOf (e : Engine) (t : Nat) : Option OpenRun := AMap.find? e.opens t

/-- Close the open run of a triad. -/
def Engine.closeRun (e : Engine) (t : Nat) : Engine := { e with opens := AMap.drop t e.opens }

/-- A triad stop reported to its region's engine: the open run is closed; still released, it is lost (R69, R187). A
stopped engine changes nothing (R452). -/
def State.engineTriadStop (s : State) (t : Nat) : State :=
  let n := t / 4
  if !s.engineRuns n then s
  else
    match (s.engine n).openOf t with
    | none => s
    | some o =>
      let s := s.setEngine n ((s.engine n).closeRun t)
      if o.lost then s else s.loseRun n o.rec' 2

/-- A job record of a running engine names the triad as TRIAD or SPARE: the active table releases jobs to it
(R447). -/
def State.tableUses (s : State) (t : Nat) : Bool :=
  s.timeB.actGen != 0 && (List.range s.nRegions).any fun n =>
    s.engineRuns n && (jobs (s.engine n).active).any fun e => e.2.triad == t || e.2.spare == t

/-- The OPENRR numbers (R209). -/
def openRr (b : AMap Word) : List Nat :=
  match deviceSection b 3 with
  | none => []
  | some (o, len) => (List.range (len / 2)).map fun i => bankNum b (o + 2 * i) 2

/-- The open-plane initiators (R209). -/
def isOpenIid (iid : Nat) : Bool :=
  (decide (0x200 ≤ iid) && decide (iid ≤ 0x203)) || iid == 0x210 || iid == 0x211 || (decide (0x220 ≤ iid) && decide (iid ≤ 0x241))

/-- The initiator receives slots: it is none of the open plane, or the active table's OPENRR names it; without an active table the
order of all is that of R209 (R33, R209). -/
def State.openSlot (s : State) (iid : Nat) : Bool :=
  !isOpenIid iid || s.timeB.actGen == 0 || (openRr s.timeB.active).contains iid

/-- The tags of an initiator: the first and how many (R35, R38, R208, R209); none for the untagged messages of CRC units. -/
def tagRange (iid : Nat) : Option (Nat × Nat) :=
  if iid < 0x40 then some (24 * iid, 24)
  else if 0x100 ≤ iid ∧ iid < 0x110 then some (0x4000 + 1024 * (iid - 0x100), 1024)
  else if 0x120 ≤ iid ∧ iid < 0x128 then some (0x1000 + 256 * (iid - 0x120), 256)
  else if 0x130 ≤ iid ∧ iid < 0x138 then some (0x0800 + 256 * (iid - 0x130), 256)
  else if iid = 0x200 ∨ iid = 0x201 then some (0x1800, 256)
  else if iid = 0x202 ∨ iid = 0x203 then some (0x1900, 256)
  else if iid = 0x210 ∨ iid = 0x211 then some (0x1A00 + 256 * (iid - 0x210), 256)
  else if 0x220 ≤ iid ∧ iid < 0x230 then some (0x2000 + 512 * (iid - 0x220), 512)
  else if iid = 0x240 then some (0x1C00, 256)
  else if iid = 0x241 ∨ iid = 0x250 then some (0x0600, 64)
  else if 0x300 ≤ iid ∧ iid < 0x308 then some (0x8000, 16384)
  else none

/-- A tag that no source issues (R35). -/
def tagReserved (tag : Nat) : Bool :=
  (decide (0x0640 ≤ tag) && decide (tag < 0x0800)) || (decide (0x1D00 ≤ tag) && decide (tag < 0x2000)) || decide (0xC000 ≤ tag)

end Sys2Proof.Machine
end

