-- ==== Sys2Proof/Machine/Log.lean ====
section
/-! DEFINITION. FCOL's records (R286, R287), advisory records (R278), page errors (R423), armed fault injections
(R288, R289), fabric tags (R35, R36). -/

namespace Sys2Proof.Machine

/-- FCOL counts per class: CNTC0 to CNTC4. -/
def fcolCnt (cls : Nat) : Nat := 0x190 + 8 * cls

/-- Write the next log record (R286), count its class, keep the first of class 3 or 4 or with RAIL (R287). -/
def State.writeRecord (s : State) (source cls action flags unit code : Nat) (detail : Word) : State :=
  let f := s.fcol
  let rec' : LogRec :=
    { w0 := BitVec.ofNat 64 s.now
      w1 := BitVec.ofNat 64 (source + cls * 2 ^ 16 + action * 2 ^ 24 + flags * 2 ^ 32 + unit * 2 ^ 40 + code * 2 ^ 48)
      w2 := detail
      w3 := BitVec.ofNat 64 (f.head % 2 ^ 32 + (f.gen.toNat % 2 ^ 32) * 2 ^ 32) }
  let first := match f.first with
    | some r => some r
    | none => if 3 ≤ cls ∨ bitAt flags 0 then some rec' else none
  let s' : State := { s with fcol := { f with
    log := AMap.put (f.head % 256) rec' f.log, head := (f.head + 1) % 2 ^ 32, first := first } }
  s'.count pgFcol (fcolCnt cls)

/-- An advisory record of a page: logged, without reaction (R278). -/
def State.advisory (s : State) (page code unit : Nat) : State :=
  s.writeRecord (0x8000 + page) 0 0 4 unit code 0

/-- DETAIL of a page's error: the retirement index for the pages of a triad, that of its leading copy or of the page's own copy
(R286); otherwise 0. -/
def State.pageDetail (s : State) (k : PageKind) (i : Nat) : Word :=
  match k with
  | .core => BitVec.ofNat 64 (s.copy i).retcnt
  | .triad => BitVec.ofNat 64 (match s.leader i with
    | some c => (s.copy (3 * i + c)).retcnt
    | none => 0)
  | _ => 0

/-- A page error: the flag of PGERR, LASTIID, LASTOFF, and the page's fault source (R423). -/
def State.pageError (s : State) (page iid off flag : Nat) : State :=
  match pageKind s.dies page with
  | none => s
  | some (k, i) =>
    let old := s.reg page 0x20
    let s := s.setReg page 0x20
      (withBits (withBits (withBits old flag flag 1) 63 48 iid) 43 32 off)
    let e := pageErrSource k i
    s.report e.1 e.2 (fabUnit k i) (s.pageDetail k i)

/-- PGINJ's fields of a page: ARM, KIND, TARGET, COUNT. -/
def State.injKind (s : State) (page : Nat) : Nat := s.fld page 0x28 6 4
def State.injTarget (s : State) (page : Nat) : Nat := s.fld page 0x28 15 8
def State.injCount (s : State) (page : Nat) : Nat := max 1 (s.fld page 0x28 23 16)

/-- An injection of kind `k` for a target stands armed (R288). -/
def State.injArmed (s : State) (page k target : Nat) : Bool :=
  s.bit page 0x28 0 && s.injKind page == k && s.injTarget page == target

/-- `n` checks of the armed injection have been made; at COUNT it is done (R288). -/
def State.injUse (s : State) (page n : Nat) : State :=
  let made := AMap.get s.injMade (fun _ => 0) page + n
  if made < s.injCount page then { s with injMade := AMap.set s.injMade (fun _ => 0) page made }
  else
    let s := s.setReg page 0x28 (withBits (withBits (s.reg page 0x28) 0 0 0) 7 7 1)
    { s with injMade := AMap.drop page s.injMade }

/-- The ECC injection a checker meets: inverted check bit 0, or bits 0 and 1 (R288). -/
def State.injEcc (s : State) (page target : Nat) : Inject :=
  let left := s.injCount page - AMap.get s.injMade (fun _ => 0) page
  if s.injArmed page 1 target then ⟨1, left⟩
  else if s.injArmed page 2 target then ⟨3, left⟩
  else ⟨0, 0⟩

/-- The checks of an ECC injection that a read has used. -/
def State.injEccUse (s : State) (page : Nat) (i : Inject) (n : Nat) : State :=
  if i.left = 0 then s else s.injUse page (min n i.left)

/-- A report that an injection may have caused (R288: such an event carries INJECTED). -/
def State.reportInj (s : State) (src code unit : Nat) (detail : Word) (inj : Bool) : State :=
  s.reportEv ⟨src, code, unit, detail, false, inj, false⟩

/-- The outstanding tags of a source's range. -/
def State.tagsIn (s : State) (base n : Nat) : List TagUse :=
  s.tags.filter fun e => decide (base ≤ e.tag) && decide (e.tag < base + n)

/-- The lowest free tag of a source's range (R35, R36: none free, the source stalls). -/
def State.freeTag (s : State) (base n : Nat) : Option Nat :=
  (List.range n).findSome? fun m => if s.tags.any fun e => e.tag == base + m then none else some (base + m)

/-- Issue under a tag. -/
def State.takeTag (s : State) (tag : Nat) (o : Origin) : State := { s with tags := s.tags ++ [⟨tag, s.now, o, none⟩] }

/-- Issue under a tag an access that the firewall of region `n` judges, under the generation in force (R252). -/
def State.takeTagFw (s : State) (tag : Nat) (o : Origin) (n : Nat) : State :=
  { s with tags := s.tags ++ [⟨tag, s.now, o, some (n, AMap.get s.pggen (fun _ => 0) (pgFwall n))⟩] }

/-- Retire a tag. -/
def State.dropTag (s : State) (tag : Nat) : State := { s with tags := s.tags.filter fun e => e.tag != tag }

end Sys2Proof.Machine
end

