-- ==== Sys2Proof/Machine/Retire.lean ====
section
/-! DEFINITION. The retirement of a group in one copy: register writes, RETCNT, the pc, the shadow, the HOLD window,
the tint record, a pending arithmetic exception (R39, R41, R48, R80, R86, R89, R140, R149, R169, R174, R175). -/

namespace Sys2Proof.Machine

/-- STATUS.PRECISE in force. -/
def Copy.precise (c : Copy) : Bool := bitsOf (c.inForce 0) 4 4 == 1

/-- The register writes of a group: the stack pointer, then the destinations, then the predicates (R133). -/
def Copy.writes (c : Copy) (e : Eff) : Copy :=
  let c := match e.sp with
    | some v => c.setSp v
    | none => c
  let c := match e.dstA with
    | some (r, v) => c.wr r v
    | none => c
  let c := match e.dstB with
    | some (r, v) => c.wr r v
    | none => c
  c.setPreds e.pmask e.pvals

/-- The status a RETE restores: reserved bits clear, MIE kept when leaving System (R169). -/
def reteStatus (c : Copy) (st : Word) : Word :=
  let st := st &&& 0x1F
  if c.level = .system then withBits st 2 2 (bitsOf (c.crv 0) 2 2) else st

/-- The level encoding of a status word is one RETE may enter: not 0b11, not more privileged than the level in
force (R169). -/
def reteOk (c : Copy) (st : Word) : Bool := decide (bitsOf st 1 0 ≠ 3) && decide (c.level.code ≤ bitsOf st 1 0)

/-- RETE's effect on status and nesting, and on g15 in the emergency (R169); privilege and STATUS change at once (R90). -/
def Copy.rete (c : Copy) (ra st : Word) (em : Option Word) : Copy :=
  let st' := reteStatus c st
  let c := match em with
    | some m => { c.setG 15 m with emerg := false }
    | none => c
  let nest := bitsOf (c.crv 3) 31 16
  let c := (c.setCr 0 st').setCr 3 (withBits (c.crv 3) 31 16 (nest - 1))
  { c with holdRem := 0, pc := ra, shadow := c.shadow.filter fun e => e.cr != 0 }

/-- The rest of a group's effect on its copy. `held` is the HOLD count before the group. -/
def Copy.special (c : Copy) (held : Nat) : Special → Copy
  | .none => c
  | .hold m => { c with holdRem := if held = 0 then m else min (held - 1) m }
  | .msync => { c.endShadows fun _ => false with win := none, queue := [] }
  | .reserve g => { c with localFlag := true, resv := some g }
  | .clrRes => { c with localFlag := false, resv := none }
  | .wait => { c with holdRem := 0 }
  | .rete ra st em => c.rete ra st em

/-- An arithmetic exception of the group with index `k` at `addr`: pending from the next index, or a further one
(R174, R175). -/
def Copy.raiseArith (c : Copy) (k : Nat) (addr : Word) (exact : Bool) : ArithCause → Copy
  | none => c
  | some code =>
    match c.pend with
    | some p => { c with pend := some { p with more := true } }
    | none => { c with pend := some ⟨k, addr, code, false, exact⟩ }

/-- The tint record of a group (R48): `c` the copy after the group. The stack pointer that PUSH, POP, CALL, CALLR, RET and RETE write
is no destination of slot A or B: R153 lists none for them (DESIGN CHOICE, assumption 54). -/
def tintOf (k : Nat) (addr : Word) (e : Eff) (c : Copy) : TintRec where
  index := k
  addr := addr
  dstA := match e.dstA with | some (r, _) => r.val | none => 0xFF
  dstB := match e.dstB with | some (r, _) => r.val | none => 0xFF
  pmask := e.pmask
  preds := c.predBits
  kind := e.kind
  wcode := e.wcode
  crn := match e.special, e.crw with | .rete _ _ _, _ => 0 | _, some (n, _) => n | _, none => 0xFFFF
  valA := match e.dstA with | some (_, v) => v | none => 0
  valB := match e.dstB with | some (_, v) => v | none => 0
  maddr := e.maddr
  mdata := e.mdata
  crval := match e.special, e.crw with | .rete _ _ _, _ => c.crv 0 | _, some (n, _) => c.readCr n | _, none => 0

/-- How a group ends: the next address, whether it was an element that leaves more to do, whether under REPU, and
what may pair behind it. -/
structure GroupEnd where
  addr : Word
  next : Word
  element : Bool := false
  more : Bool := false
  repu : Bool := false
  slotA : Option SlotA := none
deriving DecidableEq, Repr

/-- A group retires (R39, R48, R80): writes, index, pc, shadow, window, tint, arithmetic exception. -/
def Copy.retire (c : Copy) (now : Nat) (g : GroupEnd) (e : Eff) : Copy :=
  let k := c.retcnt
  let held := c.holdRem
  let exact := c.precise
  let c1 := c.writes e
  let c2 := if g.element then c1.setG 1 (c1.gAt 1 - 1) else c1
  let c3 := { c2.tickShadow with
    retcnt := k + 1, lastRetire := now, afterEntry := false, hold := .none, holdRem := held - 1,
    repu := g.more && g.repu, slotA := g.slotA, xStall := 0, pc := if g.more then g.addr else e.target.getD g.next }
  let c4 := match e.crw with
    | some (n, v) => c3.mtc n v
    | none => c3
  let c5 := (c4.special held e.special).raiseArith k g.addr exact e.arith
  { c5 with tints := c5.tints ++ [tintOf k g.addr e c5] }

/-- A slot B instruction joins the group that retired last: no new index, the tint completed, the shadow one
instruction on (R86, R89). Its destination takes the slot B fields behind an unprefixed MOVS or CMPS too, whose g2 R153 puts there
(DESIGN CHOICE, assumption 55). -/
def Copy.joinB (c : Copy) (next : Word) (addr : Word) (e : Eff) : Copy :=
  let exact := c.precise
  let c1 := (c.writes e).tickShadow
  let c2 := { c1 with pc := e.target.getD next, slotA := none }
  let c3 := c2.raiseArith (c.retcnt - 1) addr exact e.arith
  let upd (r : TintRec) : TintRec :=
    { r with
      dstB := match e.dstA with | some (d, _) => d.val | none => r.dstB
      valB := match e.dstA with | some (_, v) => v | none => r.valB
      pmask := Nat.lor r.pmask e.pmask
      preds := c3.predBits }
  { c3 with tints := c3.tints.map fun r => if r.index = c.retcnt - 1 then upd r else r }

/-- The instruction enters slot B of the group that has just retired (R86). One that lies right behind a slot A store into its own
bytes joins in its stored form: R85 discards the window, and the bytes alone decide the pairing (R40; DESIGN CHOICE, assumption 56). -/
def pairsB (c : Copy) (x : Ctx) (rep : Option RepKind) (i : Fla) : Bool :=
  match c.slotA with
  | none => false
  | some a =>
    let len := flaLen x rep i
    let stop := c.pc.toNat + len
    slotBOk i && rep.isNone && !x.split && guardPairs x.guard && decide (c.pc = a.next) &&
    decide (stop ≤ a.addr.toNat / 16 * 16 + 32) && decide (stop ≤ 0x20000) &&
    (flaReads i).all (fun r => !a.writes.contains r) && (flaWrites i).all (fun r => !a.writes.contains r) &&
    decide (Nat.land (Nat.lor (flaPreads i) (flaPwrites i)) a.pwrites = 0) && (fetchFault c c.pc len).isNone

/-- What a retiring slot A leaves for the pairing rules (R86 conditions 3, 4). -/
def slotAOf (c : Copy) (x : Ctx) (rep : Option RepKind) (i : Fla) (next : Word) : Option SlotA :=
  if rep.isNone && guardPairs x.guard && slotAOk c.precise i then some ⟨c.pc, next, flaWrites i, flaPwrites i⟩ else none

end Sys2Proof.Machine
end

