-- ==== Sys2Proof/Machine/Triad.lean ====
section
/-! DEFINITION. The triad as a whole: which copies run and lead, stamping (R62, R64), the waits of R44, R45 and R92,
low-power entry abandonment (R360), stopping (R68, R69), ejection (R71, R79), divergence (R50, R51, R448). -/

namespace Sys2Proof.Machine

/-- The copies a mode runs (TMODE). -/
def modeLetters : Nat → List Nat
  | 1 => [0, 1, 2]
  | 2 => [0, 1]
  | 3 => [0, 2]
  | 4 => [1, 2]
  | _ => []

/-- The Pair mode of the two copies other than `x`. -/
def pairWithout (x : Nat) : Nat := if x = 2 then 2 else if x = 1 then 3 else 4

/-- Triple or a Pair: copies run. -/
def isRunMode (m : Nat) : Bool := decide (1 ≤ m) && decide (m ≤ 4)

/-- Offset of TPWR[t] on the PWR page. -/
def tpwr (t : Nat) : Nat := 0x200 + 8 * t

/-- TPWR[t].STATE (R353): 0 Off, 1 Powering on, 2 Run, 3 Level change, 4 Entering, 5 Doze, 6 Nap, 7 Waking, 8 Powering
off. -/
def State.powerState (s : State) (t : Nat) : Nat := s.fld pgPwr (tpwr t) 19 16
def State.setPowerState (s : State) (t v : Nat) : State := s.setFld pgPwr (tpwr t) 19 16 v

/-- TCFG's fields. -/
def State.stagger (s : State) (t : Nat) : Nat := s.fld (pgTriad t) 0x108 5 0
def State.skew (s : State) (t : Nat) : Nat := s.fld (pgTriad t) 0x108 26 16
def State.lagLimit (s : State) (t : Nat) : Nat := s.fld (pgTriad t) 0x108 47 32

/-- A fabric request goes through the replay buffer: a load or LDRS of region SRAM or DDR4 (R52). -/
def reqIsReplay (r : MemReq) : Bool :=
  (r.kind == .load || r.kind == .ldrs) && !(classify r.addr).isDevice

/-- The gate entry of an access of an index. -/
def Triad.gateAt (d : Triad) (k o : Nat) : Option Gate := d.gate.find? fun e => e.index == k && e.ord == o

/-- The replay entry of an access of an index. -/
def Triad.replayAt (d : Triad) (k o : Nat) : Option Replay := d.replay.find? fun e => e.index == k && e.ord == o

/-- A mordanting pause, waited for at any boundary (PAUSEAT 1, `at1`) or under way, holds a copy at B (R74). -/
def Triad.pauses (d : Triad) (at1 : Bool) (c : Copy) : Bool :=
  let atB := decide (d.boundary ≤ c.retcnt)
  match d.mord with
  | .pause => atB
  | .awaiting => at1 && atB
  | _ => false

/-- A copy stopped at its index and waiting for another in the sense of R92 and R152: at the gate before release, at a
full replay buffer, in WAIT or a FENCE, at a pause boundary. -/
def Triad.waits (d : Triad) (at1 : Bool) (c : Copy) : Bool :=
  match c.hold with
  | .none => d.pauses at1 c
  | .wait _ => true
  | .fence _ _ => true
  | .mem r w _ =>
    if reqIsReplay r then (d.replayAt c.retcnt w.ord).isNone && decide (64 ≤ d.replay.length)
    else match d.gateAt c.retcnt w.ord with
      | some e => !e.released
      | none => true

/-- The copy a running copy follows in the stagger: the running letter before it (R44). -/
def State.predecessor (s : State) (t c : Nat) : Option Nat :=
  ((s.running t).filter fun x => decide (x < c)).getLast?

/-- The stagger holds the copy's next retirement (R44, R92). -/
def State.staggerHeld (s : State) (t c : Nat) : Bool :=
  let k := (s.copy (3 * t + c)).retcnt
  match s.predecessor t c with
  | none => false
  | some x =>
    decide ((s.copy (3 * t + x)).retcnt ≤ k + s.stagger t) &&
    !((s.running t).any fun y =>
        y != c && (s.triad t).waits (s.bit (pgTriad t) 0x178 16) (s.copy (3 * t + y)) && decide (k < (s.copy (3 * t + y)).retcnt))

/-- The skew window holds the copy's next retirement (R45). -/
def State.skewHeld (s : State) (t c : Nat) : Bool :=
  let k := (s.copy (3 * t + c)).retcnt
  decide (s.skew t ≤ k) &&
  (s.running t).any fun y => y != c && decide ((s.copy (3 * t + y)).retcnt ≤ k - s.skew t)

/-- A mordanting pause, waited for at any boundary or under way, holds the copy at B (R74). -/
def State.pauseHeld (s : State) (t c : Nat) : Bool := (s.triad t).pauses (s.bit (pgTriad t) 0x178 16) (s.copy (3 * t + c))

/-- Doze, Nap or a low-power entry holds the copies at W (R353, R359). -/
def State.sleepHeld (s : State) (t : Nat) : Bool :=
  (s.triad t).entry != 0 || s.powerState t == 5 || s.powerState t == 6

/-- The copy may not retire its next group yet. -/
def State.held (s : State) (t c : Nat) : Bool :=
  s.staggerHeld t c || s.skewHeld t c || s.pauseHeld t c || s.sleepHeld t

/-- A stamp with an index above the copy's own exists (R63, R150, R166). -/
def State.stampAbove (s : State) (t c : Nat) : Bool :=
  (s.triad t).stamps.any fun e =>
    decide ((s.copy (3 * t + c)).retcnt < e.d) && !bitAt e.taken c

/-- A WAIT retires (R149, R150). -/
def Copy.retireWait (c : Copy) (now len : Nat) : Copy :=
  c.retire now { addr := c.pc, next := c.pc + BitVec.ofNat 64 len } { special := .wait }

/-- Every copy stalled in WAIT that has a later stamp and is not held retires the WAIT (R63). -/
def State.wakeWaits (s : State) (t : Nat) : State :=
  (List.range 3).foldl (fun s c =>
    let k := 3 * t + c
    let p := s.copy k
    match p.hold with
    | .wait len =>
      if p.st = .running ∧ s.stampAbove t c = true ∧ s.held t c = false then s.setCopy k (p.retireWait s.now len) else s
    | _ => s) s

/-- A low-power entry past its last abort point: stage 3 of a triad entry, device stage 3 of a device entry (R359,
R363). -/
def State.pastAbort (s : State) (t : Nat) : Bool :=
  let e := (s.triad t).entry
  if s.fld pgPwr 0x108 1 0 = 1 ∧ s.fld pgPwr 0x108 37 32 = t then decide (7 ≤ e) else decide (3 ≤ e)

/-- A device entry has begun its own stages: the service rings and MGMT accept no new work (R363). -/
def State.deviceEntering (s : State) : Bool :=
  s.fld pgPwr 0x108 1 0 == 1 && decide (5 ≤ (s.triad (s.fld pgPwr 0x108 37 32)).entry)

/-- An entry is abandoned with its cause: the stages done are undone (R360). -/
def State.abandonEntry (s : State) (t cause : Nat) : State :=
  if (s.triad t).entry = 0 then s
  else
    let device := s.fld pgPwr 0x108 1 0 = 1 ∧ s.fld pgPwr 0x108 37 32 = t
    let s := s.setTriad t { s.triad t with entry := 0 }
    let s := s.setPowerState t 2
    let s := s.setFld pgPwr (tpwr t) 26 24 (s.fld pgPwr (tpwr t) 2 0)
    let s := s.setFld pgPwr 0x108 19 16 cause
    let s := if device then s.setFld pgPwr 0x108 1 0 0 else s
    if cause = 1 then s.setFld pgPwr 0x110 31 0 ((s.fld pgPwr 0x110 31 0 + 1) % 2 ^ 32) else s

/-- A wake from Doze or Nap: Waking, back at PL (R362). -/
def State.wakeTriad (s : State) (t : Nat) : State :=
  if s.powerState t = 5 ∨ s.powerState t = 6 then
    let s := s.setPowerState t 7
    s.setFld pgPwr (tpwr t) 26 24 (s.fld pgPwr (tpwr t) 2 0)
  else s

/-- The delivery index of a request accepted now (R62). -/
def State.deliveryIndex (s : State) (t l : Nat) : Nat :=
  let c := s.copy (3 * t + l)
  if (s.triad t).mord = .pause then (s.triad t).boundary + 4
  else match c.hold with
    | .wait _ => c.retcnt + 1
    | _ => c.retcnt + 4

/-- The interrupt unit accepts a request for vector `v`: stamped (R62), or merged into a pending stamp of the vector
(R64); a wake for a triad that sleeps or is entering (R359 to R362). With no running copy it is dropped. -/
def State.accept (s : State) (t v : Nat) (job : Option (Word × Word × Word)) (ej : Nat) : State :=
  match s.leader t with
  | none => s
  | some l =>
    let d := s.triad t
    let s1 :=
      if d.stamps.any fun e => e.vec == v then s
      else s.setTriad t { d with stamps := d.stamps ++ [⟨v, s.deliveryIndex t l, 0, job, ej⟩] }
    let s2 := if d.entry ≠ 0 ∧ s1.pastAbort t = false then s1.abandonEntry t 1 else s1
    (s2.wakeTriad t).wakeWaits t

/-- An interrupt request without payload. -/
def State.irq (s : State) (t v : Nat) : State := s.accept t v none 3

/-- PEVT bit `i` becomes set: vector 23 where enabled (R370). -/
def State.pwrEvent (s : State) (i : Nat) : State :=
  if s.bit pgPwr 0x150 i then s
  else
    let s := s.setFld pgPwr 0x150 i i 1
    if s.bit pgPwr 0x148 i then s.irq (s.fld pgPwr 0x148 21 16) 23 else s

/-- PWR reports a refused domain request: PSTAT.REFUSE and PEVT bit 2 (R15, R350). -/
def State.pwrRefused (s : State) : State := (s.setFld pgPwr 0x108 20 20 1).pwrEvent 2

/-- A stamp stays pending until every running copy has taken it (R64). -/
def State.cleanStamps (s : State) (t : Nat) : State :=
  let d := s.triad t
  s.setTriad t { d with stamps := d.stamps.filter fun e => (s.running t).any fun c => !bitAt e.taken c }

/-- A copy leaves Running with its state kept for diagnosis (R68). -/
def Copy.leave (c : Copy) (st : CopyState) : Copy := { c with st := st, hold := .none, slotA := none, queue := [], win := none, xStall := 0 }

/-- A copy starts at the start vector with RETCNT 0 (R39, R159). -/
def Copy.start (c : Copy) (now : Nat) : Copy :=
  { Copy.off with
    st := .running, tcm := c.tcm, writeBack := c.writeBack, scrubPos := c.scrubPos, lastRetire := now }

/-- DIVIDX, DIVINFO and DIVTA to DIVTC, where VALID is 0 (DIVINFO.VALID). -/
def State.recordDiv (s : State) (t k copy kind : Nat) : State :=
  let p := pgTriad t
  if s.bit p 0x138 8 then s
  else
    let tint (c : Nat) : Word :=
      match (s.triad t).voter.find? fun e => e.1 == c && e.2.1 == k with
      | some e => e.2.2
      | none => 0
    let s1 := s.setReg p 0x130 (BitVec.ofNat 64 k)
    let s2 := s1.setReg p 0x138 (BitVec.ofNat 64 (copy + kind * 4 + 256))
    ((s2.setReg p 0x140 (tint 0)).setReg p 0x148 (tint 1)).setReg p 0x150 (tint 2)

/-- Mordanting is abandoned with a cause; the returning copy is left Out (R77, MORDSTAT.ABANDON). -/
def State.abandonMord (s : State) (t cause : Nat) : State :=
  let d := s.triad t
  match d.mord with
  | .rounds | .awaiting | .pause =>
    let s := s.setTriad t { d with mord := .abandoned, dirty := [] }
    let s := s.setFld (pgTriad t) 0x170 55 53 cause
    let k := 3 * t + d.mordCopy
    if (s.copy k).st = .mordanting then s.setCopy k ((s.copy k).leave .out) else s
  | _ => s

/-- The triad stops: its copies Out, what is unreleased discarded, stamps cleared, mordanting abandoned, its runs
reported lost (R68, R69). -/
def State.stopTriad (s : State) (t cause mordCause : Nat) : State :=
  let s := s.abandonMord t mordCause
  let s := (List.range 3).foldl (fun s c =>
    let p := s.copy (3 * t + c)
    if p.st = .running then s.setCopy (3 * t + c) (p.leave .out) else s) s
  let s := s.setTriad t { s.triad t with mode := 5, stamps := [], voter := [], injTints := [], replay := [], gate := [], entry := 0 }
  let s := s.setFld (pgTriad t) 0x110 19 17 cause
  let ps := s.powerState t
  let s := if 3 < ps then (s.setPowerState t 2).setFld pgPwr (tpwr t) 26 24 (s.fld pgPwr (tpwr t) 2 0) else s
  s.engineTriadStop t

/-- The triad stop source reports (R268, R448), DETAIL the index. -/
def State.reportStop (s : State) (t code unit k : Nat) (inj : Bool) : State :=
  s.reportInj (5 * t + 3) code unit (BitVec.ofNat 64 k) inj

/-- No majority in Triple (R68). -/
def State.noMajority (s : State) (t k kind : Nat) (inj : Bool) : State :=
  ((s.recordDiv t k 3 kind).stopTriad t 1 1).reportStop t 1 0xFF k inj

/-- A disagreement in Pair (R68, R448). -/
def State.disagree (s : State) (t k kind : Nat) (inj : Bool) : State :=
  ((s.recordDiv t k 3 kind).stopTriad t 2 1).reportStop t 2 0xFF k inj

/-- The three recorded re-admissions of a copy all lie within the last RADMWIN seconds (R79). -/
def State.radmFull (s : State) (t c : Nat) : Bool :=
  let rec' := AMap.get (s.triad t).readm (fun _ => []) c
  let win := s.fld (pgTriad t) 0x180 16 0 * 1000000000
  decide (3 ≤ rec'.length) && rec'.all fun x => decide (s.now ≤ x + win)

/-- Retire a copy for good: RADM.RETIRED (R79). -/
def State.retireCopy (s : State) (t c : Nat) : State :=
  let s := s.setCopy (3 * t + c) ((s.copy (3 * t + c)).leave .retired)
  s.setFld (pgTriad t) 0x180 (48 + c) (48 + c) 1

/-- What ejection does to the gate: requests of X withdrawn, an entry with none left discarded (R71 steps 3, 4). -/
def ejectGate (x : Nat) (es : List Gate) : List Gate :=
  (es.map fun e => if e.released then e else { e with reqs := e.reqs.filter fun r => r.1 != x }).filter fun e =>
    e.released || !e.reqs.isEmpty

/-- The halves of a request (R59): address, bytes, bytes before it. A SPLIT access that crosses a multiple of its width has
two; a 16-byte access to a peer goes as two of 8 bytes, the widths a REQ has (R302). -/
def reqParts (r : MemReq) : List (Nat × Nat × Nat) :=
  let m := r.size - r.addr % r.size
  let peer := match classify r.addr with | .peer _ => true | _ => false
  if r.split = true ∧ m < r.size then [(r.addr, m, 0), (r.addr + m, r.size - m, m)]
  else if r.size = 16 ∧ peer = true then [(r.addr, 8, 0), (r.addr + 8, 8, 8)]
  else [(r.addr, r.size, 0)]

/-- A new replay entry on the request of copies (R53), checked under MPU generation `gen`. -/
def newReplay (k o : Nat) (r : MemReq) (same : List Nat) (gen : Nat) : Replay :=
  { index := k, ord := o, req := r, issuer := same.headD 3, same := same, todo := List.range (reqParts r).length, tags := []
    acc := 0, bad := none, result := none, got := [], dissent := none, orphan := false, gen := gen }

/-- What ejection of X does to the replay buffer: an entry waited for only by X is freed; one issued on X's request stays as
the request of no copy, unless a remaining copy's request differs, which is then issued as a new load (R71 step 5). -/
def ejectReplay (x : Nat) (rest : List Nat) (es : List Replay) : List Replay :=
  (es.filter fun e => rest.any fun c => !e.got.contains c).map fun e =>
    let same := e.same.filter fun c => c != x
    match e.dissent with
    | some (c, r) =>
      if c = x then { e with dissent := none, same := same, orphan := e.orphan || decide (e.issuer = x) }
      else if e.issuer = x ∧ same = [] then newReplay e.index e.ord r [c] e.gen
      else { e with same := same, orphan := e.orphan || decide (e.issuer = x) }
    | none => { e with same := same, orphan := e.orphan || decide (e.issuer = x) }

/-- A pair has a disagreement standing in its voter or gate (R50 Pair, R55): the index and the kind. -/
def State.pairConflict (s : State) (t : Nat) : Option (Nat × Nat) :=
  match s.running t with
  | [x, y] =>
    let d := s.triad t
    match d.voter.findSome? fun e => if e.1 = x then
        d.voter.findSome? fun f => if f.1 = y ∧ f.2.1 = e.2.1 ∧ f.2.2 ≠ e.2.2 then some (e.2.1, 0) else none
      else none with
    | some r => some r
    | none =>
      match d.gate.findSome? fun e => match e.reqs with
        | [a, b] => if e.released = false ∧ a.2 ≠ b.2 then some (e.index, 1) else none
        | _ => none with
      | some r => some r
      | none => d.replay.findSome? fun e => if e.dissent.isSome && !e.orphan then some (e.index, 2) else none
  | _ => none

/-- Copy X is ejected in Triple at index `k` (R71, R79), then the pair that stays is compared. -/
def State.eject (s : State) (t x k kind : Nat) (inj : Bool) : State :=
  let full := s.radmFull t x
  let s := s.recordDiv t k x kind
  let s := s.setCopy (3 * t + x) ((s.copy (3 * t + x)).leave .ejected)
  let rest := s.running t
  let d := s.triad t
  let s := s.setTriad t { d with
    mode := pairWithout x
    gate := ejectGate x d.gate
    replay := ejectReplay x rest d.replay
    voter := d.voter.filter fun e => e.1 != x
    injTints := d.injTints.filter fun e => e.1 != x
    afterEject := if d.afterEject.contains x then d.afterEject else d.afterEject ++ [x] }
  let s := s.cleanStamps t
  let s := s.reportInj (5 * t + x) (kind + 1) x (BitVec.ofNat 64 k) inj
  let s := if full then s.retireCopy t x else s
  match s.pairConflict t with
  | some (j, kd) => s.disagree t j kd inj
  | none => s.accept t 9 none x

/-- A copy-local fault or lag of a running copy (R51, R448): ejection in Triple, a stop in Pair. -/
def State.copyFault (s : State) (t x k kind : Nat) (inj : Bool) : State :=
  match s.running t with
  | [_, _, _] => s.eject t x k kind inj
  | [_, _] => ((s.recordDiv t k x kind).stopTriad t 3 1).reportStop t 3 x k inj
  | _ => s

/-- A fault inside the emergency handler of a copy (R173): the triad stops. -/
def State.emergencyStop (s : State) (t c k : Nat) : State :=
  (s.stopTriad t 4 1).reportStop t 4 c k false

end Sys2Proof.Machine
end

