-- ==== Sys2Proof/Machine/Tcm.lean ====
section
/-! DEFINITION. A copy's own TCM: reads through the check code with correction, write-back and divergence (R223, R51),
stores with their effect on the prefetch window, the reservation and mordanting's dirty blocks (R61, R85, R136, R74). -/

namespace Sys2Proof.Machine

/-- A corrected TCM word: TCMERR, the write-back owed, the region's corrected-memory source (R223). -/
def State.tcmFixed (s : State) (t c wa : Nat) (inj : Bool) : State :=
  let k := 3 * t + c
  let p := s.copy k
  let s := s.setCopy k { p with writeBack := if p.writeBack.contains wa then p.writeBack else p.writeBack ++ [wa] }
  let s := s.countSat (pgCore k) 0x148 47 32
  let s := s.setReg (pgCore k) 0x148 (withBits (withBits (s.reg (pgCore k) 0x148) 48 48 1) 16 3 wa)
  s.reportInj (0x140 + 6 * (t / 4)) 2 c (BitVec.ofNat 64 (8 * wa)) inj

/-- An uncorrectable TCM word: a divergence of a running copy (R51), else triad health code 3 (R223). -/
def State.tcmBad (s : State) (t c wa : Nat) (inj : Bool) : State :=
  let p := s.copy (3 * t + c)
  if p.st = .running then s.copyFault t c p.retcnt 3 inj
  else s.reportInj (5 * t + 4) 3 c (BitVec.ofNat 64 (8 * wa)) inj

/-- A core-port read of the TCM: the data, or none with the divergence done. -/
def State.tcmRead (s : State) (t c a n : Nat) : State × Option Quad :=
  let i := s.injEcc (pgTriad t) c
  let r := (s.copy (3 * t + c)).tcm.readBytes i a n
  let s := s.injEccUse (pgTriad t) i (checksOf a n)
  let s := r.fixed.foldl (fun s wa => s.tcmFixed t c wa (i.left != 0)) s
  match r.bad with
  | [] => (s, some r.data)
  | wa :: _ => (s.tcmBad t c wa (i.left != 0), none)

/-- The copy that mordanting copies from: the earlier letter of the pair (R74). -/
def State.mordSource (s : State) (t : Nat) : Option Nat := (s.running t).head?

/-- Mark the blocks a store of the source copy touches (R74). -/
def State.markDirty (s : State) (t c a n : Nat) : State :=
  let d := s.triad t
  if (d.mord = .rounds ∨ d.mord = .awaiting) ∧ s.mordSource t = some c then
    let add (l : List Nat) (b : Nat) : List Nat := if l.contains b then l else l ++ [b]
    s.setTriad t { d with dirty := add (add d.dirty (a / 256)) ((a + n - 1) / 256) }
  else s

/-- Two byte ranges overlap. -/
def rangesMeet (a n b m : Nat) : Bool := decide (a < b + m) && decide (b < a + n)

/-- A store overlaps the 32 bytes of the prefetch window, or the bytes of a younger group in the retire queue (R83, R85). -/
def Copy.hitsFetched (c : Copy) (a n : Nat) : Bool :=
  (match c.win with
   | some w => rangesMeet a n w 32
   | none => false) || c.queue.any fun g => rangesMeet a n g.addr g.len

/-- A core-port store to the TCM (R49, R61, R74, R136). One that overlaps what has been fetched discards the window and every younger
group (R85). -/
def State.tcmWrite (s : State) (t c a n : Nat) (q : Quad) : State :=
  let k := 3 * t + c
  let p := s.copy k
  let hit : Bool := match p.resv with
    | some g => decide (granule a ≤ g) && decide (g ≤ granule (a + n - 1))
    | none => false
  let stale := p.hitsFetched a n
  let p' : Copy := { p with
    tcm := p.tcm.writeBytes a n q
    writeBack := p.writeBack.filter fun w => decide (w < a / 8) || decide ((a + n - 1) / 8 < w)
    resv := if hit then none else p.resv
    win := if stale then none else p.win
    queue := if stale then [] else p.queue }
  let s := (s.setCopy k p').markDirty t c a n
  if stale then s.count (pgCore k) 0x138 else s

/-- A core-port store that may cover a word in part: its read part corrects a correctable word, and an uncorrectable one fails the
store, which is a divergence (R51, R219, R220, R223). The state, and whether the copy goes on. -/
def State.tcmStore (s : State) (t c a n : Nat) (q : Quad) : State × Bool :=
  let k := 3 * t + c
  let r := (s.copy k).tcm
  let fix (s : State) (wa : Nat) : State :=
    let s := s.tcmFixed t c wa false
    let p := s.copy k
    s.setCopy k { p with tcm := p.tcm.setWord wa ((r.readWord wa 0).val) }
  match partialBad r a n with
  | wa :: _ => (s.tcmBad t c wa false, false)
  | [] => (((partialFixed r a n).foldl fix s).tcmWrite t c a n q, true)

/-- The read and the store of a TAS of the TCM, one access: the byte that stood there, and 1 in its place; a correctable word is
corrected and counted once (R135, R219, R223). -/
def State.tcmTas (s : State) (t c a : Nat) : State × Option Quad :=
  let k := 3 * t + c
  match s.tcmRead t c a 1 with
  | (s', none) => (s', none)
  | (s', some q) =>
    let p := s'.copy k
    let m := (partialFixed p.tcm a 1).foldl (fun r wa => r.setWord wa ((p.tcm.readWord wa 0).val)) p.tcm
    ((s'.setCopy k { p with tcm := m }).tcmWrite t c a 1 1, some q)

/-- The TCM service port of a copy is taken by a self-test run or by a transfer of mordanting (R74, R221). -/
def State.servicePort (s : State) (t c : Nat) : Bool :=
  let d := s.triad t
  (match s.bist.run with
   | some r => decide (r.kind = 0) && r.inst == t && r.copy == c
   | none => false) ||
  ((decide (d.mord = .rounds) || decide (d.mord = .pause)) && (decide (s.mordSource t = some c) || d.mordCopy == c))

end Sys2Proof.Machine
end

