-- ==== Sys2Proof/Machine/Crc.lean ====
section
/-! DEFINITION. The check values of R257, the tint value of R49 and the CRC units' contexts (R258 to R262). -/

namespace Sys2Proof.Machine

/-- One bit step of a reflected CRC. -/
def crcStepR (poly v : Nat) : Nat := if v % 2 = 1 then Nat.xor (v / 2) poly else v / 2

/-- One bit step of an unreflected CRC of `w` bits. -/
def crcStepL (w poly v : Nat) : Nat :=
  if bitAt v (w - 1) then Nat.xor (v * 2 % 2 ^ w) poly else v * 2 % 2 ^ w

/-- Apply `f` n times. -/
def iter (f : Nat → Nat) : Nat → Nat → Nat
  | 0, v => v
  | n + 1, v => iter f n (f v)

/-- The width of a polynomial code (R257). -/
def crcWidth (poly : Nat) : Nat := if poly ≤ 1 then 32 else if poly = 2 then 16 else 64

/-- The init value of a polynomial code. -/
def crcInit (poly : Nat) : Nat := if poly ≤ 1 then 0xFFFFFFFF else if poly = 2 then 0xFFFF else 0

/-- XOROUT of a polynomial code. -/
def crcXorOut (poly : Nat) : Nat := if poly ≤ 1 then 0xFFFFFFFF else 0

/-- Feed one byte to a running value (R257). -/
def crcByte (poly v b : Nat) : Nat :=
  match poly with
  | 0 => iter (crcStepR 0xEDB88320) 8 (Nat.xor v b)
  | 1 => iter (crcStepR 0x82F63B78) 8 (Nat.xor v b)
  | 2 => iter (crcStepL 16 0x1021) 8 (Nat.xor v (b * 2 ^ 8))
  | _ => iter (crcStepL 64 0x42F0E1EBA9EA3693) 8 (Nat.xor v (b * 2 ^ 56))

/-- The check value of a byte string (R257). -/
def crcOf (poly : Nat) (bs : List Nat) : Nat := Nat.xor (bs.foldl (crcByte poly) (crcInit poly)) (crcXorOut poly)

/-- `n` bytes of a number, little-endian. -/
def bytesOf (v : Nat) : Nat → List Nat
  | 0 => []
  | n + 1 => v % 256 :: bytesOf (v / 256) n

/-- The 64 bytes of a tint record (R48). -/
def tintBytes (r : TintRec) : List Nat :=
  bytesOf r.index 8 ++ bytesOf r.addr.toNat 8 ++
  [r.dstA, r.dstB, r.pmask, r.preds, r.kind, r.wcode] ++ bytesOf r.crn 2 ++
  bytesOf r.valA.toNat 8 ++ bytesOf r.valB.toNat 8 ++ bytesOf r.maddr.toNat 8 ++ bytesOf r.mdata.toNat 8 ++
  bytesOf r.crval.toNat 8

/-- The tint (R49). -/
def tintValue (r : TintRec) : Word := BitVec.ofNat 64 (crcOf 3 (tintBytes r))

/-- The offset of context `i`'s registers on the CRCU page. -/
def ctxAt (i o : Nat) : Nat := 0x200 + 0x40 * i + o

/-- CCFG fields. -/
def State.ccfg (s : State) (n i hi lo : Nat) : Nat := s.fld (pgCrcu n) (ctxAt i 0) hi lo
def State.ctxOn (s : State) (n i : Nat) : Bool := s.ccfg n i 0 0 == 1

/-- Initialise context `i` (R260). -/
def State.crcInitCtx (s : State) (n i : Nat) : State :=
  (s.setReg (pgCrcu n) (ctxAt i 0x18) (BitVec.ofNat 64 (crcInit (s.ccfg n i 5 4)))).setReg (pgCrcu n) (ctxAt i 0x20) 0

/-- The running value of context `i`: bits above its polynomial's width read 0 (R260). -/
def State.crcValue (s : State) (n i : Nat) : Nat := (s.reg (pgCrcu n) (ctxAt i 0x18)).toNat % 2 ^ crcWidth (s.ccfg n i 5 4)

/-- CRESULT of context `i` (R260). -/
def State.crcResult (s : State) (n i : Nat) : Nat :=
  Nat.xor (s.crcValue n i) (crcXorOut (s.ccfg n i 5 4))

/-- The end of a block of context `i` (R261); an armed CRC injection inverts bit 0 of the compared value (R288). -/
def State.crcBlockEnd (s : State) (n i : Nat) : State :=
  let p := pgCrcu n
  let r := s.crcResult n i
  let s := s.setReg p (ctxAt i 0x38) (BitVec.ofNat 64 r)
  let inj := s.injArmed p 4 i
  let seen := if inj then Nat.xor r 1 else r
  let s := if inj ∧ s.ccfg n i 28 28 = 1 then s.injUse p 1 else s
  let s :=
    if s.ccfg n i 28 28 = 1 ∧ BitVec.ofNat 64 seen ≠ s.reg p (ctxAt i 0x30) then
      let s := s.setFld p 0x108 i i 1
      let s := s.reportInj (0x140 + 6 * n + 3) 2 0xFF 0 inj
      if s.bit p 0x100 16 = true ∧ s.openSlot (0x230 + n) = true then s.irq (4 * n + s.fld p 0x100 19 18) 22 else s
    else s
  if s.ccfg n i 29 29 = 1 then s.crcInitCtx n i else s

/-- Feed one byte to an enabled context. -/
def State.crcFeedByte (s : State) (n i b : Nat) : State :=
  let p := pgCrcu n
  let v := crcByte (s.ccfg n i 5 4) (s.crcValue n i) b
  let cnt := s.reg p (ctxAt i 0x20) + 1
  let s := (s.setReg p (ctxAt i 0x18) (BitVec.ofNat 64 v)).setReg p (ctxAt i 0x20) cnt
  let blk := s.ccfg n i 63 32
  if blk ≠ 0 ∧ cnt ≠ 0 ∧ cnt.toNat % blk = 0 then s.crcBlockEnd n i else s

/-- Feed bytes in ascending address order (R258). -/
def State.crcFeed (s : State) (n i : Nat) (bs : List Nat) : State := bs.foldl (fun s b => s.crcFeedByte n i b) s

/-- The enabled contexts of a source. -/
def State.ctxOf (s : State) (n src : Nat) : List Nat :=
  (List.range 8).filter fun i => s.ctxOn n i && s.ccfg n i 9 8 == src

/-- A CRC-feed request of the triad in slot `slot` reaches the unit (R146, R258); under REGION-SAFE feeds are answered
with an error, which FEEDERR counts (R277, CRCSTAT.FEEDERR). -/
def State.crcStream (s : State) (n slot : Nat) (bs : List Nat) : State × Resp :=
  match (s.ctxOf n 0).filter fun i => s.ccfg n i 13 12 == slot with
  | [] => (s.countSat (pgCrcu n) 0x108 47 32, .err)
  | cs =>
    if s.bit (pgFwall n) 0x108 0 then (s.countSat (pgCrcu n) 0x108 47 32, .err)
    else (cs.foldl (fun s i => s.crcFeed n i bs) s, .ok 0)

/-- A write of bytes at `a` in region `n` feeds the write-window contexts (R258), unless REGION-SAFE has stopped the unit's feeds (R277). -/
def State.crcWindow (s : State) (n a : Nat) (bs : List Nat) : State :=
  if s.bit (pgFwall n) 0x108 0 then s
  else (s.ctxOf n 1).foldl (fun s i =>
    let lo' := (s.reg (pgCrcu n) (ctxAt i 8)).toNat
    let hi' := (s.reg (pgCrcu n) (ctxAt i 0x10)).toNat
    s.crcFeed n i ((bs.zipIdx.filter fun e => decide (lo' ≤ a + e.2) && decide (a + e.2 ≤ hi')).map fun e => e.1)) s

/-- A write that LSCHED performs into region `n` for a lane and channel feeds the lane-receive contexts (R258). -/
def State.crcLane (s : State) (n lane vc : Nat) (bs : List Nat) : State :=
  if s.bit (pgFwall n) 0x108 0 then s
  else ((s.ctxOf n 2).filter fun i => s.ccfg n i 20 16 == lane && s.ccfg n i 26 24 == vc).foldl
    (fun s i => s.crcFeed n i bs) s

end Sys2Proof.Machine
end

