-- ==== Sys2Proof/Machine/Voter.lean ====
section
/-! DEFINITION. The voter (R49, R50, R288): presenting tints, comparing those of one index, ejecting or stopping on a difference. -/

namespace Sys2Proof.Machine

/-- The tint of one copy at one index. -/
def Triad.tintAt (d : Triad) (c k : Nat) : Option Word :=
  (d.voter.find? fun e => e.1 == c && e.2.1 == k).map fun e => e.2.2

/-- Every running copy's tint of an index stands at the voter, all equal. -/
def State.tintsAgree (s : State) (t k : Nat) : Bool :=
  match (s.running t).map fun c => (s.triad t).tintAt c k with
  | some x :: rest => rest.all fun y => y == some x
  | _ => false

/-- Tints of indices that every running copy agrees on leave the voter. -/
def State.cleanVoter (s : State) (t : Nat) : State :=
  let d := s.triad t
  s.setTriad t { d with
    voter := d.voter.filter fun e => !s.tintsAgree t e.2.1
    injTints := d.injTints.filter fun e => !s.tintsAgree t e.2 }

/-- The voter compares the tints of index `k` (R50); a divergence that an injected tint caused is marked so (R288). -/
def State.vote (s : State) (t k : Nat) : State :=
  let d := s.triad t
  let inj := d.injTints.any fun e => e.2 == k
  match s.running t with
  | [a, b, c] =>
    match d.tintAt a k, d.tintAt b k, d.tintAt c k with
    | some x, some y, some z =>
      if x = y ∧ y = z then s
      else if x = y then s.eject t c k 0 inj
      else if x = z then s.eject t b k 0 inj
      else if y = z then s.eject t a k 0 inj
      else s.noMajority t k 0 inj
    | _, _, _ => s
  | [a, b] =>
    match d.tintAt a k, d.tintAt b k with
    | some x, some y => if x = y then s else s.disagree t k 0 inj
    | _, _ => s
  | _ => s

/-- The tint of a copy's group may still change: its slot B is open (R48, R86). -/
def Copy.tintOpen (c : Copy) (k : Nat) : Bool := c.slotA.isSome && decide (k + 1 = c.retcnt)

/-- The tint of copy `c` at index `k` goes to the voter, where it does not stand there yet; an armed injection inverts bit 0 of the next
one that a copy presents (R288). -/
def State.presentTint (s : State) (t c k : Nat) : State :=
  let p := s.copy (3 * t + c)
  match p.tints.find? fun r => r.index == k with
  | none => s
  | some r =>
    let inj := s.injArmed (pgTriad t) 3 c
    let s := if inj then s.injUse (pgTriad t) 1 else s
    let s := s.setCopy (3 * t + c) { p with tints := p.tints.filter fun x => x.index != k }
    let d := s.triad t
    s.setTriad t { d with
      voter := d.voter ++ [(c, k, if inj then tintValue r ^^^ 1 else tintValue r)]
      injTints := if inj then d.injTints ++ [(c, k)] else d.injTints }

/-- The tint of copy `c` at index `k`, on its way or at the voter; none while its slot B is open. -/
def State.tintReady (s : State) (t c k : Nat) : Option Word :=
  let p := s.copy (3 * t + c)
  match (s.triad t).tintAt c k with
  | some v => some v
  | none => if p.tintOpen k then none else (p.tints.find? fun r => r.index == k).map tintValue

/-- The indices whose groups every running copy has retired and whose tints have not all been compared (R50). -/
def State.tintsDue (s : State) (t : Nat) : List Nat :=
  match s.running t with
  | a :: b :: cs =>
    let own := ((s.triad t).voter.filter fun e => e.1 == a).map (fun e => e.2.1) ++ (s.copy (3 * t + a)).tints.map fun r => r.index
    own.filter fun k => (a :: b :: cs).all fun c => (s.tintReady t c k).isSome
  | _ => []

/-- The first index due whose tints differ, or one of whose tints an armed injection will invert. -/
def State.dueConflict (s : State) (t : Nat) : Option Nat :=
  let run := s.running t
  let armed (c : Nat) : Bool := s.injArmed (pgTriad t) 3 c && !(s.copy (3 * t + c)).tints.isEmpty
  (s.tintsDue t).find? fun k =>
    run.any armed || !(run.all fun c => s.tintReady t c k == s.tintReady t (run.headD 0) k)

/-- The tints of these indices have been compared and are equal: they leave. -/
def State.dropTints (s : State) (t : Nat) (ks : List Nat) : State :=
  let s := (s.running t).foldl (fun s c =>
    let p := s.copy (3 * t + c)
    s.setCopy (3 * t + c) { p with tints := p.tints.filter fun r => !ks.contains r.index }) s
  let d := s.triad t
  s.setTriad t { d with voter := d.voter.filter fun e => !ks.contains e.2.1, injTints := d.injTints.filter fun e => !ks.contains e.2 }

/-- Every index that the last running copy has retired is compared before the triad goes on (R50). -/
def State.voteDue (s : State) (t : Nat) : State :=
  match s.tintsDue t with
  | [] => s
  | ks =>
    match s.dueConflict t with
    | none => s.dropTints t ks
    | some k => (((s.running t).foldl (fun s c => s.presentTint t c k) s).vote t k).cleanVoter t

/-- Tints that the voter holds for one copy (R50). -/
def voterRoom : Nat := 1024

/-- The oldest tint of a copy reaches the voter (R49, R50); one whose group may still take a slot B instruction waits, as does one that
finds the voter full. -/
def State.tintComes (s : State) (t c : Nat) : State :=
  let p := s.copy (3 * t + c)
  match p.tints with
  | [] => s
  | r :: _ =>
    if p.st ≠ .running ∨ p.tintOpen r.index = true ∨ voterRoom ≤ ((s.triad t).voter.filter fun e => e.1 == c).length then s
    else ((s.presentTint t c r.index).vote t r.index).cleanVoter t

end Sys2Proof.Machine
end

