-- ==== Sys2Proof/Machine/Entry.lean ====
section
/-! DEFINITION. Exception entry (R154 to R173): the target level, the frame, the emergency, VSTAT and the fault
registers, the ranking of candidates at one index (R163 to R165). -/

namespace Sys2Proof.Machine

/-- The target level of a fault of vector `v` raised at the level in force (R158). -/
def faultTarget (c : Copy) (v : Nat) : Level :=
  if c.level = .task ∧ bitAt (c.crv 4).toNat v = true then .system else .machine

/-- The target level of a stamped request (R158). -/
def stampTarget (c : Copy) (v : Nat) : Level :=
  if v = 6 ∨ v = 9 ∨ v = 25 then .machine
  else if v = 24 then .system
  else if bitAt (c.crv 4).toNat v then .system
  else .machine

/-- The address of a vector (R156). -/
def vectorAddr (l : Level) (v : Nat) : Word := BitVec.ofNat 64 ((if l = .machine then 0 else 0x400) + 16 * v)

/-- STATUS after an entry to a level (R160 step 5). -/
def enteredStatus (st : Word) (l : Level) : Word :=
  let st := withBits st 1 0 l.code
  if l = .machine then withBits st 2 2 0 else withBits st 3 3 0

/-- VSTAT after an entry (R160 step 6, VSTAT). -/
def enteredVstat (c : Copy) (vec : Nat) (l : Level) : Word :=
  let v := c.crv 3
  let nest := bitsOf v 31 16
  withBits (withBits (withBits (withBits v 31 16 (if nest < 65535 then nest + 1 else nest)) 9 8 l.code) 7 6 c.level.code)
    5 0 vec

/-- The tint record of an entry: vector number with bit 7 set, a frame push of 16 bytes (R48, R171). -/
def entryTint (k vec : Nat) (addr f ra : Word) (preds : Nat) : TintRec where
  index := k
  addr := addr
  dstA := 0x80 + vec
  preds := preds
  kind := 6
  wcode := 4
  maddr := f
  mdata := ra

/-- The entry group's end in the copy: flag, windows, shadows, pc, index, tint (R160 steps 7, 8). -/
def Copy.closeEntry (c : Copy) (now vec : Nat) (addr f ra : Word) : Copy :=
  { c with
    localFlag := false, holdRem := 0, shadow := [], pc := addr, retcnt := c.retcnt + 1, lastRetire := now
    afterEntry := true, hold := .none, slotA := none, repu := false, queue := [], win := none, xStall := 0
    tints := c.tints ++ [entryTint c.retcnt vec addr f ra c.predBits] }

/-- Steps 4 to 8 of an entry whose frame stands written (R160). -/
def Copy.finishEntry (c : Copy) (now : Nat) (e : EntryPlan) : Copy :=
  let vs := enteredVstat c e.vec e.target
  let vs := match e.ejCopy with | some x => withBits vs 11 10 x | none => vs
  let c1 := (c.setG (spBank e.target) e.frame).setCr 3 vs
  let c2 := c1.setCr 0 (enteredStatus e.status e.target)
  let c3 := match e.adr with | some a => c2.setCr 0x11 a | none => c2
  let c4 := match e.inf with | some w => c3.setCr 0x12 w | none => c3
  let c5 := match e.arithPc with | some w => c4.setCr 0x10 w | none => c4
  let c6 := match e.job with
    | some (j, i, o) => ((c5.setCr 0x18 j).setCr 0x19 i).setCr 0x1A o
    | none => c5
  let c7 : Copy := { c6 with pend := if e.vec = 8 then none else c6.pend }
  c7.closeEntry now e.vec (vectorAddr e.target e.vec) e.frame e.ra

/-- A group of copy `k` has been replaced by an entry or has retired: what the triad sees of it. A triad that wakes is
in Run once its leading copy takes a group (R362). -/
def State.afterGroup (s : State) (t : Nat) : State :=
  let s := if s.powerState t = 7 then s.setPowerState t 2 else s
  s.wakeWaits t

/-- The vector's stamp is taken by copy `c` (R64). -/
def State.takeStamp (s : State) (t c v : Nat) : State :=
  let d := s.triad t
  (s.setTriad t { d with
    stamps := d.stamps.map fun e => if e.vec = v then { e with taken := setBitN e.taken c } else e }).cleanStamps t

/-- The emergency entry (R171, R172): `failed` the vector whose entry failed, its target, the cause, the stack pointer,
the fault registers' values it would have written. `p` is the copy with its shadow ended. -/
def State.emergencyEntry (s : State) (t c : Nat) (p : Copy) (failed : Nat) (target : Level) (cause : Nat) (sp : Word)
    (adr inf : Option Word) (arithPc : Option Word) : State :=
  let k := 3 * t + c
  let ra := p.pc
  let beside := decide (failed ≠ 8) && p.pend.isSome
  let word : Word := BitVec.ofNat 64 (failed + target.code * 2 ^ 8 + cause * 2 ^ 16 + b2n beside * 2 ^ 24)
  let apc : Option Word := match p.pend with
    | some a => some a.pc
    | none => arithPc
  let frame : List Word :=
    [ra, p.crv 0, p.gAt 15, sp, word, (if failed = 8 then arithPc else adr).getD 0, inf.getD 0, BitVec.ofNat 64 p.retcnt]
  let s1 := s.setCopy k p
  let s2 := (frame.zipIdx).foldl (fun s e => s.tcmWrite t c (0x800 + 8 * e.2) 8 (e.1.zeroExtend 128)) s1
  let p2 := s2.copy k
  let vs := withBits (enteredVstat p2 6 .machine) 13 13 0
  let p3 := (p2.setG 15 0xC00).setCr 3 vs
  let p4 := p3.setCr 0 (enteredStatus (p3.crv 0) .machine)
  let p5 := match apc with | some w => p4.setCr 0x10 w | none => p4
  let p6 : Copy := { p5 with emerg := true, pend := none }
  (s2.setCopy k (p6.closeEntry s.now 6 0x60 0x800 ra)).afterGroup t

/-- The emergency frame's cause code for a fault of the frame push (R170, R172). -/
def pushCause (f : FaultInfo) : Nat :=
  if f.vec = 2 then 2
  else if f.vec = 5 then 1
  else if f.vec = 4 then 3
  else if bitsOf f.inf 7 0 = 4 then 6
  else 4

/-- What a requested entry is: its vector and target, the values it writes, what a release or notice carries. -/
structure EntryReq where
  vec : Nat
  target : Level
  adr : Option Word := none
  inf : Option Word := none
  arithPc : Option Word := none
  job : Option (Word × Word × Word) := none
  ejCopy : Option Nat := none
deriving DecidableEq, Repr

/-- MPU generations with an overlap are reported, each by the first running copy that reaches it (R244, R247): `p` the copy before. -/
def State.mpuReport (s : State) (t c : Nat) (p : Copy) : State :=
  let q := s.copy (3 * t + c)
  let g := bitsOf (q.crv 0x71) 31 0
  let first := (s.running t).all fun y => y == c || decide (bitsOf ((s.copy (3 * t + y)).crv 0x71) 31 0 < g)
  if first then (List.range (q.ovl - p.ovl)).foldl (fun s _ => s.report (5 * t + 4) 4 0xFF (BitVec.ofNat 64 p.retcnt)) s else s

/-- Take an entry in place of the group at the head (R160, R170, R173). `held`: the copy may not retire yet, so an
entry that needs no fabric access waits, and nothing changes. -/
def State.takeEntry (s : State) (t c : Nat) (held : Bool) (r : EntryReq) : State :=
  let k := 3 * t + c
  let p0 := s.copy k
  if p0.emerg then (if held then s else s.emergencyStop t c p0.retcnt)
  else
    let p := p0.endShadows fun _ => false
    let u := (s.setCopy k p).mpuReport t c p0
    if r.vec = 6 then (if held then s else u.emergencyEntry t c p 6 .machine 0 0 none none none)
    else
      let sp := p.gAt (spBank r.target)
      let f := sp - 16
      let st := p.crv 0
      let data : Quad := (st ++ p.pc : BitVec 128)
      let acc : Acc := ⟨.frame, f, 16, false, .lit data, true⟩
      match accFault p r.target acc with
      | some bad =>
        if held then s else u.emergencyEntry t c p r.vec r.target (pushCause bad) sp r.adr r.inf r.arithPc
      | none =>
        let plan : EntryPlan :=
          { vec := r.vec, target := r.target, ra := p.pc, status := st, frame := f, oldSp := sp, adr := r.adr,
            inf := r.inf, arithPc := r.arithPc, job := r.job, ejCopy := r.ejCopy }
        if classify f.toNat = .tcm then
          if held then s
          else
            let s2 := u.tcmWrite t c f.toNat 16 data
            (s2.setCopy k ((s2.copy k).finishEntry s.now plan)).afterGroup t
        else
          let r : MemReq := ⟨.frame, f.toNat, 16, false, data, false⟩
          u.setCopy k { p with hold := .mem r (.entry plan) false, slotA := none, queue := [], win := none }

/-- FAULTINF with the level at which the fault is raised. -/
def infAt (c : Copy) (inf : Word) : Word := withBits inf 31 30 c.level.code

/-- A fault of the group at the head is taken (R82, R162). -/
def State.takeFault (s : State) (t c : Nat) (held : Bool) (f : FaultInfo) : State :=
  let p := s.copy (3 * t + c)
  s.takeEntry t c held
    { vec := f.vec, target := faultTarget (p.endShadows fun _ => false) f.vec, adr := f.adr, inf := some (infAt p f.inf) }

/-- The pending arithmetic exception is taken (R174 to R176). -/
def State.takeArith (s : State) (t c : Nat) (held : Bool) (a : ArithPend) : State :=
  let p := s.copy (3 * t + c)
  let inf := withBits (infAt p (faultInf a.code)) 28 28 (b2n a.more)
  s.takeEntry t c held
    { vec := 8, target := faultTarget (p.endShadows fun _ => false) 8, inf := some inf, arithPc := some a.pc }

/-- Acceptable by level and enables (R165). -/
def acceptable (c : Copy) (v : Nat) : Bool :=
  match stampTarget c v, c.level with
  | .machine, .machine => bitsOf (c.crv 0) 2 2 == 1
  | .machine, _ => true
  | .system, .task => true
  | .system, .system => bitsOf (c.crv 0) 3 3 == 1
  | _, _ => false

/-- Held off by HOLD, REPU, a shadow, the index after an entry, the emergency (R63, R164, R168, R173, R178). -/
def Copy.blocked (c : Copy) : Bool :=
  c.holdRem != 0 || c.repu || !c.shadow.isEmpty || c.afterEntry || c.emerg

/-- The stamps a copy has before it at its index: not taken, D reached. -/
def dueStamps (d : Triad) (c k : Nat) : List Stamp :=
  d.stamps.filter fun e => decide (e.d ≤ k) && !bitAt e.taken c

/-- The lowest vector among stamps. -/
def lowestStamp : List Stamp → Option Stamp
  | [] => none
  | e :: es =>
    match lowestStamp es with
    | some f => if f.vec < e.vec then some f else some e
    | none => some e

/-- What the ranking of R163 gives at an index. -/
inductive Candidate where
  | none
  | emergency
  | arith (a : ArithPend)
  | notice (e : Stamp)
  | stamp (e : Stamp)
deriving DecidableEq, Repr

/-- The highest-ranked candidate (R163, R174). `kind` and `bad`: the issue kind of the group at the head, and whether
it raises illegal opcode or a fault at fetch. -/
def candidate (d : Triad) (p : Copy) (c : Nat) (kind : IssueKind) (bad : Bool) : Candidate :=
  let due := dueStamps d c p.retcnt
  let notice := due.find? fun e => e.vec == 9
  let other :=
    if p.blocked then none else lowestStamp (due.filter fun e => decide (16 ≤ e.vec) && acceptable p e.vec)
  if due.any fun e => e.vec == 6 then .emergency
  else
    let rest : Candidate :=
      match notice, other with
      | some e, _ => .notice e
      | none, some e => .stamp e
      | none, none => .none
    match p.pend with
    | some a =>
      if a.exact ∨ a.index + 4 ≤ p.retcnt ∨ kind ≠ .normal ∨ bad = true ∨ notice.isSome ∨ other.isSome then .arith a
      else rest
    | none => rest

/-- Take a stamped request's entry; the stamp is taken where the entry is (R64), and where its frame push has failed and the emergency
is entered in its place (R170; DESIGN CHOICE, assumption 57). -/
def State.takeStamped (s : State) (t c : Nat) (held : Bool) (v : Nat) (r : EntryReq) : State :=
  let s' := s.takeEntry t c held r
  if s'.copy (3 * t + c) = s.copy (3 * t + c) then s' else s'.takeStamp t c v

/-- Take the candidate, where there is one; a notice during the emergency is consumed and the group goes on (R173).
Answers the state and whether the index has been used. -/
def State.takeCandidate (s : State) (t c : Nat) (held : Bool) (cand : Candidate) : State × Bool :=
  let k := 3 * t + c
  let p := s.copy k
  match cand with
  | .none => (s, false)
  | .emergency => (s.takeStamped t c held 6 { vec := 6, target := .machine }, true)
  | .arith a => (s.takeArith t c held a, true)
  | .notice e =>
    if p.emerg then
      let vs := withBits (withBits (p.crv 3) 13 13 1) 11 10 e.ejCopy
      ((s.setCopy k (p.setCr 3 vs)).takeStamp t c 9, false)
    else (s.takeStamped t c held 9 { vec := 9, target := .machine, ejCopy := some e.ejCopy }, true)
  | .stamp e => (s.takeStamped t c held e.vec { vec := e.vec, target := stampTarget p e.vec, job := e.job }, true)

end Sys2Proof.Machine
end

