-- ==== Sys2Proof/Machine/Group.lean ====
section
/-! DEFINITION. One group of one copy (R39 to R41, R80 to R82, R109, R121, R126, R140 to R144): what an FLA command
does. The bytes at the program counter are not compared with the command (assumption 4). -/

namespace Sys2Proof.Machine

/-- Store a copy after its group has retired, with what the triad sees of it. -/
def State.groupDone (s : State) (t c : Nat) (p : Copy) : State :=
  ((s.setCopy (3 * t + c) p).mpuReport t c (s.copy (3 * t + c))).afterGroup t

/-- A guarded-false group, or a REP or REPU with count zero (R41, R141). -/
def State.emptyGroup (s : State) (t c : Nat) (len : Nat) : State :=
  let p := s.copy (3 * t + c)
  s.groupDone t c (p.retire s.now { addr := p.pc, next := p.pc + BitVec.ofNat 64 len } {})

/-- The group's effect, once its accesses are done: RETE's frame is judged first (R169), then everything is written. -/
def State.finishGroup (s : State) (x : Ctx) (i : Fla) (rep : Option RepKind) (vals : List Quad) : State :=
  let k := x.key
  let p := s.copy k
  let len := flaLen x rep i
  let next := p.pc + BitVec.ofNat 64 len
  let e := flaEff x p next vals i
  let bad : Bool := match e.special with
    | .rete _ st _ => !reteOk p st
    | _ => false
  if bad then s.takeFault x.t x.c false (privilege p.pc 4)
  else
    let g : GroupEnd :=
      { addr := p.pc, next := next, element := rep.isSome, more := rep.isSome && decide (p.gAt 1 - 1 ≠ 0)
        repu := decide (rep = some .repu), slotA := slotAOf p x rep i next }
    s.groupDone x.t x.c ({ p with hold := .none }.retire s.now g e)

/-- The bus error of an access: HALF and FAULTADR name the second half of a SPLIT access that crosses a multiple of its width; any
other access fails as a whole, whichever of its parts the fabric refused (R162). -/
def accessFault (a : MemReq) (half : Nat) : FaultInfo :=
  if half = 0 ∨ a.split = false then busError a.addr a.size a.split 0 a.kind
  else busError (a.addr / a.size * a.size + a.size) a.size a.split half a.kind

/-- A fault of an access after it was issued: a bus error (R56, R143). -/
def State.accessError (s : State) (x : Ctx) (held : Bool) (a : MemReq) (half : Nat) : State :=
  let p := s.copy x.key
  (s.setCopy x.key { p with hold := .none }).takeFault x.t x.c held (accessFault a half)

/-- The request of an access whose data are known. An STC carries the copy's local flag (R58), set for the granule reserved alone: a
later LDRS, of the copy's own TCM too, replaces an earlier reservation (R136). -/
def reqOf (c : Copy) (a : Acc) (vals : List Quad) : MemReq :=
  let d : Quad := match a.data with
    | .lit v => v
    | .prior => (vals.head?).getD 0
  let flag := decide (a.kind = .stc) && c.localFlag && decide (c.resv = some (granule a.addr.toNat))
  ⟨a.kind, a.addr.toNat, a.size, a.split, d, flag⟩

/-- An access leaves the copy for the TMI. -/
def isFabric (a : Acc) : Bool := decide (a.kind = .crc) || decide (classify a.addr.toNat ≠ .tcm)

/-- Perform a group's accesses in order: own TCM at once, the first access to the fabric waits at the TMI (R52, R80,
R143); then the group's effect. -/
def State.runAccs (s : State) (x : Ctx) (i : Fla) (rep : Option RepKind) : List Acc → List Quad → State
  | [], vals => s.finishGroup x i rep vals
  | a :: rest, vals =>
    let k := x.key
    let p := s.copy k
    let r := reqOf p a vals
    if isFabric a then s.setCopy k { p with hold := .mem r (.instr x i rep rest vals) false, slotA := none }
    else
      match a.kind with
      | .store | .frame =>
        match s.tcmStore x.t x.c r.addr r.size r.data with
        | (s', true) => s'.runAccs x i rep rest (vals ++ [0])
        | (s', false) => s'
      | .stc =>
        if r.flag then (s.tcmWrite x.t x.c r.addr 8 r.data).runAccs x i rep rest (vals ++ [1])
        else s.runAccs x i rep rest (vals ++ [0])
      | .tas =>
        match s.tcmTas x.t x.c r.addr with
        | (s', some q) => s'.runAccs x i rep rest (vals ++ [q])
        | (s', none) => s'
      | _ =>
        match s.tcmRead x.t x.c r.addr r.size with
        | (s', some q) => s'.runAccs x i rep rest (vals ++ [q])
        | (s', none) => s'

/-- The first execution-time fault of a group before any access (R121): REPU's count, privilege, the access checks. The
reads of RETE in the emergency are never checked (R245). -/
def headFault (p : Copy) (x : Ctx) (i : Fla) (rep : Option RepKind) : Option FaultInfo :=
  if rep = some .repu ∧ p.repu = false ∧ 1024 < (p.gAt 1).toNat then some (illegal p.pc 0x0A x.repAt)
  else match privFault p i with
    | some f => some f
    | none =>
      if rep.isSome ∧ p.gAt 1 = 0 then none
      else if i = .rete ∧ p.emerg = true then none
      else accsFault p p.level (flaAcc x p (p.pc + BitVec.ofNat 64 (flaLen x rep i)) i)

/-- The decode and fetch fault of an instruction at the pc: whichever holds at the lowest byte (R120, R246). -/
def decodeFault (p : Copy) (x : Ctx) (i : Fla) (rep : Option RepKind) : Option FaultInfo :=
  let f := (List.range (min (flaLen x rep i) 15)).find? fun j => (fetchByte p p.pc.toNat j).isSome
  let held := (flaIllegals x rep i).filter fun c => decide (c.last < f.getD 16)
  match firstCond held with
  | some c => some (illegal p.pc c.reason c.off)
  | none => f.bind fun j => fetchByte p p.pc.toNat j

/-- The MPU generation that includes every MPU write the copy has retired, shadow ended or not (R253). -/
def Copy.ruleGen (c : Copy) : Nat := bitsOf ((c.endShadows fun _ => false).crv 0x71) 31 0

/-- A request in flight was judged by its region's firewall under the generation in force now (R252, R253). -/
def State.fwCurrent (s : State) (u : TagUse) : Bool :=
  match u.fw with
  | some (n, g) => AMap.get s.pggen (fun _ => 0) (pgFwall n) == g
  | none => true

/-- Older groups retired and no gated access of a lower index stands, every released write has completed; under FENCE.RULE no
access of the triad stays in flight that a lower index made, or that was checked under an older generation of the MPU or of a
firewall (R151, R253). -/
def State.fenceOpen (s : State) (t c : Nat) (rule : Bool) : Bool :=
  let d := s.triad t
  let p := s.copy (3 * t + c)
  let k := p.retcnt
  let g := p.ruleGen
  (d.gate.all fun e => decide (k < e.index)) && decide (d.posted = 0) &&
  (!rule || (s.tagsIn (24 * t) 24).all fun u =>
    s.fwCurrent u &&
    ((d.replay.any fun e => decide (k < e.index) && decide (g ≤ e.gen) && e.tags.any fun x => x.1 == u.tag) ||
     (d.gate.any fun e => decide (k < e.index) && decide (g ≤ e.gen) && match e.tag with
       | some x => x.1 == u.tag
       | none => false)))

/-- A low-power entry begins when every running copy waits at one index with no later stamp (R358); mordanting alone
prevents it with PSTAT.CAUSE 5. -/
def State.maybeSleep (s : State) (t : Nat) : State :=
  let d := s.triad t
  let dmode := s.fld pgPwr 0x100 1 0
  let mode := s.fld pgPwr (tpwr t) 9 8
  let all := s.running t
  let idx (c : Nat) : Nat := (s.copy (3 * t + c)).retcnt
  let waiting := all.all fun c => match (s.copy (3 * t + c)).hold with | .wait _ => true | _ => false
  let same := all.all fun c => all.all fun y => idx c == idx y
  let calm := all.all fun c => !s.stampAbove t c
  if all.isEmpty ∨ waiting = false ∨ same = false ∨ calm = false ∨ (dmode = 0 ∧ mode = 0) ∨ s.powerState t ≠ 2 ∨ d.entry ≠ 0
  then s
  else if d.mord = .rounds ∨ d.mord = .awaiting ∨ d.mord = .pause then s.setFld pgPwr 0x108 19 16 5
  else
    let s := (s.setTriad t { d with entry := 1 }).setPowerState t 4
    if dmode = 0 then s else (s.setFld pgPwr 0x108 1 0 1).setFld pgPwr 0x108 37 32 t

/-- WAIT at the head: it retires where a later stamp exists, else the copy stalls (R150). -/
def State.runWait (s : State) (t c : Nat) (held : Bool) (len : Nat) : State :=
  let k := 3 * t + c
  let p := s.copy k
  if s.stampAbove t c ∧ held = false then s.groupDone t c (p.retireWait s.now len)
  else (s.setCopy k { p with hold := .wait len, slotA := none }).maybeSleep t

/-- FENCE and FENCE.RULE at the head (R151). -/
def State.runFence (s : State) (t c : Nat) (held : Bool) (rule : Bool) (len : Nat) : State :=
  let k := 3 * t + c
  let p := s.copy k
  if s.fenceOpen t c rule ∧ held = false then s.emptyGroup t c len
  else s.setCopy k { p with hold := .fence rule len, slotA := none }

/-- The instruction itself, with no candidate and no decode fault before it (R109, R121). `held`: the copy may not
retire its group yet; only a group that goes to the TMI, a WAIT or a FENCE may then stand at the head (R44, R92). -/
def State.runHead (s : State) (x : Ctx) (i : Fla) (rep : Option RepKind) (held : Bool) : State :=
  let p := s.copy x.key
  let len := flaLen x rep i
  if p.guardOk x.guard = false then (if held then s else s.emptyGroup x.t x.c len)
  else match headFault p x i rep with
    | some f => s.takeFault x.t x.c held f
    | none =>
      if rep.isSome ∧ p.gAt 1 = 0 then (if held then s else s.emptyGroup x.t x.c len)
      else match i with
        | .wait => s.runWait x.t x.c held len
        | .fence => s.runFence x.t x.c held false len
        | .fenceRule => s.runFence x.t x.c held true len
        | _ =>
          let as' := flaAcc x p (p.pc + BitVec.ofNat 64 len) i
          if held ∧ as'.any isFabric = false then s else s.runAccs x i rep as' []

/-- A copy of a triad of this device that runs, with nothing standing at its head. -/
def State.headFree (s : State) (x : Ctx) : Bool :=
  decide (x.t < s.nTriads) && decide (x.c < 3) && decide ((s.copy x.key).st = .running) &&
  decide ((s.copy x.key).hold = .none) && !s.sleepHeld x.t

/-- The copy takes a group at its head: no mordanting pause holds it at its boundary (R74). -/
def State.takesGroups (s : State) (x : Ctx) : Bool := s.headFree x && !s.pauseHeld x.t x.c

/-- The instruction enters slot B of the group that has just retired (R86). -/
def State.runSlotB (s : State) (x : Ctx) (i : Fla) : State :=
  let p := s.copy x.key
  let next := p.pc + BitVec.ofNat 64 (flaLen x none i)
  let s' := s.groupDone x.t x.c (p.joinB next p.pc (flaEff x p next [] i))
  s'.count (pgCore x.key) 0x120

/-- The instruction belongs to the group that has just retired: whether it pairs is a question of its bytes alone, so neither a pause
nor a hold parts the two (R40, R86). -/
def Copy.takesB (c : Copy) (x : Ctx) (rep : Option RepKind) (i : Fla) : Bool :=
  pairsB c x rep i && (flaIllegals x rep i).isEmpty

/-- The group that retired last takes no slot B instruction any more. -/
def State.closeSlot (s : State) (k : Nat) : State := s.setCopy k { s.copy k with slotA := none }

/-- The group at the head of the copy: the instruction joins slot B of the last group, or it is the next group; a candidate of R163 is
taken in its place, then its decode and fetch faults, then the instruction (R82, R86, R121). A copy that takes no group now keeps
everything but an open slot B. -/
def State.headGroup (s : State) (x : Ctx) (i : Fla) (rep : Option RepKind) : State :=
  let p := s.copy x.key
  if s.headFree x = true ∧ p.takesB x rep i = true then s.runSlotB x i
  else if s.takesGroups x = false then s.closeSlot x.key
  else
    let held := s.staggerHeld x.t x.c || s.skewHeld x.t x.c
    let df := decodeFault p x i rep
    match (s.closeSlot x.key).takeCandidate x.t x.c held (candidate (s.triad x.t) p x.c (flaKind rep i) df.isSome) with
    | (s', true) => s'
    | (s', false) =>
      match df with
      | some f => s'.takeFault x.t x.c held f
      | none => s'.runHead x i rep held

/-! The prefetch window (R83) and the retire queue (R80, R81, R87). -/

/-- An aligned 16-byte fetch read of the core port, checked and corrected (R83, R223). Past the TCM's end nothing is fetched (R43). The
state, and whether the copy goes on. -/
def State.fetchLine (s : State) (t c a : Nat) : State × Bool :=
  if 0x20000 ≤ a then (s, true)
  else match s.tcmRead t c a 16 with
    | (s', some _) => (s', true)
    | (s', none) => (s', false)

/-- The window is brought to the line of address `a`: it slides by one line, or is fetched anew, which X waits for (R83, CNTFETCH;
one step for each wait, assumption 58). -/
def State.fetchWindow (s : State) (t c a : Nat) : State × Bool :=
  let k := 3 * t + c
  let l := a / 16 * 16
  let win := (s.copy k).win
  if win = some l then (s, true)
  else
    let slide := decide (win.map (fun w => w + 16) = some l)
    let x := if slide then (s, true) else (s.count (pgCore k) 0x130).fetchLine t c l
    if x.2 = false then x
    else
      let y := x.1.fetchLine t c (l + 16)
      if y.2 then (y.1.setCopy k { y.1.copy k with win := some l }, true) else y

/-- What the next group of copy `x` fetches: a slot B instruction lies in the window of its slot A (R86 condition 7), unless that has
been discarded. While a repetition has elements left the pc is that of the repeated instruction (R144), and the window stands there and
not behind it: the spec does not say which (DESIGN CHOICE, assumption 58). -/
def State.fetchFor (s : State) (x : Ctx) (i : Fla) (rep : Option RepKind) : State × Bool :=
  let p := s.copy x.key
  if p.takesB x rep i = true ∧ p.win.isSome = true then (s, true) else s.fetchWindow x.t x.c p.pc.toNat

/-- The instruction in progress at the head, and its issue kind: an entry, WAIT or FENCE is a barrier (R95). -/
def Copy.headKind (c : Copy) : IssueKind :=
  match c.hold with
  | .none => match c.queue with
    | [] => .normal
    | g :: _ => flaKind g.rep g.i
  | .mem _ (.instr _ i rep _ _) _ => flaKind rep i
  | _ => .barrier

/-- The instructions in X that no copy has retired yet, oldest first. -/
def Copy.inFlight (c : Copy) : List Fla :=
  (match c.hold with
   | .mem _ (.instr _ i _ _ _) _ => [i]
   | _ => []) ++ c.queue.map fun g => g.i

/-- The registers whose scoreboard bit is set (R87): destinations of loads, MUL, DIV and REM that have not produced their results. -/
def Copy.scoreboard (c : Copy) : List Nat := (c.inFlight.filter setsScore).flatMap flaWrites

/-- Groups in the retire queue (CSTAT.QOCC). -/
def Copy.occupancy (c : Copy) : Nat :=
  min 4 ((if c.hold = .none then 0 else 1) + (c.queue.filter fun g => !g.slotB).length)

/-- Where the next instruction to issue lies: behind the youngest issued one. -/
def Copy.issueAt (c : Copy) : Nat :=
  match c.queue.getLast?, c.hold with
  | some g, _ => g.addr + g.len
  | none, .mem _ (.instr x i rep _ _) _ => c.pc.toNat + flaLen x rep i
  | none, _ => c.pc.toNat

/-- The instruction to issue enters slot B of the youngest issued group (R86). -/
def Copy.issuesB (c : Copy) (x : Ctx) (i : Fla) (rep : Option RepKind) : Bool :=
  let behind (y : Ctx) (j : Fla) (r : Option RepKind) (a : Nat) : Bool :=
    let c' : Copy := { c with pc := BitVec.ofNat 64 a }
    let c'' : Copy := { c' with pc := BitVec.ofNat 64 c.issueAt, slotA := slotAOf c' y r j (BitVec.ofNat 64 c.issueAt) }
    c''.takesB x rep i
  match c.queue.getLast?, c.hold with
  | some g, _ => !g.slotB && behind g.x g.i g.rep g.addr
  | none, .mem _ (.instr y j r _ _) _ => behind y j r c.pc.toNat
  | none, _ => false

/-- Why X issues no group behind the head, in CSTAT.STALL's codes: 1 a scoreboard bit (R87), 3 an empty queue is needed (R81, R90), also
behind a branch whose target is not known (assumption 58), 0 the queue holds four groups (R80); none, it issues. -/
def Copy.issueStall (c : Copy) (x : Ctx) (i : Fla) (rep : Option RepKind) : Option Nat :=
  let busy := c.scoreboard
  if ((if rep.isSome then [1] else []) ++ flaReads i ++ flaWrites i).any (fun r => busy.contains r) then some 1
  else if c.occupancy = 0 then none
  else if flaKind rep i ≠ .normal ∨ c.headKind = .barrier ∨ (c.precise && c.inFlight.any canArith) then some 3
  else if c.inFlight.any mayBranch then some 3
  else if 4 ≤ c.occupancy ∧ c.issuesB x i rep = false then some 0
  else none

/-- X issues the instruction behind what it holds, or stalls (R80, R81, R87; CNTSB counts the stalls on the scoreboard). -/
def State.issueBehind (s : State) (x : Ctx) (i : Fla) (rep : Option RepKind) : State :=
  let k := x.key
  let p := s.copy k
  if ¬ (x.t < s.nTriads ∧ x.c < 3) ∨ p.st ≠ .running ∨ s.sleepHeld x.t = true then s
  else match p.issueStall x i rep with
    | some why =>
      let s := s.setCopy k { p with xStall := why }
      if why = 1 then s.count (pgCore k) 0x128 else s
    | none =>
      let g : QGroup :=
        { x := x, i := i, rep := rep, addr := p.issueAt, len := flaLen x rep i, slotB := p.issuesB x i rep }
      match if g.slotB then (s, true) else s.fetchWindow x.t x.c p.issueAt with
      | (s, false) => s
      | (s, true) => s.setCopy k { s.copy k with queue := (s.copy k).queue ++ [g], xStall := 0 }

/-- The copy, `p` before and `q` after, has not moved: the group still stands before it. An instruction that joined slot B has moved
it, wherever it went. -/
def sameGroup (p q : Copy) (x : Ctx) (rep : Option RepKind) (i : Fla) : Bool :=
  !p.takesB x rep i && p.retcnt == q.retcnt && decide (p.pc = q.pc) && decide (q.hold = .none) && decide (q.st = .running)

/-- The oldest issued group of a copy, once it is at the head and may go on (R80). -/
def State.popGroup (s : State) (t c : Nat) : Option State :=
  let k := 3 * t + c
  let p := s.copy k
  match p.queue with
  | [] => none
  | g :: rest =>
    if s.headFree g.x = false then none
    else
      let u := (s.setCopy k { p with queue := rest }).headGroup g.x g.i g.rep
      if sameGroup p (u.copy k) g.x g.rep g.i then none else some u

/-- The first of several steps that applies. -/
def firstStep (s : State) : List (State → Option State) → Option State
  | [] => none
  | f :: fs =>
    match f s with
    | some s' => some s'
    | none => firstStep s fs

/-- Groups issued ahead go on while they may, at most `n`. -/
def State.drain (s : State) (t : Nat) : Nat → State
  | 0 => s
  | n + 1 =>
    match firstStep s [fun s => s.popGroup t 0, fun s => s.popGroup t 1, fun s => s.popGroup t 2] with
    | none => s
    | some s' => s'.drain t n

/-- More groups than three copies can have issued ahead (four, with their slot B instructions). -/
def drainFuel : Nat := 32

/-- Some copy of the triad has issued groups ahead. -/
def State.ahead (s : State) (t : Nat) : Bool := (List.range 3).any fun c => !(s.copy (3 * t + c)).queue.isEmpty

/-- Let the groups that were issued ahead go on. -/
def State.settleQueue (s : State) (t : Nat) : State := if s.ahead t then s.drain t drainFuel else s

/-- One FLA command at a copy whose queue is empty and whose head is free: the bytes are fetched, and the group stands at the head;
one that may not retire yet is issued and waits there (R44, R80). -/
def State.runFirst (s : State) (x : Ctx) (i : Fla) (rep : Option RepKind) : State :=
  match s.fetchFor x i rep with
  | (s, false) => s
  | (s, true) =>
    let u := s.headGroup x i rep
    if sameGroup (s.copy x.key) (u.copy x.key) x rep i then u.issueBehind x i rep else u

/-- The next group of a copy goes to the head, or is issued behind the groups that stand there (R80, R82); what may go on then does.
A copy that can neither take nor issue the group stalls. -/
def State.moveGroup (s : State) (x : Ctx) (i : Fla) (rep : Option RepKind) : State :=
  let s := s.settleQueue x.t
  if s.headFree x = true ∧ (s.copy x.key).queue = [] then
    let u := s.runFirst x i rep
    if s.ahead x.t then u.settleQueue x.t else u
  else (s.issueBehind x i rep).settleQueue x.t

/-- One FLA command: the next group of its copy moves, and the tints that are due then are compared (R50). -/
def State.runGroup (s : State) (x : Ctx) (i : Fla) (rep : Option RepKind) : State := (s.moveGroup x i rep).voteDue x.t

/-- The byte at offset `j` of the instruction at the pc, as the core port corrects it (R223), where no fetch condition holds there. -/
def fetchAt (p : Copy) (j : Nat) : Option Nat :=
  if (fetchByte p p.pc.toNat j).isSome then none
  else
    let a := p.pc.toNat + j
    some (byteOfWord (p.tcm.readWord (a / 8) 0).val (a % 8)).toNat

/-- EXCEPTION_ENTRY: the copy enters a vector for the candidate at its index, or for the fault that the instruction
standing at its pc raises (R160, R163, R82). With neither, nothing happens; nor where that instruction belongs to slot B of the group
that has just retired, whose index no entry takes (R86, R161). -/
def State.entryGroup (s : State) (t c : Nat) : State :=
  let x : Ctx := { t := t, c := c }
  let s := s.settleQueue t
  if s.takesGroups x = false ∨ (s.copy (3 * t + c)).queue ≠ [] then s
  else match s.fetchWindow t c (s.copy (3 * t + c)).pc.toNat with
    | (s, false) => s
    | (s, true) =>
      let p := s.copy (3 * t + c)
      let held := s.staggerHeld t c || s.skewHeld t c
      let dec := decodeFla t c (fetchAt p)
      let slotB : Bool := match dec with | .ok y rep i => p.takesB y rep i | _ => false
      let kind : IssueKind := match dec with | .ok _ rep i => flaKind rep i | _ => .normal
      let df : Option FaultInfo := match dec with
        | .ok _ _ _ => none
        | .illegal r o => some (illegal p.pc r o)
        | .fetch o => fetchByte p p.pc.toNat o
      if slotB then s
      else match s.takeCandidate t c held (candidate (s.triad t) p c kind df.isSome) with
        | (s', true) => s'
        | (s', false) =>
          match df, dec with
          | some f, _ => s'.takeFault t c held f
          | none, .ok y rep i =>
            if p.guardOk y.guard then
              match headFault p y i rep with
              | some f => s'.takeFault t c held f
              | none => s'
            else s'
          | none, _ => s'

/-- EXCEPTION_ENTRY, and the comparison of the tints that are due then (R50). -/
def State.runEntry (s : State) (t c : Nat) : State := (s.entryGroup t c).voteDue t

end Sys2Proof.Machine
end

