-- ==== Sys2Proof/Machine/Alu.lean ====
section
/-! DEFINITION. The arithmetic, logic and shift instructions: each is one group of the copy that its context names. -/

namespace Sys2Proof.Machine

/-- ADD (R113, R124, R127 to R130). -/
def execAdd (x : Ctx) (d a : Reg) (b : Src2) (s : State) : Host.Outcome State Fault Refusal :=
  .next (s.runGroup x (.alu .add d a b) none)

/-- SUB (R113, R124, R127 to R130). -/
def execSub (x : Ctx) (d a : Reg) (b : Src2) (s : State) : Host.Outcome State Fault Refusal :=
  .next (s.runGroup x (.alu .sub d a b) none)

/-- AND (R113, R124, R127 to R130). -/
def execAnd (x : Ctx) (d a : Reg) (b : Src2) (s : State) : Host.Outcome State Fault Refusal :=
  .next (s.runGroup x (.alu .and d a b) none)

/-- OR (R113, R124, R127 to R130). -/
def execOr (x : Ctx) (d a : Reg) (b : Src2) (s : State) : Host.Outcome State Fault Refusal :=
  .next (s.runGroup x (.alu .or d a b) none)

/-- XOR (R113, R124, R127 to R130). -/
def execXor (x : Ctx) (d a : Reg) (b : Src2) (s : State) : Host.Outcome State Fault Refusal :=
  .next (s.runGroup x (.alu .xor d a b) none)

/-- ANDN (R113, R124, R127 to R130). -/
def execAndn (x : Ctx) (d a : Reg) (b : Src2) (s : State) : Host.Outcome State Fault Refusal :=
  .next (s.runGroup x (.alu .andn d a b) none)

/-- SHL (R113, R124, R127 to R130). -/
def execShl (x : Ctx) (d a : Reg) (b : Src2) (s : State) : Host.Outcome State Fault Refusal :=
  .next (s.runGroup x (.alu .shl d a b) none)

/-- SHR (R113, R124, R127 to R130). -/
def execShr (x : Ctx) (d a : Reg) (b : Src2) (s : State) : Host.Outcome State Fault Refusal :=
  .next (s.runGroup x (.alu .shr d a b) none)

/-- SAR (R113, R124, R127 to R130). -/
def execSar (x : Ctx) (d a : Reg) (b : Src2) (s : State) : Host.Outcome State Fault Refusal :=
  .next (s.runGroup x (.alu .sar d a b) none)

/-- ROL (R113, R124, R127 to R130). -/
def execRol (x : Ctx) (d a : Reg) (b : Src2) (s : State) : Host.Outcome State Fault Refusal :=
  .next (s.runGroup x (.alu .rol d a b) none)

/-- ROR (R113, R124, R127 to R130). -/
def execRor (x : Ctx) (d a : Reg) (b : Src2) (s : State) : Host.Outcome State Fault Refusal :=
  .next (s.runGroup x (.alu .ror d a b) none)

/-- MUL (R113, R124, R127 to R130). -/
def execMul (x : Ctx) (d a : Reg) (b : Src2) (s : State) : Host.Outcome State Fault Refusal :=
  .next (s.runGroup x (.alu .mul d a b) none)

/-- MULH (R113, R124, R127 to R130). -/
def execMulh (x : Ctx) (d a : Reg) (b : Src2) (s : State) : Host.Outcome State Fault Refusal :=
  .next (s.runGroup x (.alu .mulh d a b) none)

/-- MULHU (R113, R124, R127 to R130). -/
def execMulhu (x : Ctx) (d a : Reg) (b : Src2) (s : State) : Host.Outcome State Fault Refusal :=
  .next (s.runGroup x (.alu .mulhu d a b) none)

/-- ADDT (R113, R124, R127 to R130). -/
def execAddt (x : Ctx) (d a : Reg) (b : Src2) (s : State) : Host.Outcome State Fault Refusal :=
  .next (s.runGroup x (.alu .addt d a b) none)

/-- SUBT (R113, R124, R127 to R130). -/
def execSubt (x : Ctx) (d a b : Reg) (s : State) : Host.Outcome State Fault Refusal :=
  .next (s.runGroup x (.alu .subt d a (.reg b)) none)

/-- MULT (R113, R124, R127 to R130). -/
def execMult (x : Ctx) (d a b : Reg) (s : State) : Host.Outcome State Fault Refusal :=
  .next (s.runGroup x (.alu .mult d a (.reg b)) none)

/-- DIV (R113, R124, R127 to R130). -/
def execDiv (x : Ctx) (d a b : Reg) (s : State) : Host.Outcome State Fault Refusal :=
  .next (s.runGroup x (.alu .div d a (.reg b)) none)

/-- DIVU (R113, R124, R127 to R130). -/
def execDivu (x : Ctx) (d a b : Reg) (s : State) : Host.Outcome State Fault Refusal :=
  .next (s.runGroup x (.alu .divu d a (.reg b)) none)

/-- REM (R113, R124, R127 to R130). -/
def execRem (x : Ctx) (d a b : Reg) (s : State) : Host.Outcome State Fault Refusal :=
  .next (s.runGroup x (.alu .rem d a (.reg b)) none)

/-- REMU (R113, R124, R127 to R130). -/
def execRemu (x : Ctx) (d a b : Reg) (s : State) : Host.Outcome State Fault Refusal :=
  .next (s.runGroup x (.alu .remu d a (.reg b)) none)

/-- MIN (R113, R124, R127 to R130). -/
def execMin (x : Ctx) (d a b : Reg) (s : State) : Host.Outcome State Fault Refusal :=
  .next (s.runGroup x (.alu .min d a (.reg b)) none)

/-- MAX (R113, R124, R127 to R130). -/
def execMax (x : Ctx) (d a b : Reg) (s : State) : Host.Outcome State Fault Refusal :=
  .next (s.runGroup x (.alu .max d a (.reg b)) none)

/-- MINU (R113, R124, R127 to R130). -/
def execMinu (x : Ctx) (d a b : Reg) (s : State) : Host.Outcome State Fault Refusal :=
  .next (s.runGroup x (.alu .minu d a (.reg b)) none)

/-- MAXU (R113, R124, R127 to R130). -/
def execMaxu (x : Ctx) (d a b : Reg) (s : State) : Host.Outcome State Fault Refusal :=
  .next (s.runGroup x (.alu .maxu d a (.reg b)) none)

end Sys2Proof.Machine
end

