-- ==== Sys2Proof/Machine/Atomics.lean ====
section
/-! DEFINITION. Atomic operations: each is one group of the copy that its context names. -/

namespace Sys2Proof.Machine

/-- TAS (R135). -/
def execTas (x : Ctx) (p : Pred) (a : Reg) (o : Disp) (s : State) : Host.Outcome State Fault Refusal :=
  .next (s.runGroup x (.tas p a o) none)

/-- LDRS (R136). -/
def execLdrs (x : Ctx) (d a : Reg) (s : State) : Host.Outcome State Fault Refusal :=
  .next (s.runGroup x (.ldrs d a) none)

/-- STC (R136). -/
def execStc (x : Ctx) (p : Pred) (d a : Reg) (s : State) : Host.Outcome State Fault Refusal :=
  .next (s.runGroup x (.stc p d a) none)

/-- CLRRES (R136). -/
def execClrres (x : Ctx) (s : State) : Host.Outcome State Fault Refusal :=
  .next (s.runGroup x .clrres none)

end Sys2Proof.Machine
end

