-- ==== Sys2Proof/Machine/Block.lean ====
section
/-! DEFINITION. Block operations and repetition: each is one group of the copy that its context names. -/

namespace Sys2Proof.Machine

/-- MOVS (R143, R144). -/
def execMovs (x : Ctx) (s : State) : Host.Outcome State Fault Refusal :=
  .next (s.runGroup x .movs none)

/-- FILLS (R143, R144). -/
def execFills (x : Ctx) (s : State) : Host.Outcome State Fault Refusal :=
  .next (s.runGroup x .fills none)

/-- CMPS (R145). -/
def execCmps (x : Ctx) (p : Pred) (s : State) : Host.Outcome State Fault Refusal :=
  .next (s.runGroup x (.cmps p) none)

/-- SCANS (R145). -/
def execScans (x : Ctx) (p : Pred) (a : Reg) (s : State) : Host.Outcome State Fault Refusal :=
  .next (s.runGroup x (.scans p a) none)

/-- CRCS (R146). -/
def execCrcs (x : Ctx) (s : State) : Host.Outcome State Fault Refusal :=
  .next (s.runGroup x .crcs none)

/-- One element of a REP or REPU instruction (R140 to R145, R109). -/
def execRepeatElement (x : Ctx) (r : RepKind) (i : Fla) (s : State) : Host.Outcome State Fault Refusal :=
  .next (s.runGroup x i (some r))

end Sys2Proof.Machine
end

