-- ==== Sys2Proof/Machine/Control.lean ====
section
/-! DEFINITION. Control transfer: each is one group of the copy that its context names. -/

namespace Sys2Proof.Machine

/-- BR (R105, R137). -/
def execBr (x : Ctx) (o : Disp) (s : State) : Host.Outcome State Fault Refusal :=
  .next (s.runGroup x (.br o) none)

/-- BRR (R137). -/
def execBrr (x : Ctx) (a : Reg) (s : State) : Host.Outcome State Fault Refusal :=
  .next (s.runGroup x (.brr a) none)

/-- CALL (R133, R138). -/
def execCall (x : Ctx) (o : BitVec 32) (s : State) : Host.Outcome State Fault Refusal :=
  .next (s.runGroup x (.call o) none)

/-- CALLR (R137, R138). -/
def execCallr (x : Ctx) (a : Reg) (s : State) : Host.Outcome State Fault Refusal :=
  .next (s.runGroup x (.callr a) none)

/-- DBNZ (R139). -/
def execDbnz (x : Ctx) (d : Reg) (o : Disp) (s : State) : Host.Outcome State Fault Refusal :=
  .next (s.runGroup x (.dbnz d o) none)

/-- RET (R133). -/
def execRet (x : Ctx) (s : State) : Host.Outcome State Fault Refusal :=
  .next (s.runGroup x .ret none)

/-- RETE (R169). -/
def execRete (x : Ctx) (s : State) : Host.Outcome State Fault Refusal :=
  .next (s.runGroup x .rete none)

end Sys2Proof.Machine
end

