-- ==== Sys2Proof/Machine/Sram.lean ====
section
/-! DEFINITION. The fabric firewall (R241 to R252) and region SRAM (R217 to R226): judging a request at a region's
local port, reading and writing through the check code, reservations, TAS and STC at the target (R57, R58). -/

namespace Sys2Proof.Machine

/-- The registers of rule `r` on the FWALL page: shadow, and the active copies (R252). -/
def fwShadow (r o : Nat) : Nat := 0x200 + 0x20 * r + o
def fwActive (r o : Nat) : Nat := 0x600 + 0x20 * r + o

/-- Active rule `r` matches a byte for an initiator (R241). -/
def State.fwMatches (s : State) (n iid a r : Nat) : Bool :=
  let p := pgFwall n
  let at' := s.reg p (fwActive r 0x10)
  let base := s.fld p (fwActive r 0) 47 6
  let lim := s.fld p (fwActive r 8) 47 6
  bitsOf at' 0 0 == 1 && decide (base ≤ a / 64) && decide (a / 64 ≤ lim) &&
  decide (bitsOf at' 47 32 ≤ iid) && decide (iid ≤ bitsOf at' 63 48)

/-- Permissions a request needs: bit 0 R, bit 1 W (R242). -/
def fwNeed : ReqKind → Nat
  | .load => 1
  | .ldrs => 1
  | .tas => 3
  | _ => 2

/-- A denial: the cause code and the rule (DENYINF). -/
def State.fwByte (s : State) (n iid need a : Nat) : Option (Nat × Nat) :=
  match (List.range 32).filter fun r => s.fwMatches n iid a r with
  | [] => none
  | [r] => if Nat.land (bitsOf (s.reg (pgFwall n) (fwActive r 0x10)) 2 1) need = need then none else some (0, r)
  | r :: _ => some (1, r)

/-- The firewall's judgement of a request on region `n`: the denied byte, cause and rule (R241, R250). -/
def State.fwDenies (s : State) (n iid need a size : Nat) : Option (Nat × Nat × Nat) :=
  let own := decide (iid / 4 = n) || decide (iid = 0x100 + n)
  if s.bit (pgFwall n) 0x108 0 ∧ own = false then some (a, 2, 0x3F)
  else if s.bit (pgFwall n) 0x100 0 = false then none
  else match s.fwByte n iid need a with
    | some (c, r) => some (a, c, r)
    | none => (s.fwByte n iid need (a + size - 1)).map fun e => (a + size - 1, e.1, e.2)

/-- Record a denial and report it (R251, DENYINF). -/
def State.fwRecord (s : State) (n iid need : Nat) (d : Nat × Nat × Nat) : State :=
  let p := pgFwall n
  let s := s.countSat p 0x120 47 32
  let s :=
    if s.bit p 0x120 8 then s
    else
      let kind := if need = 1 then 0 else if need = 2 then 1 else 2
      let s := s.setReg p 0x118 (BitVec.ofNat 64 (d.1 % 2 ^ 48))
      let w := s.reg p 0x120
      s.setReg p 0x120 (withBits (withBits (withBits (withBits (withBits w 63 48 iid) 21 16 d.2.2) 8 8 1) 5 4 d.2.1) 1 0 kind)
  s.report (0x140 + 6 * n + 2) 1 0xFF 0

/-- Judge a request; the state with the denial recorded, and whether it is allowed. -/
def State.fwJudge (s : State) (n iid : Nat) (k : ReqKind) (a size : Nat) : State × Bool :=
  match s.fwDenies n iid (fwNeed k) a size with
  | some d => (s.fwRecord n iid (fwNeed k) d, false)
  | none => (s, true)

/-- Region `n` is present and its domain is on (DOMSTAT.REGION). -/
def State.regionOn (s : State) (n : Nat) : Bool := decide (n < s.nRegions) && s.bit pgPwr 0x138 n

/-- Region `n`'s SRAM accepts requests (R225). -/
def State.sramReady (s : State) (n : Nat) : Bool := s.regionOn n && s.bit (pgRegion n) 0x100 0

/-- The region's memory. -/
def State.sramOf (s : State) (n : Nat) : Ram := AMap.get s.sram (fun _ => Ram.unwritten 0) n
def State.setSram (s : State) (n : Nat) (r : Ram) : State :=
  { s with sram := AMap.set s.sram (fun _ => Ram.unwritten 0) n r }

/-- The first address of region `n`'s SRAM (R26). -/
def sramBase (n : Nat) : Nat := 0x10000000 + n * 0x400000

/-- The bank of an address (R224). -/
def sramBank (a : Nat) : Nat := a / 64 % 8

/-- Vector 22 of a region's memory events (RIRQ). -/
def State.regionIrq (s : State) (n : Nat) : State := s.irq (4 * n + s.fld (pgRegion n) 0x120 3 2) 22

/-- A corrected word found by a read of region SRAM (R226); `wb`: the bank owes a write-back. -/
def State.sramFixed (s : State) (n wa : Nat) (wb inj : Bool) : State :=
  let p := pgRegion n
  let a := 8 * wa
  let s := s.countSat p 0x108 31 16
  let s := s.setReg p 0x108 (withBits (withBits (s.reg p 0x108) 48 48 1) 2 0 (sramBank a))
  let s := s.setReg p 0x110 (BitVec.ofNat 64 a)
  let s := s.reportInj (0x140 + 6 * n) 1 0xFF (BitVec.ofNat 64 a) inj
  let old := AMap.get s.sramWb (fun _ => []) n
  let s := if wb ∧ old.contains wa = false then { s with sramWb := AMap.set s.sramWb (fun _ => []) n (old ++ [wa]) } else s
  let thr := s.fld p 0x120 31 16
  if s.bit p 0x120 0 ∧ thr ≠ 0 ∧ s.fld p 0x108 31 16 % thr = 0 then s.regionIrq n else s

/-- An uncorrectable word found by a read of region SRAM (R226). -/
def State.sramBad (s : State) (n wa : Nat) (inj : Bool) : State :=
  let p := pgRegion n
  let a := 8 * wa
  let s := s.countSat p 0x108 47 32
  let s := s.setReg p 0x108 (withBits (withBits (s.reg p 0x108) 49 49 1) 2 0 (sramBank a))
  let s := s.setReg p 0x118 (BitVec.ofNat 64 a)
  let s := s.reportInj (0x140 + 6 * n + 1) 1 0xFF (BitVec.ofNat 64 a) inj
  if s.bit p 0x120 1 then s.regionIrq n else s

/-- Read up to 16 bytes of region SRAM at address `a`. Words are kept by their address in the whole map. -/
def State.sramRead (s : State) (n a size : Nat) : State × Option Quad :=
  let i := s.injEcc (pgRegion n) (sramBank a)
  let r := (s.sramOf n).readBytes i a size
  let s := s.injEccUse (pgRegion n) i (checksOf a size)
  let s := r.fixed.foldl (fun s wa => s.sramFixed n wa true (i.left != 0)) s
  let s := r.bad.foldl (fun s wa => s.sramBad n wa (i.left != 0)) s
  (s, if r.bad.isEmpty then some r.data else none)

/-- Every reservation on a granule that a write touches is lost (R58). -/
def State.dropResv (s : State) (a size : Nat) : State :=
  { s with resv := s.resv.filter fun e => decide (e.2 < granule a) || decide (granule (a + size - 1) < e.2) }

/-- The bytes of an access's data. -/
def quadBytes (q : Quad) (size : Nat) : List Nat := bytesOf q.toNat size

/-- Store up to 16 bytes of region SRAM whose words are correctable: no bank owes them a write-back any more, reservations on
them are lost, and a write window feeds its CRC context (R58, R218, R226, R258). -/
def State.sramStore (s : State) (n a size : Nat) (q : Quad) : State :=
  let s := s.setSram n ((s.sramOf n).storeBytes a size q)
  let old := AMap.get s.sramWb (fun _ => []) n
  let keep := old.filter fun w => decide (w < a / 8) || decide ((a + size - 1) / 8 < w)
  let s : State := { s with sramWb := AMap.set s.sramWb (fun _ => []) n keep }
  (s.dropResv a size).crcWindow n a (quadBytes q size)

/-- Write up to 16 bytes of region SRAM. `false`: refused with an error response, and nothing is written (R219). -/
def State.sramWrite (s : State) (n a size : Nat) (q : Quad) : State × Bool :=
  let r := s.sramOf n
  let bad := partialBad r a size
  let s := (partialFixed r a size).foldl (fun s wa => s.sramFixed n wa (!bad.isEmpty) false) s
  if bad.isEmpty then (s.sramStore n a size q, true) else (bad.foldl (fun s wa => s.sramBad n wa false) s, false)

/-- The reservation of a triad on a granule (R58). -/
def State.holdsResv (s : State) (t g : Nat) : Bool := s.resv.contains (t, g)

/-- LDRS at issue sets the triad's one reservation (R58). -/
def State.setResv (s : State) (t g : Nat) : State :=
  { s with resv := (s.resv.filter fun e => e.1 != t) ++ [(t, g)] }

/-- Perform a request at a memory through its read, its write and, for the byte that a TAS has read, its store alone (R57, R58,
R135, R136, R219). -/
def performAt (rd : State → Nat → Nat → State × Option Quad) (wr : State → Nat → Nat → Quad → State × Bool)
    (st : State → Nat → State) (s : State) (r : FabReq) : State × Resp :=
  match r.kind with
  | .load =>
    match rd s r.addr r.size with
    | (s', some q) => (s', .ok q)
    | (s', none) => (s', .err)
  | .ldrs =>
    match rd (s.setResv r.iid (granule r.addr)) r.addr r.size with
    | (s', some q) => (s', .ok q)
    | (s', none) => (s', .err)
  | .tas =>
    match rd s r.addr 1 with
    | (s', some q) => (st s' r.addr, .ok q)
    | (s', none) => (s', .err)
  | .stc =>
    if r.flag ∧ s.holdsResv r.iid (granule r.addr) then
      match wr s r.addr r.size r.data with
      | (s', true) => (s', .ok 1)
      | (s', false) => (s', .err)
    else (s, .ok 0)
  | _ =>
    match wr s r.addr r.size r.data with
    | (s', true) => (s', .ok 0)
    | (s', false) => (s', .err)

/-- A request that the firewall let pass is performed at region `n`'s banks or its CRC unit (R224, R258). -/
def State.sramPerform (s : State) (n : Nat) (r : FabReq) : State × Resp :=
  if r.kind = .crc then s.crcStream n (r.iid % 4) (quadBytes r.data r.size)
  else if s.sramReady n = false then (s, .err)
  else performAt (fun s a k => s.sramRead n a k) (fun s a k q => s.sramWrite n a k q)
      (fun s a => s.sramStore n a 1 1) s r

end Sys2Proof.Machine
end

