-- ==== Sys2Proof/Machine/Ddr.lean ====
section
/-! DEFINITION. The DDR4 channels (R228 to R240): which channels serve a window, reads and writes of single channels
and mirrored pairs, upkeep in maintenance windows, training, mirroring, retirement. -/

namespace Sys2Proof.Machine

/-- DSTAT.STATE of channel `k` (DSTAT): 0 Off, 1 Unconfigured, 2 Training, 3 Ready, 4 Mirrored, 5 Retraining, 6 Resync,
7 Offline, 8 Retired, 9 Initialising, 10 Self-refresh. -/
def State.dstate (s : State) (k : Nat) : Nat := s.fld (pgDdrc k) 0x110 3 0
/-- A channel changes state; training takes new firmware (R414). -/
def State.setDstate (s : State) (k v : Nat) : State :=
  let s := if v = 2 ∨ v = 5 then s.setFld pgImage 0x128 (40 + k) (40 + k) 0 else s
  s.setFld (pgDdrc k) 0x110 3 0 v

/-- The other channel of a pair. -/
def partner (k : Nat) : Nat := if k % 2 = 0 then k + 1 else k - 1

/-- The even channel of a pair. -/
def pairBase (k : Nat) : Nat := k / 2 * 2

/-- MIRROR is set in the even channel of `k`'s pair (R234). -/
def State.mirrored (s : State) (k : Nat) : Bool := s.bit (pgDdrc (pairBase k)) 0x108 1

/-- A channel's capacity in GiB by its organisation (R227). -/
def State.ddrGiB (s : State) (k : Nat) : Nat :=
  let c := s.reg (pgDdrc k) 0x100
  if bitsOf c 0 0 = 0 then 0
  else
    let ranks := bitsOf c 16 16 + 1
    let devs := if bitsOf c 13 13 = 1 then 16 else 8
    ranks * devs * (bitsOf c 15 14 + 1)

/-- MLEN (R230). -/
def State.ddrMlen (s : State) (k : Nat) : Nat :=
  let c := s.reg (pgDdrc k) 0x100
  140 + (if bitsOf c 15 14 = 0 then 350 else 550) + 80 + 50 * bitsOf c 39 32

/-- The channel's domain is on (DOMSTAT.DDR). -/
def State.ddrOn (s : State) (k : Nat) : Bool := s.bit pgPwr 0x138 (16 + k)

/-- Channel `k`'s memory; addresses count from the window's start. -/
def State.ddrOf (s : State) (k : Nat) : Ram := AMap.get s.ddr (fun _ => Ram.unwritten 0) k
def State.setDdr (s : State) (k : Nat) (r : Ram) : State :=
  { s with ddr := AMap.set s.ddr (fun _ => Ram.unwritten 0) k r }

/-- Who serves a window: one channel alone (with whether its partner's granules are marked by writes, or its partner
also written), both channels of a mirrored pair, or nobody (R228, R234 to R237). -/
inductive DdrServe where
  | none
  | one (k : Nat)
  | alone (k : Nat) (mark : Bool)
  | resync (from' dst : Nat)
  | both (k : Nat)
deriving DecidableEq, Repr

/-- Who serves the window of channel `k`. -/
def State.ddrServe (s : State) (k : Nat) : DdrServe :=
  if s.mirrored k then
    if k % 2 = 1 then .none
    else
      let side (y x : Nat) : DdrServe :=
        match s.dstate x with
        | 5 => .alone y true
        | 7 => .alone y true
        | 6 => .resync y x
        | 8 => .alone y false
        | _ => .none
      if s.dstate k = 4 ∧ s.dstate (k + 1) = 4 then .both k
      else if s.dstate k = 3 then side k (k + 1)
      else if s.dstate (k + 1) = 3 then side (k + 1) k
      else .none
  else if s.dstate k = 3 ∧ s.bit (pgDdrc k) 0x100 0 then .one k
  else .none

/-- The first address of channel `k`'s window (R228). -/
def ddrBase (k : Nat) : Nat := 0x10000000000 + k * 0x1000000000

/-- The physical address of word `wa` of channel `k`: both channels of a mirrored pair hold the window of the even one (R217, R234). -/
def State.ddrAddr (s : State) (k wa : Nat) : Nat := ddrBase (if s.mirrored k then pairBase k else k) + 8 * wa

/-- The column of physical address bit 36, in which the windows of a pair differ (R217, R228). -/
def windowCol : Byte := BitVec.ofNat 8 ((addrCols.drop 33).headD 0)

/-- The channel takes requests: its domain is on and not switching (R16, R350). -/
def State.ddrLive (s : State) (k : Nat) : Bool := s.ddrOn k && (AMap.find? s.switching (80 + k)).isNone

/-- DERR's flag, DERRADR's kind and the counter of an event on channel `k` (DERR, DERRADR): 0 corrected, 1
uncorrectable, 2 mirror mismatch, 3 recovered from the partner. -/
def State.ddrEvent (s : State) (k kind a : Nat) (inj : Bool) : State :=
  let p := pgDdrc k
  let s := match kind with
    | 0 => (s.countSat p 0x118 31 16).setFld p 0x118 48 48 1
    | 1 => (s.countSat p 0x118 47 32).setFld p 0x118 49 49 1
    | 2 => s.setFld p 0x118 50 50 1
    | _ => s.countSat p 0x118 15 0
  let s := s.setReg p 0x120 (BitVec.ofNat 64 (a / 8 * 8 % 2 ^ 48 + kind * 2 ^ 48))
  let d := BitVec.ofNat 64 (a / 8 * 8)
  match kind with
  | 0 => s.reportInj (0x1B0 + 4 * k) 1 0xFF d inj
  | 1 => s.reportInj (0x1B0 + 4 * k + 1) 1 0xFF d inj
  | 2 => s.reportInj (0x1B0 + 4 * k + 2) 1 0xFF d inj
  | _ => s.reportInj (0x1B0 + 4 * k) 2 0xFF d inj

/-- Queue a word for write-back, up to 16 entries (R232). The high entries (bit 40) take the partner's word. -/
def State.ddrQueueWb (s : State) (k w : Nat) : State :=
  let old := AMap.get s.ddrWb (fun _ => []) k
  if old.contains w ∨ 16 ≤ old.length then s
  else { s with ddrWb := AMap.set s.ddrWb (fun _ => []) k (old ++ [w]) }

/-- A write-back entry that takes the word from the partner (R235). -/
def fromPartner : Nat := 0x10000000000

/-- A word that channel `k` read corrected is counted and reported; `wb`: its write-back is queued (R219, R232). -/
def State.ddrFixed (s : State) (k wa : Nat) (wb inj : Bool) : State :=
  let s := s.ddrEvent k 0 (s.ddrAddr k wa) inj
  if wb then s.ddrQueueWb k wa else s

/-- A read served by one channel: every word is checked, counted and reported (R232). -/
def State.ddrReadOne (s : State) (k o size : Nat) : State × Option Quad :=
  let i := s.injEcc (pgDdrc k) 0
  let inj := i.left != 0
  let r := (s.ddrOf k).readBytes i o size
  let s := s.injEccUse (pgDdrc k) i (checksOf o size)
  let s := r.fixed.foldl (fun s wa => s.ddrFixed k wa true inj) s
  let s := r.bad.foldl (fun s wa => s.ddrEvent k 1 (s.ddrAddr k wa) inj) s
  (s, if r.bad.isEmpty then some r.data else none)

/-- One word of a mirrored pair, both channels compared (R235): `a`, `b` what the channels read. -/
def State.ddrPairWord (s : State) (k wa : Nat) (a b : WordRead) (wb i0 i1 : Bool) : State × Option Word :=
  let note (s : State) (k : Nat) (x : WordRead) (i : Bool) : State := match x with
    | .fixed _ => s.ddrFixed k wa wb i
    | _ => s
  let heal (s : State) (k : Nat) (i : Bool) : State :=
    let s := s.ddrEvent k 3 (s.ddrAddr k wa) i
    if wb then s.ddrQueueWb k (fromPartner + wa) else s
  match a, b with
  | .bad, .bad => (s.ddrEvent k 1 (s.ddrAddr k wa) (i0 || i1), none)
  | .bad, b => (heal (note s (k + 1) b i1) k i0, some b.val)
  | a, .bad => (heal (note s k a i0) (k + 1) i1, some a.val)
  | a, b =>
    if a.val = b.val then (note (note s k a i0) (k + 1) b i1, some a.val)
    else (s.ddrEvent k 2 (s.ddrAddr k wa) (i0 || i1), none)

/-- The words of a read of a mirrored pair, in order (R235). -/
def State.ddrPairSegs (k : Nat) (i0 i1 : Inject) : List (Nat × Nat × Nat × Nat) → State → Option Quad → State × Option Quad
  | [], s, q => (s, q)
  | e :: es, s, q =>
    let x := s.ddrPairWord k e.1 ((s.ddrOf k).readWord e.1 i0.next) ((s.ddrOf (k + 1)).readWord e.1 i1.next) true
      (i0.left != 0) (i1.left != 0)
    let q' : Option Quad := match q, x.2 with
      | some q, some v => some (q ||| placeWord (v >>> (8 * e.2.1)) e.2.2.1 e.2.2.2)
      | _, _ => none
    State.ddrPairSegs k ⟨i0.syn, i0.left - 1⟩ ⟨i1.syn, i1.left - 1⟩ es x.1 q'

/-- A read of a mirrored pair, both channels compared (R235). -/
def State.ddrReadBoth (s : State) (k o size : Nat) : State × Option Quad :=
  let i0 := s.injEcc (pgDdrc k) 0
  let i1 := s.injEcc (pgDdrc (k + 1)) 0
  let n := checksOf o size
  let s := (s.injEccUse (pgDdrc k) i0 n).injEccUse (pgDdrc (k + 1)) i1 n
  State.ddrPairSegs k i0 i1 (segments 3 o size 0) s (some 0)

/-- Mark the 1 MiB granules of a write dirty on the channel that must copy them (R236). -/
def State.ddrMark (s : State) (x o size : Nat) : State :=
  let old := AMap.get s.ddrDirty (fun _ => []) x
  let add (l : List Nat) (g : Nat) : List Nat := if l.contains g then l else l ++ [g]
  { s with ddrDirty := AMap.set s.ddrDirty (fun _ => []) x (add (add old (o / 0x100000)) ((o + size - 1) / 0x100000)) }

/-- Read bytes at offset `o` of channel `k`'s window. -/
def State.ddrRead (s : State) (k o size : Nat) : State × Option Quad :=
  match s.ddrServe k with
  | .none => (s, none)
  | .one c => s.ddrReadOne c o size
  | .alone c _ => s.ddrReadOne c o size
  | .resync c _ => s.ddrReadOne c o size
  | .both c => s.ddrReadBoth c o size

/-- The read part of a partial write of word `wa` of a window (R219): recorded as a read, and whether the word can be written. -/
def State.ddrReadPart (s : State) (k wa : Nat) : State × Bool :=
  let one (c : Nat) : State × Bool :=
    match (s.ddrOf c).readWord wa 0 with
    | .good _ => (s, true)
    | .fixed _ => (s.ddrFixed c wa false false, true)
    | .bad => (s.ddrEvent c 1 (s.ddrAddr c wa) false, false)
  match s.ddrServe k with
  | .none => (s, false)
  | .one c => one c
  | .alone c _ => one c
  | .resync c _ => one c
  | .both c =>
    let x := s.ddrPairWord c wa ((s.ddrOf c).readWord wa 0) ((s.ddrOf (c + 1)).readWord wa 0) false false false
    (x.1, x.2.isSome)

/-- The value that a window's word reads as. -/
def State.ddrValue (s : State) (k wa : Nat) : Word :=
  let one (c : Nat) : Word := ((s.ddrOf c).readWord wa 0).val
  match s.ddrServe k with
  | .none => 0
  | .one c => one c
  | .alone c _ => one c
  | .resync c _ => one c
  | .both c => match (s.ddrOf c).readWord wa 0 with
    | .bad => one (c + 1)
    | x => x.val

/-- Store bytes whose words can be written, in every channel that takes the window's writes; the granules that a partner must copy
are marked, and reservations are lost (R58, R218, R219, R235, R236). -/
def State.ddrStore (s : State) (k o size : Nat) (q : Quad) : State :=
  let ws := wholeWords (s.ddrValue k) o size q
  let put (s : State) (c : Nat) : State := s.setDdr c ((s.ddrOf c).setWords ws)
  let s' := match s.ddrServe k with
    | .none => s
    | .one c => put s c
    | .alone c mark => if mark then (put s c).ddrMark (partner c) o size else put s c
    | .resync y x => put (put s y) x
    | .both c => put (put s c) (c + 1)
  s'.dropResv (ddrBase k + o) size

/-- Write bytes at offset `o` of channel `k`'s window: refused with nothing written where a partial write meets a word that it cannot
read (R219). -/
def State.ddrWrite (s : State) (k o size : Nat) (q : Quad) : State × Bool :=
  let parts := (segments 3 o size 0).filter fun e => decide (e.2.2.1 < 8)
  let x := parts.foldl (fun (x : State × Bool) e =>
    let y := x.1.ddrReadPart k e.1
    (y.1, x.2 && y.2)) (s, decide (s.ddrServe k ≠ .none))
  if x.2 then (x.1.ddrStore k o size q, true) else x

/-- Perform a request at DDR4 (R228, R229): a bus error above the capacity or with nobody serving. -/
def State.ddrPerform (s : State) (k : Nat) (r : FabReq) : State × Resp :=
  let o := r.addr - ddrBase k
  if o + r.size > s.ddrGiB k * 0x40000000 ∨ s.ddrServe k = .none then (s, .err)
  else performAt (fun s a n => s.ddrRead k (a - ddrBase k) n) (fun s a n q => s.ddrWrite k (a - ddrBase k) n q)
    (fun s a => s.ddrStore k (a - ddrBase k) 1 1) s r

/-- DSTAT.REFUSE (DSTAT). -/
def State.ddrRefuse (s : State) (k : Nat) : State := s.setFld (pgDdrc k) 0x110 8 8 1

/-- A channel's contents are undefined from now on (R220, R238). -/
def State.ddrUndefined (s : State) (k : Nat) : State :=
  let e := s.fresh
  let s : State := { s with fresh := e + 1, ddrWb := AMap.drop k s.ddrWb }
  s.setDdr k (Ram.unwritten (e + 1))

/-- Training of channel `k` ends (R233, R236, R238): TRAIN records it; one that fails or takes more than 50 ms leaves the channel
Offline, and reports. -/
def State.trainingEnd (s : State) (k : Nat) (pass : Bool) (us : Nat) : State :=
  let p := pgDdrc k
  let st := s.dstate k
  if st ≠ 2 ∧ st ≠ 5 then s
  else
    let s := s.setFld p 0x138 31 16 (min us 0xFFFF)
    if pass = true ∧ us ≤ 50000 then
      let s := s.countSat p 0x138 15 0
      if st = 2 then (s.ddrUndefined k).setDstate k 3 else s.setDstate k 6
    else (s.setDstate k 7).report (0x1B0 + 4 * k + 3) 1 0xFF 0

/-- Retirement of a channel by a write or a reaction action (R236, R237, R270): the pair's partner serves alone or goes
Offline. -/
def State.ddrRetire (s : State) (k : Nat) : State :=
  let s1 := (s.setDstate k 8).setFld (pgDdrc k) 0x110 9 9 1
  if s.mirrored k then
    let y := partner k
    match s.dstate y with
    | 4 => s1.setDstate y 3
    | 5 => s1.setDstate y 7
    | 6 => s1.setDstate y 7
    | _ => s1
  else s1

/-- One burst of 64 bytes at a burst index of a channel: correctable words are written back, uncorrectable ones stay
(R232 patrol scrub). -/
def State.scrubBurst (s : State) (k b : Nat) : State :=
  (List.range 8).foldl (fun s j =>
    let wa := 8 * b + j
    match (s.ddrOf k).readWord wa 0 with
    | .good _ => s
    | .fixed v => (s.setDdr k ((s.ddrOf k).setWord wa v)).ddrEvent k 0 (s.ddrAddr k wa) false
    | .bad => s.ddrEvent k 1 (s.ddrAddr k wa) false) s

/-- The scrubber's next burst: POS moves on, PASSES counts a whole pass (SCRUB). -/
def State.scrubNext (s : State) (k : Nat) : State :=
  let p := pgDdrc k
  let pos := s.fld p 0x128 29 0
  let n := s.ddrGiB k * 0x1000000
  let s := s.scrubBurst k pos
  if pos + 1 < n then s.setFld p 0x128 29 0 (pos + 1)
  else (s.setFld p 0x128 29 0 0).setFld p 0x128 63 32 ((s.fld p 0x128 63 32 + 1) % 2 ^ 32)

/-- One queued write-back (R232, R235). The partner's word is taken only while both channels serve: later it may be stale. -/
def State.ddrWriteBack (s : State) (k w : Nat) : State :=
  let wa := w % fromPartner
  if fromPartner ≤ w ∧ s.ddrServe (pairBase k) ≠ .both (pairBase k) then s
  else
    let r := s.ddrOf (if fromPartner ≤ w then partner k else k)
    match r.readWord wa 0 with
    | .bad => s
    | v => s.setDdr k ((s.ddrOf k).setWord wa v.val)

/-- The copy of channel `x` is complete: both channels are Mirrored (R236). -/
def State.resyncDone (s : State) (x : Nat) : State :=
  if s.dstate (partner x) = 3 then ((s.setDstate x 4).setDstate (partner x) 4).advisory (pgDdrc x) 1 0xFF else s

/-- One resync burst of 64 bytes: the last of a granule's 16,384 bursts completes its copy from the partner, check
bits as read; writes meanwhile go to both channels, so the copy is the same as burst by burst. After the last granule
both channels are Mirrored (R232, R236). -/
def State.resyncStep (s : State) (x : Nat) : State :=
  let pos := AMap.get s.resync (fun _ => 0) x
  match AMap.get s.ddrDirty (fun _ => []) x with
  | [] => s.resyncDone x
  | g :: gs =>
    if pos + 1 < 16384 then { s with resync := AMap.set s.resync (fun _ => 0) x (pos + 1) }
    else
      let s := s.setDdr x ((s.ddrOf x).copyGranule (s.ddrOf (partner x)) g)
      let s : State := { s with
        ddrDirty := AMap.set s.ddrDirty (fun _ => []) x gs, resync := AMap.drop x s.resync }
      if gs.isEmpty then s.resyncDone x else s

/-- The bursts of a window, in their order: write-backs, resync copies, patrol scrub (R232). -/
def State.windowBursts (k : Nat) : Nat → State → State
  | 0, s => s
  | n + 1, s =>
    match AMap.get s.ddrWb (fun _ => []) k with
    | w :: ws =>
      let s := s.ddrWriteBack k w
      State.windowBursts k n { s with ddrWb := AMap.set s.ddrWb (fun _ => []) k ws }
    | [] =>
      if s.dstate k = 6 then State.windowBursts k n (s.resyncStep k)
      else if s.dstate (partner k) = 6 ∧ s.mirrored k then s
      else State.windowBursts k n (s.scrubNext k)

end Sys2Proof.Machine
end

