-- ==== Sys2Proof/Machine/Page.lean ====
section
/-! DEFINITION. Writing a register page (R4 to R8, R418 to R428, R453): what every write meets whatever its register:
presence, reserved bits, locks, access types, PGGEN, PGERR, PGINJ. -/

namespace Sys2Proof.Machine

/-- What a write's acknowledgement states (R453). -/
inductive WOut where
  | accepted | refused | rejected
deriving DecidableEq, Repr

/-- A write as a page sees it: initiator, offset of the register, the bits it covers (one or both halves, R4), the
value in place. -/
structure Wr where
  iid : Nat
  page : Nat
  off : Nat
  cover : Word
  v : Word
deriving DecidableEq, Repr

/-- A 64-bit write. -/
def wr64 (iid page off : Nat) (v : Word) : Wr := ⟨iid, page, off, 0xFFFFFFFFFFFFFFFF, v⟩

/-- A write of 4 or 8 bytes at a page offset. -/
def wrAt (iid page off size : Nat) (v : Word) : Wr :=
  if size = 8 then wr64 iid page off v
  else if off % 8 = 0 then ⟨iid, page, off, 0xFFFFFFFF, v &&& 0xFFFFFFFF⟩
  else ⟨iid, page, off / 8 * 8, 0xFFFFFFFF00000000, (v &&& 0xFFFFFFFF) <<< 32⟩

/-- The pages a safety rule covers (R428). -/
def isSafety (k : PageKind) : Bool :=
  match k with
  | .device | .warden | .fcol | .rta0 | .rta1 | .rti0 | .rti1 | .pwr | .timebase | .bist | .image | .triad | .sched
  | .fwall | .lsched => true
  | _ => false

/-- PGLOCK of a page (R424). -/
def State.locked (s : State) (page : Nat) : Bool := s.bit page 0x30 0

/-- The written value of a register by its fields' access types (R5); `locked` holds RWL fields. -/
def nextValue (row : RegRow) (old : Word) (w : Wr) (locked : Bool) : Word :=
  row.fields.foldl (fun acc f =>
    let m := bitMask f.hi f.lo &&& w.cover
    match f.ty with
    | .rw | .rws => (acc &&& ~~~ m) ||| (w.v &&& m)
    | .rwl => if locked then acc else (acc &&& ~~~ m) ||| (w.v &&& m)
    | .w1c => acc &&& ~~~ (w.v &&& m)
    | .w1s => acc ||| (w.v &&& m)
    | .ro => acc
    | .wo => acc) old

/-- A write that would change an RWL field (R8). -/
def touchesLocked (row : RegRow) (old : Word) (w : Wr) : Bool :=
  row.fields.any fun f => decide (f.ty = .rwl) && decide ((old ^^^ w.v) &&& (bitMask f.hi f.lo &&& w.cover) ≠ 0)

/-- A nonzero write to a reserved bit (R7). -/
def touchesReserved (row : RegRow) (w : Wr) : Bool := decide (w.v &&& w.cover &&& ~~~ row.mask ≠ 0)

/-- The bits of RW, RWL and RWS fields (R425). -/
def countedMask (row : RegRow) : Word :=
  row.fields.foldl (fun a f =>
    match f.ty with
    | .rw | .rws | .rwl => a ||| bitMask f.hi f.lo
    | _ => a) 0

/-- The written bits of a WO, W1C or whole-register action: the value under the write's cover. -/
def Wr.bits (w : Wr) (hi lo : Nat) : Nat := bitsOf (w.v &&& w.cover) hi lo

/-- The write asks bit `i` of a WO field. -/
def Wr.sets (w : Wr) (i : Nat) : Bool := w.bits i i == 1

/-- PGGEN of a page that counts its accepted writes (R425). -/
def countsWrites (k : PageKind) : Bool :=
  match k with
  | .sched | .lsched | .fwall | .fcol => false
  | _ => true

/-- The stored change of an accepted write, counted by PGGEN where it changed a counted field (R425). -/
def State.storeReg (s : State) (k : PageKind) (row : RegRow) (w : Wr) (old new : Word) : State :=
  let s := s.setReg w.page w.off new
  if w.off ≥ 0x100 ∧ countsWrites k = true ∧ (old ^^^ new) &&& countedMask row ≠ 0 then
    { s with pggen := AMap.set s.pggen (fun _ => 0) w.page (AMap.get s.pggen (fun _ => 0) w.page + 1) }
  else s

/-- The kinds of injection a page accepts (PGCAP.INJKINDS, R420). -/
def injKinds (dies p : Nat) : Nat :=
  match pageRow dies p with
  | some r => r.injKinds
  | none => 0

/-- The fault source of a rail injection of a page and the number of its targets (R288, R420). -/
def railTarget (k : PageKind) (i : Nat) : Option (Nat × Nat) :=
  match k with
  | .triad => some (5 * i, 5)
  | .region => some (0x140 + 6 * i, 6)
  | .ddrc => some (0x1B0 + 4 * i, 4)
  | .laneq => some (0x1D0 + 3 * i, 3)
  | .fcol => some (0x1A8, 8)
  | .warden => some (0x1A9, 1)
  | .timebase => some (0x1AB, 1)
  | .pwr => some (0x1EF, 1)
  | .bist => some (0x1F0, 1)
  | .vme | .vmemap | .vmepart => some (0x1E8, 1)
  | .canfd => some (0x1EB, 1)
  | .uart | .mgmt | .spif | .i2c | .gpio => some (0x1EC, 1)
  | .device | .svc | .image | .rta0 | .rta1 | .rti0 | .rti1 => some (0x1F1, 1)
  | _ => none

/-- A free value: no rule states it (assumption 3). -/
def State.freeValue (s : State) : State × Word := ({ s with fresh := s.fresh + 1 }, Config.freeValue s.fresh)

/-- A rail injection drives its source at once (R288): one event, or a broken pair. The event code of an injected error
is stated by no rule (assumption 13). -/
def State.injectRail (s : State) (k : PageKind) (i page : Nat) : State :=
  match railTarget k i with
  | none => s
  | some (src, n) =>
    let tgt := s.injTarget page
    if n ≤ tgt then s
    else
      let rail := decide (s.injKind page = 6)
      match s.freeValue with
      | (s, code) =>
        let s := s.reportEv ⟨src + tgt, if rail then 0 else code.toNat % 65536, fabUnit k i, 0, rail, true, false⟩
        s.injUse page (s.injCount page)

/-- A write of PGINJ: ARM acts only while FCTL.INJEN is set and the page lists the kind (R288, R289). -/
def State.writeInj (s : State) (k : PageKind) (i : Nat) (w : Wr) (new : Word) : State × WOut :=
  let kind := bitsOf new 6 4
  if w.sets 0 ∧ s.bit pgFcol 0x100 0 = false then (s.pageError w.page w.iid w.off 2, .rejected)
  else if kind ≠ 0 ∧ bitAt (injKinds s.dies w.page) kind = false then (s, .accepted)
  else
    let s := s.setReg w.page w.off new
    let s : State := { s with injMade := AMap.drop w.page s.injMade }
    (if bitsOf new 0 0 = 1 ∧ (kind = 5 ∨ kind = 6) then s.injectRail k i w.page else s, .accepted)

/-- The header's writable registers (R421 to R424). -/
def State.writeHeader (s : State) (k : PageKind) (i : Nat) (row : RegRow) (w : Wr) (old new : Word) : State × WOut :=
  if w.off = 0x28 then s.writeInj k i w new else (s.storeReg k row w old new, .accepted)

/-- What a write meets before its register's own rule: rejected for reserved bits; else the old value, the value the
access types give, and whether a locked field was hit (R7, R8, R428). -/
inductive WPlan where
  | absent
  | reserved
  | go (row : RegRow) (old new : Word) (lockHit : Bool)
deriving DecidableEq, Repr

/-- Plan a write to a present page. -/
def State.planWrite (s : State) (k : PageKind) (w : Wr) : WPlan :=
  let strict := isSafety k || s.locked w.page
  match regRow k w.off with
  | none => if strict && decide (w.v &&& w.cover ≠ 0) then .reserved else .absent
  | some row =>
    if strict && touchesReserved row w then .reserved
    else
      let old := s.reg w.page w.off
      let lk := s.locked w.page
      .go row old (nextValue row old w lk) (lk && touchesLocked row old w)

end Sys2Proof.Machine
end

