-- ==== Sys2Proof/Machine/Mordant.lean ====
section
/-! DEFINITION. Triad modes and mordanting (R68, R74 to R79): transitions a TMODE write asks, transfer rounds, the pause,
the restart. -/

namespace Sys2Proof.Machine

/-- The copy a Pair mode leaves out. -/
def thirdOf (m : Nat) : Nat := if m = 2 then 2 else if m = 3 then 1 else 0

/-- Mordanting is in progress. -/
def Triad.mordBusy (d : Triad) : Bool := d.mord == .rounds || d.mord == .awaiting || d.mord == .pause

/-- TSTAT.REFUSE is set (TSTAT). -/
def State.triadRefuse (s : State) (t : Nat) : State := s.setFld (pgTriad t) 0x110 16 16 1

/-- The active table declares that the triad may pause inside jobs (R76, R202). -/
def State.mayPause (s : State) (t : Nat) : Bool := s.timeB.actGen != 0 && triadPause s.timeB.active t

/-- PAUSEAT. -/
def State.pauseAt (s : State) (t : Nat) : Bool := s.bit (pgTriad t) 0x178 16

/-- Mordanting of copy `x` may start: a Pair of the other two, the copy Out or Ejected, and R76. -/
def State.mordOk (s : State) (t x : Nat) : Bool :=
  let d := s.triad t
  let st := (s.copy (3 * t + x)).st
  decide (d.mode = pairWithout x) && !d.mordBusy && (decide (st = .out) || decide (st = .ejected)) &&
  (!s.pauseAt t || s.mayPause t)

/-- Mordanting of copy `x` starts: round 1 (R74). -/
def State.mordStart (s : State) (t x : Nat) : State :=
  let s := s.setCopy (3 * t + x) { s.copy (3 * t + x) with st := .mordanting }
  let s := s.setTriad t { s.triad t with mord := .rounds, mordCopy := x, dirty := [], mordSince := s.now }
  let w := s.reg (pgTriad t) 0x170
  s.setReg (pgTriad t) 0x170 (withBits (withBits w 11 8 1) 21 12 0)

/-- A TCM as the transfer path delivers it: correctable words corrected (R74, R223). -/
def cleanTcm (r : Ram) : Ram :=
  r.syn.foldl (fun m e =>
    match m.readWord e.1 0 with
    | .bad => m
    | v => m.setWord e.1 v.val) r

/-- The source's TCM holds an uncorrectable word. -/
def badTcm (r : Ram) : Option Nat := (List.find? (fun e => decide (eccOf e.2 = .bad)) r.syn).map fun e => e.1

/-- A check error on the transfer path or in the returning copy's TCM (R77), DETAIL the leading copy's index (R286). A copy that the
pause held goes on. -/
def State.mordError (s : State) (t : Nat) : State :=
  let x := (s.triad t).mordCopy
  let k := match s.leader t with | some l => (s.copy (3 * t + l)).retcnt | none => 0
  ((s.abandonMord t 2).report (5 * t + 4) 2 x (BitVec.ofNat 64 k)).wakeWaits t

/-- A transfer round ends (R74, R77); `ok`: no check error on the way. -/
def State.mordRoundEnd (s : State) (t : Nat) (ok : Bool) : State :=
  let d := s.triad t
  match d.mord, s.mordSource t with
  | .rounds, some a =>
    if ok = false then s.mordError t
    else
      let src := s.copy (3 * t + a)
      match badTcm src.tcm with
      | some wa => s.tcmBad t a wa false
      | none =>
        let k := 3 * t + d.mordCopy
        let s := s.setCopy k { s.copy k with tcm := cleanTcm src.tcm, writeBack := [] }
        let round := s.fld (pgTriad t) 0x170 11 8
        let n := d.dirty.length
        let s := s.setFld (pgTriad t) 0x170 21 12 n
        if n ≤ s.fld (pgTriad t) 0x178 23 20 ∨ 8 ≤ round then
          let b := match s.leader t with | some l => (s.copy (3 * t + l)).retcnt | none => 0
          s.setTriad t { d with mord := .awaiting, mordSince := s.now, boundary := b }
        else (s.setTriad t { d with dirty := [] }).setFld (pgTriad t) 0x170 11 8 (round + 1)
  | _, _ => s

/-- A run of a job is open on the triad (R184 condition 3). -/
def State.openRun (s : State) (t : Nat) : Bool := ((s.engine (t / 4)).openOf t).isSome

/-- The tints of a copy, on their way and at the voter. -/
def State.tintsOf (s : State) (t c : Nat) : List (Nat × Word) :=
  ((s.copy (3 * t + c)).tints.map fun r => (r.index, tintValue r)) ++
  (((s.triad t).voter.filter fun e => e.1 == c).map fun e => e.2)

/-- The first index at which two lists of tints differ. -/
def tintConflict (xs ys : List (Nat × Word)) : Option Nat :=
  (xs.find? fun e => ys.any fun f => f.1 == e.1 && f.2 != e.2).map fun e => e.1

/-- The pause begins at B once both pair copies stand there, no group of theirs still open for its slot B (R40, R86): with PAUSEAT 0 in WAIT at one index with no job running,
with PAUSEAT 1 at the boundary (R74). The pair's tints below B are compared first. -/
def State.mordPause (s : State) (t : Nat) : State :=
  let d := s.triad t
  match d.mord, s.running t with
  | .awaiting, [a, b] =>
    let ca := s.copy (3 * t + a)
    let cb := s.copy (3 * t + b)
    let inWait (c : Copy) : Bool := match c.hold with | .wait _ => true | _ => false
    let ready :=
      if s.pauseAt t then
        decide (ca.retcnt = d.boundary) && decide (cb.retcnt = d.boundary) && ca.slotA.isNone && cb.slotA.isNone
      else inWait ca && inWait cb && decide (ca.retcnt = cb.retcnt) && !s.openRun t
    if ready = false then s
    else match tintConflict (s.tintsOf t a) (s.tintsOf t b) with
      | some k => s.disagree t k 0 false
      | none =>
        let s := (s.setCopy (3 * t + a) { ca with tints := [] }).setCopy (3 * t + b) { cb with tints := [] }
        s.setTriad t { d with mord := .pause, boundary := ca.retcnt, mordSince := s.now, voter := [], injTints := [] }
  | _, _ => s

/-- The state a returning copy takes from the pair's (R74 step 4): everything architectural, RETCNT B, an empty window. -/
def Copy.returning (c src : Copy) (now : Nat) : Copy :=
  { src with
    st := .running, tcm := cleanTcm src.tcm, tints := [], slotA := none, queue := [], win := none, xStall := 0
    lastRetire := now, writeBack := []
    tags := c.tags, scrubPos := c.scrubPos
    hold := match src.hold with
      | .wait n => .wait n
      | _ => .none }

/-- The final copy ends: the three copies restart at B in Triple; the re-admission is recorded where it followed an
ejection (R74 step 5, R78). -/
def State.mordComplete (s : State) (t : Nat) (ok : Bool) : State :=
  let d := s.triad t
  match d.mord, s.mordSource t with
  | .pause, some a =>
    if ok = false then s.mordError t
    else
      let src := s.copy (3 * t + a)
      match badTcm src.tcm with
      | some wa => s.tcmBad t a wa false
      | none =>
        let x := d.mordCopy
        let k := 3 * t + x
        let s := s.setCopy k ((s.copy k).returning src s.now)
        let same (e : Stamp) : Stamp :=
          { e with taken := if bitAt e.taken a then setBitN e.taken x else clrBitN e.taken x }
        let old := AMap.get d.readm (fun _ => []) x
        let readm :=
          if d.afterEject.contains x then AMap.set d.readm (fun _ => []) x ((s.now :: old).take 3) else d.readm
        let s := s.setTriad t { d with
          mode := 1, mord := .completed, stamps := d.stamps.map same, dirty := [], readm := readm
          afterEject := d.afterEject.filter fun y => y != x }
        let s := s.setFld (pgTriad t) 0x170 47 32 (min (s.now - d.mordSince) 65535)
        (s.advisory (pgTriad t) 1 0xFF).wakeWaits t
  | _, _ => s

/-- The pause has not begun within MORDTMO of the awaiting phase (R77): TIME reaches that moment first. -/
def State.mordTimeout (s : State) (t : Nat) : State :=
  let d := s.triad t
  if d.mord = .awaiting then
    let s := s.advance (d.mordSince + s.fld (pgTriad t) 0x178 15 0 * 1000000)
    ((s.abandonMord t 3).advisory (pgTriad t) 2 0xFF).wakeWaits t
  else s

/-- The copies named start at the start vector (R68, R159). -/
def State.startCopies (s : State) (t m : Nat) : State :=
  let s := (modeLetters m).foldl (fun s c => s.setCopy (3 * t + c) ((s.copy (3 * t + c)).start s.now)) s
  let d := s.triad t
  s.setTriad t { d with
    mode := m, stamps := [], voter := [], injTints := [], replay := [], gate := [], posted := 0, boundary := 0
    afterEject := d.afterEject.filter fun c => !(modeLetters m).contains c }

/-- A copy is Retired. -/
def State.isRetired (s : State) (t c : Nat) : Bool := s.bit (pgTriad t) 0x180 (48 + c)

/-- Power-off of a triad: its copies lose everything (R68, R12). -/
def State.triadOff (s : State) (t : Nat) : State :=
  let s := (List.range 3).foldl (fun s c => s.setCopy (3 * t + c) Copy.off) s
  let d := s.triad t
  s.setTriad t { Triad.off with readm := d.readm, isolated := d.isolated }

/-- Power is on: copies Out or Retired, TCM contents undefined until loaded (R68). -/
def State.triadOn (s : State) (t : Nat) : State :=
  let e := s.fresh
  let s : State := { s with fresh := s.fresh + 3 }
  let s := (List.range 3).foldl (fun s c =>
    s.setCopy (3 * t + c) { Copy.off with
      st := if s.isRetired t c then .retired else .out, tcm := Ram.unwritten (e + c + 1) }) s
  s.setTriad t { s.triad t with mode := 5 }

/-- Ask that a domain be switched; behind a switch under way the request waits (R349, R350). Its pairs are clamped (R265). -/
def State.askSwitch (s : State) (dom : Nat) (on : Bool) : State :=
  if (AMap.find? s.switching dom).isSome then { s with heldSwitch := s.heldSwitch ++ [(dom, on)] }
  else
    let s : State := { s with switching := AMap.put dom on s.switching }
    let s := if dom < 64 then (if on then s.setPowerState dom 1 else (s.triadOff dom).setPowerState dom 8) else s
    s.clampPairs

/-- TMODE is asked for mode `v` (R68; R270, R277 and R388 shut it to all but Off); the answer says whether the write was refused. A
triad asked on while its region is off is refused by PWR too (R15). A write of the mode in force has no effect and is accepted, while
mordanting runs too: R68 and R77 leave open which of them holds there (DESIGN CHOICE, assumption 52). -/
def State.tmodeWrite (s : State) (t v : Nat) : State × WOut :=
  let d0 := s.triad t
  let asleep := s.powerState t == 5 || s.powerState t == 6 || (d0.entry != 0 && s.pastAbort t)
  let s := if d0.entry ≠ 0 ∧ asleep = false then (s.abandonEntry t 4).wakeWaits t else s
  let d := s.triad t
  let m := d.mode
  let shut := d.isolated || s.bit (pgFwall (t / 4)) 0x108 0 || s.bit pgBist 0x128 t
  let refuse : State × WOut := (s.triadRefuse t, .refused)
  if v = m then (s, .accepted)
  else if v = 6 ∨ v = 7 then refuse
  else if shut = true ∧ v ≠ 0 then refuse
  else if asleep then
    if v = 5 then (s.stopTriad t 6 4, .accepted)
    else if v = 0 ∧ s.tableUses t = false then ((s.stopTriad t 6 4).askSwitch t false, .accepted)
    else refuse
  else if m = 0 then
    if v = 5 ∧ s.regionOn (t / 4) = true ∧ s.tableUses t = false then (s.askSwitch t true, .accepted)
    else refuse
  else if m = 5 then
    if v = 0 then (if s.tableUses t = false then (s.askSwitch t false, .accepted) else refuse)
    else if isRunMode v ∧ (modeLetters v).any (s.isRetired t) = false ∧ (v ≠ 1 ∨ (List.range 3).any (s.isRetired t) = false)
    then (s.startCopies t v, .accepted)
    else refuse
  else if v = 5 then (s.stopTriad t 6 4, .accepted)
  else if d.mordBusy then refuse
  else if m = 1 then
    if isRunMode v then
      let x := thirdOf v
      let s := s.setCopy (3 * t + x) ((s.copy (3 * t + x)).leave .out)
      let s := s.setTriad t { s.triad t with
        mode := v, gate := ejectGate x d.gate, replay := ejectReplay x (s.running t) d.replay
        voter := d.voter.filter fun e => e.1 != x, injTints := d.injTints.filter fun e => e.1 != x }
      let s := s.cleanStamps t
      match s.pairConflict t with
      | some (j, kd) => (s.disagree t j kd false, .accepted)
      | none => (s.wakeWaits t, .accepted)
    else refuse
  else if v = 1 ∧ s.mordOk t (thirdOf m) = true then (s.mordStart t (thirdOf m), .accepted)
  else refuse

end Sys2Proof.Machine
end

