-- ==== Sys2Proof/Machine/TriadRegs.lean ====
section
/-! DEFINITION. The TRIAD and CORE pages: what a write of each register does beyond the access types, and the values that
reads compute (02_triads.md "TRIAD registers", 03_core_pipeline.md "CORE registers"). -/

namespace Sys2Proof.Machine

/-- A write whose named bits `hi..lo` are covered. -/
def Wr.covers (w : Wr) (hi lo : Nat) : Bool := decide (w.cover &&& bitMask hi lo ≠ 0)

/-- A write that is refused as a whole at a TRIAD page (R46, R79). -/
def State.refuseTriad (s : State) (t : Nat) : State × WOut := (s.triadRefuse t, .refused)

/-- A store of the plain value, accepted. -/
def State.plainWrite (s : State) (k : PageKind) (row : RegRow) (w : Wr) (old new : Word) : State × WOut :=
  (s.storeReg k row w old new, .accepted)

/-- TCFG (R46, R47): ranges, mode condition, no mordanting under way (R77); refused as a whole. A locked page judges what the write
asks for: R8 applies besides the refusal (R46). -/
def State.tcfgWrite (s : State) (t : Nat) (row : RegRow) (w : Wr) (old new : Word) : State × WOut :=
  let asked := nextValue row old w false
  let st := bitsOf asked 5 0
  let sk := bitsOf asked 26 16
  let moved := bitsOf old 5 0 ≠ st ∨ bitsOf old 26 16 ≠ sk
  let m := (s.triad t).mode
  if st < 2 ∨ sk < 2 * st + 1 ∨ 1024 < sk ∨ bitsOf asked 47 32 = 0 ∨ (moved ∧ m ≠ 0 ∧ m ≠ 5) ∨ (s.triad t).mordBusy = true
  then s.refuseTriad t
  else s.plainWrite .triad row w old new

/-- MORDCFG: an MORDTMO of 0 is outside its range and refused. -/
def State.mordcfgWrite (s : State) (t : Nat) (row : RegRow) (w : Wr) (old new : Word) : State × WOut :=
  if bitsOf (nextValue row old w false) 15 0 = 0 then s.refuseTriad t else s.plainWrite .triad row w old new

/-- RADM.RADMWIN (R79). -/
def State.radmWrite (s : State) (t : Nat) (row : RegRow) (w : Wr) (old new : Word) : State × WOut :=
  let v := bitsOf (nextValue row old w false) 16 0
  if v < 1 ∨ 86400 < v then s.refuseTriad t else s.plainWrite .triad row w old new

/-- TMISTAT: any 1 bit clears the whole high-water field (TMISTAT). -/
def State.tmistatWrite (s : State) (t : Nat) (w : Wr) : State :=
  let s := if w.bits 29 24 ≠ 0 then s.setFld (pgTriad t) 0x158 29 24 0 else s
  if w.bits 14 8 ≠ 0 then s.setFld (pgTriad t) 0x158 14 8 0 else s

/-- IRQSET: each 1 of bits 63:32 raises a request (R167). -/
def State.irqsetWrite (s : State) (t : Nat) (w : Wr) : State :=
  (List.range 32).foldl (fun s i => if w.sets (32 + i) then s.irq t (32 + i) else s) s

/-- A write of a TRIAD register. -/
def State.wTriad (s : State) (t : Nat) (row : RegRow) (w : Wr) (old new : Word) : State × WOut :=
  match w.off with
  | 0x100 => if w.covers 2 0 then s.tmodeWrite t (w.bits 2 0) else (s, .accepted)
  | 0x108 => s.tcfgWrite t row w old new
  | 0x158 => (s.tmistatWrite t w, .accepted)
  | 0x168 => (s.irqsetWrite t w, .accepted)
  | 0x178 => s.mordcfgWrite t row w old new
  | 0x180 => s.radmWrite t row w old new
  | _ => s.plainWrite .triad row w old new

/-- CCTL.CLRMON and CCTL.CLRCNT (R94, CCTL). -/
def State.cctlWrite (s : State) (key : Nat) (mon cnt : Bool) : State :=
  let p := pgCore key
  let s := if mon then s.setReg p 0x110 0 else s
  if cnt then
    ([0x120, 0x128, 0x130, 0x138].foldl (fun s o => s.setReg p o 0) s).setFld p 0x148 47 32 0
  else s

/-- A write of a CORE register. -/
def State.wCore (s : State) (key : Nat) (row : RegRow) (w : Wr) (old new : Word) : State × WOut :=
  match w.off with
  | 0x140 => (s.cctlWrite key (w.sets 1) (w.sets 0), .accepted)
  | _ => s.plainWrite .core row w old new

/-- TSTAT's leading copy (R449). -/
def State.leadCode (s : State) (t : Nat) : Nat := (s.leader t).getD 3

/-- Re-admissions of a copy within RADMWIN (RADM.CNTA to CNTC). -/
def State.radmCount (s : State) (t c : Nat) : Nat :=
  let win := s.fld (pgTriad t) 0x180 16 0 * 1000000000
  ((AMap.get (s.triad t).readm (fun _ => []) c).filter fun x => decide (s.now ≤ x + win)).length

/-- IRQPEND: the vectors with a stamp (R64). -/
def State.irqPend (s : State) (t : Nat) : Word :=
  BitVec.ofNat 64 (((s.triad t).stamps.filter fun e => decide (16 ≤ e.vec)).foldl (fun n e => setBitN n e.vec) 0)

/-- A read of a TRIAD register: the stored value with what the triad shows at the moment of the read. -/
def State.rTriad (s : State) (t off : Nat) (v : Word) : Word :=
  let d := s.triad t
  let cs (c : Nat) : Nat := (s.copy (3 * t + c)).st.code
  match off with
  | 0x100 => BitVec.ofNat 64 d.mode
  | 0x110 =>
    withBits (withBits (withBits (withBits v 13 12 (s.leadCode t)) 10 8 (cs 2)) 6 4 (cs 1)) 2 0 (cs 0)
  | 0x118 => BitVec.ofNat 64 (s.copy (3 * t)).retcnt
  | 0x120 => BitVec.ofNat 64 (s.copy (3 * t + 1)).retcnt
  | 0x128 => BitVec.ofNat 64 (s.copy (3 * t + 2)).retcnt
  | 0x158 => withBits (withBits v 21 16 d.gate.length) 6 0 d.replay.length
  | 0x160 => s.irqPend t
  | 0x168 => 0
  | 0x170 => withBits (withBits v 4 2 d.mord.code) 1 0 d.mordCopy
  | 0x180 =>
    withBits (withBits (withBits v 45 44 (s.radmCount t 2)) 41 40 (s.radmCount t 1)) 37 36 (s.radmCount t 0)
  | _ => v

/-- Copy tags held (R35, R88): the fabric accesses outstanding under the copy's tags. -/
def State.outst (s : State) (key : Nat) : Nat := (s.tagsIn (8 * key) 8).length

/-- CSTAT.STALL: why X is not issuing. -/
def State.stallCode (s : State) (t c : Nat) : Nat :=
  let p := s.copy (3 * t + c)
  let d := s.triad t
  if p.st ≠ .running then 0xB
  else if p.xStall ≠ 0 then p.xStall
  else match p.hold with
    | .wait _ => 9
    | .fence _ _ => 3
    | .mem r _ presented =>
      if reqIsReplay r then (if presented ∧ s.outst (3 * t + c) = 8 then 8 else 5) else 4
    | .none =>
      if s.pauseHeld t c ∨ d.mord = .pause then 0xA
      else if s.staggerHeld t c then 6
      else if s.skewHeld t c then 7
      else if p.win.isNone then 2
      else 0

/-- A read of a CORE register: a snapshot of the copy (03_core_pipeline.md). -/
def State.rCore (s : State) (key off : Nat) (v : Word) : Word :=
  let p := s.copy key
  match off with
  | 0x100 =>
    BitVec.ofNat 64 (s.stallCode (key / 3) (key % 3) + p.occupancy * 2 ^ 4 +
      s.outst key * 2 ^ 8 + p.level.code * 2 ^ 12 + b2n p.precise * 2 ^ 14 + b2n (!p.shadow.isEmpty) * 2 ^ 15 +
      b2n (p.holdRem != 0) * 2 ^ 16)
  | 0x108 => BitVec.ofNat 64 (bitsOf p.pc 47 0)
  | 0x140 => 0
  | _ => v

end Sys2Proof.Machine
end

