-- ==== Sys2Proof/Machine/Sched.lean ====
section
/-! DEFINITION. The schedule engines' runs (R184 to R189, R194 to R196, R452): release, completion, loss, notices, takeover,
the start of a frame, stopping and resuming. -/

namespace Sys2Proof.Machine

/-- The cycle position of the current frame (R180). -/
def State.cyclePos (s : State) : Nat := (s.timeB.frameNo - s.timeB.firstFrame) % hdrCycle s.timeB.active

/-- A slot runs in the current frame (R203). -/
def State.slotOn (s : State) (r : SlotRec) : Bool :=
  decide (s.timeB.actGen ≠ 0) && decide (s.cyclePos % r.period = r.phase)

/-- The moment of a tick of the current frame, in ns. -/
def State.tickTime (s : State) (tick : Nat) : Nat := s.timeB.frameStart + 10 * tick

/-- The current tick. -/
def State.tickNow (s : State) : Nat := (s.now - s.timeB.frameStart) / 10

/-- The tick of the RELEASE slot that selects a job in the current frame, if any: a slot of the primary engine's section
that names a record of the job (R184). -/
def State.relTick (s : State) (j : JobRec) : Option Nat :=
  let b := (s.engine (j.triad / 4)).active
  ((slots b).find? fun r =>
    decide (r.action = 2) && s.slotOn r && decide ((jobRec b r.index).job = j.job) &&
    !(jobRec b r.index).isCopy).map fun r => r.time

/-- The run of a job record in the current frame: Inputs in the primary engine, Watching in the spare's (R189). -/
def newRun (frame rel : Nat) (copy : Bool) : Run :=
  { Run.idle with state := if copy then 6 else 1, frame := frame, rel := rel, own := !copy }

/-- A frame starts in engine `n` (R189, R198, R452): a stopped engine whose EN was set again resumes with every run Idle;
the jobs that the frame selects get their runs. -/
def State.engineFrame (s : State) (n : Nat) : State :=
  let e0 := s.engine n
  let e : Engine :=
    if e0.resume then
      { e0 with state := 1, resume := false, runs := [], prev := [], opens := [], moves := [], commits := [], ballots := [] }
    else e0
  let e : Engine := { e with acted := [], votes := [], moves := [] }
  let s := s.setEngine n e
  if e.state ≠ 1 then s
  else
    (jobs e.active).foldl (fun s q =>
      match s.relTick q.2 with
      | none => s
      | some tk =>
        let e := s.engine n
        let e : Engine := match AMap.find? e.runs q.1 with
          | some r => { e with prev := AMap.put q.1 r e.prev }
          | none => e
        s.setEngine n (e.setRun q.1 (newRun s.timeB.frameNo tk q.2.isCopy))) s

/-- Every move that names the job and carries REQUIRED has succeeded in this frame (R184 condition 5). -/
def State.inputsOk (s : State) (n job : Nat) : Bool :=
  let e := s.engine n
  ((List.range (secNmove e.active)).filter fun i =>
      (moveRec e.active i).required && (moveRec e.active i).job == job).all fun i =>
    match AMap.find? e.moves i with
    | some m => decide (m.frame = s.timeB.frameNo) && decide (m.st = 1)
    | none => false

/-- A move without REQUIRED that names the job failed in this frame (R192). -/
def State.inputsStale (s : State) (n job : Nat) : Bool :=
  let e := s.engine n
  (List.range (secNmove e.active)).any fun i =>
    let m := moveRec e.active i
    !m.required && m.job == job &&
    (match AMap.find? e.moves i with
      | some r => decide (r.frame = s.timeB.frameNo) && decide (r.st = 2)
      | none => false)

/-- The first condition of R184 that fails for a release of a job of engine `n` to triad `t`, in JSTATE.CAUSE's codes; 0
where all hold. -/
def State.releaseCause (s : State) (n t job : Nat) : Nat :=
  let d := s.triad t
  if isRunMode d.mode = false then 3
  else if s.fld pgPwr (tpwr t) 2 0 ≠ triadPl s.timeB.active t ∨ s.powerState t = 3 then 4
  else if s.openRun t then 5
  else if d.stamps.any fun e => e.vec == 16 || e.vec == 17 then 5
  else if s.inputsOk n job = false then 6
  else 0

/-- A window as JOBIN and JOBOUT show it. -/
def jobWindow (base len : Nat) : Word := BitVec.ofNat 64 (base % 2 ^ 48 + len / 64 % 2 ^ 16 * 2 ^ 48)

/-- JOBID of a release (JOBID). -/
def jobId (frame : Nat) (spare stale : Bool) (job entry : Nat) : Word :=
  BitVec.ofNat 64 (frame % 2 ^ 16 * 2 ^ 48 + b2n spare * 2 ^ 47 + b2n stale * 2 ^ 46 + job % 2 ^ 12 * 2 ^ 32 + entry % 2 ^ 17)

/-- A run of job record `j` of engine `n` is released to its triad (R185, R195). -/
def State.goRun (s : State) (n j : Nat) : State :=
  let e := s.engine n
  let jr := jobRec e.active j
  let r := e.run j
  let t := jr.runsOn
  let stale := r.stale || s.inputsStale n jr.job
  let e := e.setRun j { r with state := if jr.isCopy then 8 else 2, stale := stale }
  let e : Engine := { e with opens := AMap.put t ⟨jr.job, j, r.frame, false⟩ e.opens }
  let s := (s.setEngine n e).count (pgSched n) (if jr.isCopy then 0x150 else 0x140)
  let win := if jr.isCopy then (jobWindow jr.spareIn jr.inLen, jobWindow jr.spareOut jr.outLen)
    else (jobWindow jr.inBase jr.inLen, jobWindow jr.outBase jr.outLen)
  s.accept t 16 (some (jobId r.frame jr.isCopy stale jr.job jr.entry, win.1, win.2)) 3

/-- The slot `i` of engine `n` acts now: the engine runs, the slot's ACTION is `a`, the frame selects it and it has not
acted yet (R203, R452). TIME reaches its tick (R179). -/
def State.slotDue (s : State) (n i a : Nat) : Option SlotRec :=
  let e := s.engine n
  let r := slotRec e.active i
  if s.engineRuns n = true ∧ i < secNslot e.active ∧ r.action = a ∧ s.slotOn r = true ∧ e.acted.contains i = false then some r
  else none

/-- Mark a slot as acted, TIME at its tick. -/
def State.slotTake (s : State) (n i : Nat) (r : SlotRec) : State :=
  let s := s.advance (s.tickTime r.time)
  let e := s.engine n
  s.setEngine n { e with acted := e.acted ++ [i] }

/-- A RELEASE slot (R184, R185, R189): the run is released, or lost with its cause. -/
def State.releaseSlot (s : State) (n i : Nat) : State :=
  match s.slotDue n i 2 with
  | none => s
  | some r =>
    let s := s.slotTake n i r
    let e := s.engine n
    let jr := jobRec e.active r.index
    if (e.run r.index).state ≠ 1 ∨ jr.isCopy = true then s
    else
      let c := s.releaseCause n jr.triad jr.job
      if c = 0 then s.goRun n r.index else s.loseRun n r.index c

/-- The end of tick DEADLINE of a run in its primary engine, of tick SPAREDL in the spare's: a run still released is lost
with cause deadline, and vector 17 is requested (R187, R189). -/
def State.deadlineEnd (s : State) (n j : Nat) (copy : Bool) : State :=
  let e := s.engine n
  let jr := jobRec e.active j
  let r := e.run j
  if s.engineRuns n = false ∨ jr.isCopy ≠ copy ∨ r.state ≠ (if copy then 8 else 2) then s
  else
    let s := s.advance (s.tickTime ((if copy then jr.spareDl else jr.deadline) + 1))
    let s := s.loseRun n j 1
    let e := s.engine n
    let s := match e.openOf jr.runsOn with
      | some o => s.setEngine n { e with opens := AMap.put jr.runsOn { o with lost := true } e.opens }
      | none => s
    s.irq jr.runsOn 17

/-- The deadline of an open run has passed without its end having been commanded: it is taken first (R186, R188). -/
def State.deadlineFirst (s : State) (n t : Nat) : State :=
  let e := s.engine n
  match e.openOf t with
  | none => s
  | some o =>
    let jr := jobRec e.active o.rec'
    let dl := if jr.isCopy then jr.spareDl else jr.deadline
    if o.lost = false ∧ o.frame = s.timeB.frameNo ∧ s.tickTime (dl + 1) ≤ s.now then s.deadlineEnd n o.rec' jr.isCopy else s

/-- A stray DONE store (R187). -/
def State.strayDone (s : State) (n : Nat) : State := (s.count (pgSched n) 0x168).advisory (pgSched n) 1 0xFF

/-- A DONE store of triad `t` reaches its engine (R186, R187, R189, R452). One of a reserved KIND (2 or 3) that names the open run is
a stray DONE: R187 is silent on it (DESIGN CHOICE, assumption 60). -/
def State.doneStore (s : State) (n t job kind : Nat) : State :=
  if s.engineRuns n = false then s
  else
    let s := s.deadlineFirst n t
    let e := s.engine n
    match e.openOf t with
    | none => s.strayDone n
    | some o =>
      if o.job ≠ job ∨ t / 4 ≠ n then s.strayDone n
      else if kind = 0 ∧ o.lost = false then
        let jr := jobRec e.active o.rec'
        let r := e.run o.rec'
        let e := (e.closeRun t).setRun o.rec'
          { r with state := if jr.isCopy then 9 else 3, ok := true, doneTick := s.tickNow }
        let s := s.setEngine n e
        if jr.isCopy then s
        else match spareEngine jr with
          | some m => s.notify .completion m jr.job
          | none => s
      else if kind = 1 ∧ o.lost = true then s.setEngine n (e.closeRun t)
      else s.strayDone n

/-- The oldest notice of a kind for an engine, taken off the way (R194). -/
def State.takeNotice (s : State) (kind : NoticeKind) (n : Nat) : Option (Notice × State) :=
  match s.notices.find? fun x => x.kind == kind && x.dst == n with
  | none => none
  | some x => some (x, { s with notices := s.notices.erase x })

/-- The job record of a number in an engine, primary or SPARECOPY. -/
def Engine.recOf (e : Engine) (job : Nat) (copy : Bool) : Option Nat :=
  ((jobs e.active).find? fun q => q.2.job == job && q.2.isCopy == copy).map fun q => q.1

/-- The spare engine takes a run over (R195, R196): it owns the commits from now on; after SPARELAT the spare run is lost.
The re-run moves are started by the caller. -/
def State.takeover (s : State) (n j cause : Nat) : State :=
  let e := s.engine n
  let jr := jobRec e.active j
  let s := s.setEngine n (e.setRun j { e.run j with state := 7, cause := cause, own := true, nextMove := 0 })
  let s := s.notify .takeover (jr.triad / 4) jr.job
  if jr.spareLat < s.tickNow then s.loseRun n j cause else s

/-- A notice finds a run Watching in the receiving engine (R189). -/
def State.watching (s : State) (n : Nat) (x : Notice) : Option Nat :=
  let e := s.engine n
  match e.recOf x.job true with
  | none => none
  | some j => if s.engineRuns n = true ∧ (e.run j).state = 6 ∧ (e.run j).frame = x.frame then some j else none

/-- A completion notice: the spare's run is Idle (R189). -/
def State.completionNotice (s : State) (n : Nat) : State :=
  match s.takeNotice .completion n with
  | none => s
  | some (x, s) =>
    match s.watching n x with
    | none => s
    | some j =>
      let e := s.engine n
      s.setEngine n (e.setRun j { e.run j with state := 0 })

/-- A takeover notice: the primary engine commits nothing for this run; a Lost run is Handed over (R189, R196). -/
def State.takeoverNotice (s : State) (n : Nat) : State :=
  match s.takeNotice .takeover n with
  | none => s
  | some (x, s) =>
    let e := s.engine n
    match e.recOf x.job false with
    | none => s
    | some j =>
      let r := e.run j
      if s.engineRuns n = false ∨ r.frame ≠ x.frame then s
      else s.setEngine n (e.setRun j { r with handed := true, state := if r.state = 4 then 5 else r.state })

/-- An engine stops at once by a reaction action (`cause` 2) or by EN (`cause` 3): moves under way issue nothing more
(R196, R452). -/
def State.stopEngine (s : State) (n cause : Nat) : State :=
  let e := s.engine n
  if e.state = 0 then (if cause = 2 then s.setEngine n { e with state := 2, resume := false } else s)
  else if e.state = 2 then s
  else s.setEngine n { e with state := cause, resume := false }

/-- EN of an engine is set or cleared (R452, SCTL.EN): set again it resumes at the next frame start. -/
def State.enableEngine (s : State) (n : Nat) (on : Bool) : State :=
  let e := s.engine n
  if on then (if e.state = 3 then s.setEngine n { e with resume := true } else s) else s.stopEngine n 3

/-- The same for a link schedule engine. -/
def State.stopLengine (s : State) (q cause : Nat) : State :=
  let e := s.lengine q
  if e.state = 0 then (if cause = 2 then s.setLengine q { e with state := 2, resume := false } else s)
  else if e.state = 2 then s
  else s.setLengine q { e with state := cause, resume := false, tx := [] }

def State.enableLengine (s : State) (q : Nat) (on : Bool) : State :=
  let e := s.lengine q
  if on then (if e.state = 3 then s.setLengine q { e with resume := true } else s) else s.stopLengine q 3

/-- A frame starts in link engine `q`: receive pointers return to BUF (R310). -/
def State.lengineFrame (s : State) (q : Nat) : State :=
  let e := s.lengine q
  let st := if e.resume then 1 else e.state
  s.setLengine q { e with state := st, resume := false, rxPtr := [], tx := [], acted := [] }

/-- JSTATE of an engine for the job in JSEL (JSTATE). -/
def State.jstate (s : State) (n : Nat) : Word :=
  let e := s.engine n
  let job := s.fld (pgSched n) 0x128 11 0
  match (jobs e.active).find? fun q => q.2.job == job with
  | none => 0
  | some q =>
    let r := e.run q.1
    BitVec.ofNat 64 (r.state + r.cause * 2 ^ 4 + r.doneTick * 2 ^ 32)

end Sys2Proof.Machine
end

