-- ==== Sys2Proof/Machine/TableCheck.lean ====
section
/-! DEFINITION. The load check of a schedule table (R201 to R212, R300, R451): the whole set is refused at the first
failure, in the order of the codes. -/

namespace Sys2Proof.Machine

/-- A failure of the load check: the code, the page that records it (none: the device part alone), the record. -/
structure ChkFail where
  code : Nat
  page : Option Nat
  rec' : Nat
deriving DecidableEq, Repr

/-- An engine section of the table being checked: its SCHED or LSCHED number, its bank, its directory LEN. -/
structure Sect where
  link : Bool
  inst : Nat
  bank : AMap Word
  len : Nat
deriving DecidableEq, Repr

/-- The page of a section's engine. -/
def Sect.page (x : Sect) : Nat := if x.link then pgLsched x.inst else pgSched x.inst

/-- The set in the inactive banks: the device bank and its directory's engine sections. -/
structure TableSet where
  dev : AMap Word
  dir : List DirEnt
  sects : List Sect
deriving DecidableEq, Repr

/-- The set as the inactive banks hold it (R211, R451). -/
def State.tableSet (s : State) : TableSet :=
  let dev := s.timeB.inactive
  let dir := directory dev
  { dev := dev, dir := dir
    sects := dir.filterMap fun d =>
      if d.kind = 0x10 then some ⟨false, d.inst, (s.engine d.inst).inactive, d.len⟩
      else if d.kind = 0x20 then some ⟨true, d.inst, (s.lengine d.inst).inactive, d.len⟩
      else none }

/-- The first failing index of a list. -/
def firstAt {α : Type} (p : α → Bool) (l : List α) : Option Nat :=
  (l.zipIdx.find? fun e => p e.1).map fun e => e.2

/-- A check of each record of a list, for the page given. -/
def chkList {α : Type} (code : Nat) (page : Option Nat) (p : α → Bool) (l : List α) : Option ChkFail :=
  (firstAt p l).map fun i => ⟨code, page, i⟩

/-- A single check of the device part. -/
def chkDev (code : Nat) (bad : Bool) : Option ChkFail := if bad then some ⟨code, none, 0⟩ else none

/-- The records of a section. -/
def Sect.slots (x : Sect) : List SlotRec := Machine.slots x.bank
def Sect.jobs (x : Sect) : List JobRec := if x.link then [] else (List.range (secNjob x.bank)).map (jobRec x.bank)
def Sect.moves (x : Sect) : List MoveRec := if x.link then [] else (List.range (secNmove x.bank)).map (moveRec x.bank)
def Sect.commits (x : Sect) : List CommitRec :=
  if x.link then [] else (List.range (secNcommit x.bank)).map (commitRec x.bank)
def Sect.lanes (x : Sect) : List LaneRec := if x.link then (List.range (secNjob x.bank)).map (laneRec x.bank) else []

/-- The bytes of a bank from an offset. -/
def bankBytes (b : AMap Word) (o n : Nat) : List Nat := (List.range n).map fun i => bankByte b (o + i)

/-- Where each section must lie in the body: the next multiple of 8 after the one before it (R451). -/
def placesOk : List DirEnt → Nat → Bool
  | [], _ => true
  | d :: ds, o => decide (d.off = up8 o) && placesOk ds (d.off + d.len)

/-- The end of the last section in the body. -/
def bodyEnd (dir : List DirEnt) (o : Nat) : Nat := dir.foldl (fun _ d => d.off + d.len) o

/-- The body's bytes formed from the banks, CHECK as zero, zero bytes between sections (R451). -/
def TableSet.body (x : TableSet) : List Nat :=
  let n := hdrNsect x.dev
  let head := bankBytes x.dev 0 0x38 ++ List.replicate 8 0 ++ bankBytes x.dev 0x40 (16 * n)
  let sec (d : DirEnt) : List Nat :=
    if isDeviceKind d.kind then
      match (deviceOffsets x.dir (up8 (0x40 + 16 * n))).find? fun e => decide (e.1 = d) with
      | some e => bankBytes x.dev e.2 d.len
      | none => []
    else
      match x.sects.find? fun e => decide (e.inst = d.inst) && decide (e.link = decide (d.kind = 0x20)) with
      | some e => bankBytes e.bank 0 d.len
      | none => List.replicate d.len 0
  x.dir.foldl (fun bs d => bs ++ List.replicate (d.off - bs.length) 0 ++ sec d) head

/-- The kind is one of R201's. -/
def knownKind (k : Nat) : Bool := isDeviceKind k || k == 0x10 || k == 0x20

/-- Two directory entries for one section (R201). -/
def sameSect (a b : DirEnt) : Bool := decide (a.kind = b.kind) && (isDeviceKind a.kind || decide (a.inst = b.inst)) &&
  knownKind a.kind

/-- Some section appears twice. -/
def dupSect : List DirEnt → Bool
  | [] => false
  | d :: ds => ds.any (sameSect d) || dupSect ds

/-- The bytes that a section's subheader counts (R203). -/
def Sect.need (x : Sect) : Nat :=
  if x.link then lanesAt x.bank + 16 * secNjob x.bank + 32 * secNmove x.bank + 32 * secNcommit x.bank + secPoolLen x.bank
  else poolAt x.bank + secPoolLen x.bank

/-- No bank holds the section: its KIND is reserved or its engine absent. The body cannot be formed then, CHECK is not judged,
and codes 0x03 and 0x04 refuse the set (DEDUCED, assumption 19). -/
def unheldSect (dies : Nat) (d : DirEnt) : Bool :=
  !knownKind d.kind || (d.kind == 0x10 && decide (8 * dies ≤ d.inst)) || (d.kind == 0x20 && decide (8 ≤ d.inst))

/-- Code 0x01. A TRIADS section of another length than R202's 256 bytes is refused here too: R212 names no code for it (DESIGN
CHOICE, assumption 62). A section that its arrays and pool exceed is shown in its engine's page. -/
def TableSet.c01 (x : TableSet) (dies : Nat) : Option ChkFail :=
  let b := x.dev
  let n := hdrNsect b
  let fl := hdrFrameLen b
  let bodyLen := bankNum b 0x1C 4
  (chkDev 1 (decide (bankNum b 0 4 ≠ 0x4254535A) || decide (bankNum b 4 2 ≠ 1) || decide (fl < 1000) ||
    decide (100000000 < fl) || decide (hdrCycle b < 1) || decide (1024 < hdrCycle b) || decide (hdrRcal b < 64) ||
    decide (4096 < hdrRcal b) || !placesOk x.dir (0x40 + 16 * n) || decide (bodyEnd x.dir (0x40 + 16 * n) ≠ bodyLen) ||
    dupSect x.dir || !(x.dir.any fun d => d.kind == 1) || (x.dir.any fun d => d.kind == 1 && d.len != 256) ||
    (!x.dir.any (unheldSect dies) && decide (crcOf 3 x.body ≠ bankNum b 0x38 8)))) <|>
  x.sects.findSome? fun e => if e.len < e.need then some ⟨1, some e.page, 0⟩ else none

/-- Code 0x02. -/
def TableSet.c02 (x : TableSet) (act : Word) : Option ChkFail := chkDev 2 (decide ((hdrGen x.dev).toNat ≤ act.toNat))

/-- The numbers that two ranges [a, b) and [c, d) share. -/
def shared (a b c d : Nat) : Nat := min b d - max a c

/-- The present pages among the numbers [p, q) (R429). -/
def presentPages (dies p q : Nat) : Nat :=
  pageIndex.foldl (fun k r => k + shared p q r.first (r.first + r.present dies)) 0

/-- Some byte of the range lies in an absent region's SRAM or in an absent page (R3). -/
def absentAddr (dies a len : Nat) : Bool :=
  let lo := max a 0x40000000
  let hi := min (a + len) 0x50000000
  let p := (lo - 0x40000000) / 0x1000
  let q := (hi - 0x40000000 + 0xFFF) / 0x1000
  decide (shared a (a + len) (0x10000000 + 8 * dies * 0x400000) 0x14000000 ≠ 0) ||
  (decide (lo < hi) && decide (presentPages dies p q < q - p))

/-- The RESERVE records (R208): LINK, FIRST, COUNT, OWNER. -/
def reserveRecs (b : AMap Word) : List (Nat × Nat × Nat × Nat) :=
  match deviceSection b 2 with
  | none => []
  | some (o, len) => (List.range (len / 8)).map fun i =>
    (bankNum b (o + 8 * i) 2, bankNum b (o + 8 * i + 2) 2, bankNum b (o + 8 * i + 4) 2, bankNum b (o + 8 * i + 6) 2)

/-- The AGREE group records' offsets (R210). -/
def agreeAt (b : AMap Word) : List Nat :=
  match deviceSection b 4 with
  | none => []
  | some (o, len) => (List.range (len / 16)).map fun i => o + 16 * i

/-- Code 0x03. -/
def TableSet.c03 (x : TableSet) (dies devid : Nat) : Option ChkFail :=
  let b := x.dev
  let page (e : Sect) : Option Nat := some e.page
  (chkDev 3 (decide (bankByte b 0x18 ≠ devid) || decide (bankByte b 0x19 ≠ dies) ||
    (x.dir.any fun d => (d.kind == 0x10 && decide (8 * dies ≤ d.inst)) || (d.kind == 0x20 && decide (8 ≤ d.inst))) ||
    ((List.range 64).any fun t => decide (32 * dies ≤ t) && triadPl b t != 0) ||
    ((reserveRecs b).any fun r => (decide (r.1 / 8192 < 3) && decide (dies ≤ r.1 / 256 % 16)) ||
      (decide (r.1 / 8192 = 1) && decide (8 * dies ≤ r.1 % 256))) ||
    ((openRr b).any fun v => decide (0x230 + 8 * dies ≤ v) && decide (v ≤ 0x23F)))) <|>
  x.sects.findSome? fun e =>
    (chkList 3 (page e) (fun (j : JobRec) =>
      decide (32 * dies ≤ j.triad) || (j.spare != 0xFF && decide (32 * dies ≤ j.spare))) e.jobs) <|>
    (chkList 3 (page e) (fun (m : MoveRec) => absentAddr dies m.src m.len || absentAddr dies m.dst m.len) e.moves) <|>
    (chkList 3 (page e) (fun (c : CommitRec) => absentAddr dies c.dst c.len) e.commits) <|>
    (chkList 3 (page e) (fun (l : LaneRec) => absentAddr dies l.buf l.len) e.lanes)

/-- A slot's ACTION belongs to its engine kind and its INDEX names a record the ACTION needs (R203, R212 code 0x04). -/
def Sect.slotBad (e : Sect) (r : SlotRec) : Bool :=
  if e.link then
    match r.action with
    | 8 => decide (secNjob e.bank ≤ r.index) || (laneRec e.bank r.index).dir != 0
    | 9 => decide (secNjob e.bank ≤ r.index) || (laneRec e.bank r.index).dir != 1
    | _ => true
  else
    match r.action with
    | 1 => decide (secNmove e.bank ≤ r.index)
    | 2 => decide (secNjob e.bank ≤ r.index)
    | 3 | 4 => decide (secNcommit e.bank ≤ r.index)
    | _ => true

/-- Code 0x04. A PL above 7, a LANE, VC or DIR outside R207's values and a link type above 3 of a RESERVE record are refused here
as reserved values: R212 names no code for them (DESIGN CHOICE, assumption 62). -/
def TableSet.c04 (x : TableSet) : Option ChkFail :=
  let b := x.dev
  (chkDev 4 (decide (1 < bankNum b 6 2) || decide (bankNum b 0x20 24 ≠ 0) ||
    (x.dir.any fun d => d.rsv != 0 || !knownKind d.kind) ||
    (match deviceSection b 1 with
      | some (o, _) => (List.range 64).any fun t =>
          decide (7 < bankByte b (o + 4 * t)) || decide (1 < bankByte b (o + 4 * t + 1)) || bankNum b (o + 4 * t + 2) 2 != 0
      | none => false) ||
    ((reserveRecs b).any fun r => decide (3 < r.1 / 8192)) ||
    ((agreeAt b).any fun o => bankNum b (o + 4) 12 != 0))) <|>
  x.sects.findSome? fun e =>
    let p := some e.page
    (if bankNum e.bank 0xC 4 ≠ 0 then some ⟨4, p, 0⟩ else none) <|>
    (chkList 4 p (fun (r : SlotRec) => r.rsv != 0 || e.slotBad r) e.slots) <|>
    (chkList 4 p (fun (j : JobRec) => decide (1 < j.flags)) e.jobs) <|>
    (chkList 4 p (fun (m : MoveRec) => decide (1 < m.flags) || decide (3 < m.width) || m.rsv != 0) e.moves) <|>
    (chkList 4 p (fun (c : CommitRec) =>
      decide (31 < c.flags) || decide (3 < c.width) || c.rsv1 != 0 || c.rsv2 != 0) e.commits) <|>
    (chkList 4 p (fun (l : LaneRec) =>
      l.rsv != 0 || decide (3 < l.lane) || decide (1 < l.dir) || (decide (7 < l.vc) && l.vc != 0xFF)) e.lanes)

/-- Code 0x05. -/
def TableSet.c05 (x : TableSet) : Option ChkFail :=
  let fl := hdrFrameLen x.dev
  x.sects.findSome? fun e =>
    let sl := e.slots
    (chkList 5 (some e.page) (fun (q : SlotRec × Nat) =>
      decide (fl ≤ q.1.time) || decide (fl < q.1.time + q.1.dur) ||
      (match sl[q.2 - 1]? with | some r => q.2 != 0 && decide (q.1.time < r.time) | none => false)) sl.zipIdx)

/-- Code 0x06. -/
def TableSet.c06 (x : TableSet) : Option ChkFail :=
  let c := hdrCycle x.dev
  x.sects.findSome? fun e =>
    chkList 6 (some e.page) (fun (r : SlotRec) => decide (r.period = 0) || decide (c % r.period ≠ 0) || decide (r.period ≤ r.phase))
      e.slots

/-- The LEN of the record a slot names. -/
def Sect.slotLen (e : Sect) (r : SlotRec) : Nat :=
  match r.action with
  | 1 => (moveRec e.bank r.index).len
  | 4 => (commitRec e.bank r.index).len
  | 8 => (laneRec e.bank r.index).len
  | _ => 0

/-- The move records that some SPARECOPY job names as re-run moves (R205). -/
def Sect.isRerun (e : Sect) (i : Nat) : Bool :=
  e.jobs.any fun j => j.isCopy && decide (j.moveFirst ≤ i) && decide (i < j.moveFirst + j.moveCnt)

/-- Code 0x07. -/
def TableSet.c07 (x : TableSet) : Option ChkFail :=
  let fl := hdrFrameLen x.dev
  x.sects.findSome? fun e =>
    (chkList 7 (some e.page) (fun (r : SlotRec) =>
      if r.action = 2 ∨ r.action = 9 then r.dur != 0
      else if r.action = 3 then r.dur == 0
      else r.dur == 0 && e.slotLen r != 0) e.slots) <|>
    (chkList 7 (some e.page) (fun (m : MoveRec × Nat) =>
      decide (fl < m.1.rerunDur) ||
      (if e.isRerun m.2 then m.1.rerunDur == 0 && m.1.len != 0 else m.1.rerunDur != 0)) e.moves.zipIdx)

/-- A window lies inside region `n`'s SRAM. -/
def inSram (n base len : Nat) : Bool :=
  decide (len = 0) || (decide (0x10000000 + n * 0x400000 ≤ base) && decide (base + len ≤ 0x10000000 + (n + 1) * 0x400000))

/-- The SCHED section of a region. -/
def TableSet.sched (x : TableSet) (n : Nat) : Option Sect := x.sects.find? fun e => !e.link && decide (e.inst = n)

/-- Two job records that are equal in every field other than FLAGS. -/
def sameJob (a b : JobRec) : Bool := decide ({ a with flags := 0 } = { b with flags := 0 })

/-- A job record breaks code 0x08. -/
def TableSet.jobBad (x : TableSet) (e : Sect) (j : JobRec) : Bool :=
  let n := e.inst
  (if j.isCopy then
    decide (j.spare / 4 ≠ n) || !inSram n j.spareIn j.inLen || !inSram n j.spareOut j.outLen ||
    decide (secNmove e.bank < j.moveFirst + j.moveCnt)
  else decide (j.triad / 4 ≠ n) || !inSram n j.inBase j.inLen || !inSram n j.outBase j.outLen) ||
  (j.spare != 0xFF && (decide (j.spare = j.triad) ||
    !(match x.sched (j.spare / 4) with
      | some f => f.jobs.any fun k => k.isCopy && sameJob j k
      | none => false))) ||
  decide (4095 < j.job) || decide (j.inLen % 64 ≠ 0) || decide (0x3FFFC0 < j.inLen) || decide (j.outLen % 64 ≠ 0) ||
  decide (0x3FFFC0 < j.outLen) || decide (0x1FFFF < j.entry)

/-- Code 0x08. -/
def TableSet.c08 (x : TableSet) : Option ChkFail :=
  x.sects.findSome? fun e => chkList 8 (some e.page) (x.jobBad e) e.jobs

/-- Code 0x09. -/
def TableSet.c09 (x : TableSet) : Option ChkFail :=
  x.sects.findSome? fun e =>
    chkList 9 (some e.page) (fun (j : JobRec) =>
      triadPl x.dev j.triad == 0 || (j.spare != 0xFF && triadPl x.dev j.spare == 0)) e.jobs

/-- Two slots are selected in one cycle position (R203). -/
def slotsMeet (cycle : Nat) (a b : SlotRec) : Bool :=
  (List.range cycle).any fun p => p % a.period == a.phase && p % b.period == b.phase

/-- The RELEASE slots of a section with their job records. -/
def Sect.releases (e : Sect) : List (SlotRec × JobRec) :=
  (e.slots.filter fun r => r.action == 2).map fun r => (r, jobRec e.bank r.index)

/-- A slot breaks code 0x0A. -/
def TableSet.orderBad (x : TableSet) (e : Sect) (r : SlotRec) : Bool :=
  let cy := hdrCycle x.dev
  match r.action with
  | 1 =>
    let m := moveRec e.bank r.index
    m.required && e.releases.any fun q => q.2.job == m.job && slotsMeet cy r q.1 && decide (q.1.time < r.time + r.dur)
  | 2 => decide ((jobRec e.bank r.index).deadline ≤ r.time)
  | 3 | 4 =>
    let c := commitRec e.bank r.index
    (e.jobs.any fun j => j.job == c.job && j.spare != 0xFF &&
      (decide (r.time < j.deadline + 200) || decide (r.time < j.spareDl + 100))) ||
    (decide (r.action = 3) && e.slots.any fun q =>
      q.action == 4 && q.index == r.index && slotsMeet cy r q && decide (q.time < r.time + r.dur))
  | _ => false

/-- Code 0x0A. -/
def TableSet.c0a (x : TableSet) : Option ChkFail :=
  (x.sects.filter fun e => !e.link).findSome? fun e =>
    (chkList 0xA (some e.page) (x.orderBad e) e.slots) <|>
    (chkList 0xA (some e.page) (fun (j : JobRec) => j.spare != 0xFF && decide (hdrFrameLen x.dev < j.spareDl)) e.jobs)

/-- Code 0x0B: runs of one triad from release to deadline. -/
def TableSet.c0b (x : TableSet) : Option ChkFail :=
  let cy := hdrCycle x.dev
  (x.sects.filter fun e => !e.link).findSome? fun e =>
    let rel := (e.slots.zipIdx.filter fun q => q.1.action == 2 && !(jobRec e.bank q.1.index).isCopy)
    (rel.find? fun a => rel.any fun b =>
      let ja := jobRec e.bank a.1.index
      let jb := jobRec e.bank b.1.index
      decide (b.2 < a.2) && ja.triad == jb.triad && slotsMeet cy a.1 b.1 &&
      decide (a.1.time < jb.deadline) && decide (b.1.time < ja.deadline)).map fun a => ⟨0xB, some e.page, a.2⟩

/-- An address range that no record may have (R26, R212 code 0x0C). -/
def rangeBad (a len : Nat) : Bool :=
  decide (len ≠ 0) &&
  (decide (classify a = .tcm) || decide (classify a = .unmapped) || decide (rangeEnd a < a + len - 1))

/-- Some byte of the range lies in region `n`'s SRAM. -/
def touchesRegion (n a len : Nat) : Bool :=
  decide (len ≠ 0) && decide (a < 0x10000000 + (n + 1) * 0x400000) && decide (0x10000000 + n * 0x400000 < a + len)

/-- A lane buffer lies in region SRAM or DDR4 (R207). -/
def bufferOk (a : Nat) : Bool :=
  match classify a with
  | .sram _ => true
  | .ddr _ => true
  | _ => false

/-- Code 0x0C. A lane's BUF outside region SRAM and DDR4 (R207) is refused here too: R212 names no code for it (DESIGN CHOICE,
assumption 62). -/
def TableSet.c0c (x : TableSet) : Option ChkFail :=
  x.sects.findSome? fun e =>
    let p := some e.page
    (chkList 0xC p (fun (m : MoveRec) => rangeBad m.src m.len || rangeBad m.dst m.len || decide (m.len % 2 ^ m.width ≠ 0))
      e.moves) <|>
    (chkList 0xC p (fun (c : CommitRec) =>
      rangeBad c.dst c.len || decide (c.len % 2 ^ c.width ≠ 0) || touchesRegion e.inst c.dst c.len) e.commits) <|>
    (chkList 0xC p (fun (l : LaneRec) => rangeBad l.buf l.len || (l.len != 0 && !bufferOk l.buf)) e.lanes)

/-- The slots of an action on a record, as (TIME, DURATION), in slot order. -/
def Sect.slotTimes (e : Sect) (action index : Nat) : List (Nat × Nat) :=
  (e.slots.filter fun r => r.action == action && r.index == index).map fun r => (r.time, r.dur)

/-- The commit records of a job in a section, with the SPARECOPY flag as given, by record number. -/
def Sect.commitsOf (e : Sect) (job : Nat) (copy : Bool) : List (Nat × CommitRec) :=
  (e.commits.zipIdx.filter fun q => q.1.job == job && q.1.isCopy == copy).map fun q => (q.2, q.1)

/-- A primary commit and its spare copy agree (R212 code 0x0D). -/
def commitPair (e f : Sect) (a b : Nat × CommitRec) : Bool :=
  decide (a.2.len = b.2.len) && decide (a.2.dst = b.2.dst) && decide (a.2.width = b.2.width) && decide (a.2.key = b.2.key) &&
  decide (e.slotTimes 3 a.1 = f.slotTimes 3 b.1) && decide (e.slotTimes 4 a.1 = f.slotTimes 4 b.1)

/-- Code 0x0D. -/
def TableSet.c0d (x : TableSet) : Option ChkFail :=
  (x.sects.filter fun e => !e.link).findSome? fun e =>
    (e.jobs.filter fun j => !j.isCopy && j.spare != 0xFF).findSome? fun j =>
      match x.sched (j.spare / 4) with
      | none => none
      | some f =>
        let mine := e.commitsOf j.job false
        let theirs := f.commitsOf j.job true
        if mine.length ≠ theirs.length then some ⟨0xD, some e.page, (mine.head?.map fun q => q.1).getD 0⟩
        else ((mine.zip theirs).find? fun q => !commitPair e f q.1 q.2).map fun q => ⟨0xD, some e.page, q.1.1⟩

/-- An owner of a grant is present (R208). -/
def ownerOk (dies o : Nat) : Bool :=
  decide (o < 32 * dies) || (decide (0x100 ≤ o) && decide (o < 0x100 + 8 * dies)) ||
  (decide (0x120 ≤ o) && decide (o < 0x128)) || (decide (0x130 ≤ o) && decide (o < 0x138))

/-- Two grants share a position (R208). -/
def grantsMeet (rcal : Nat) (a b : Nat × Nat × Nat × Nat) : Bool :=
  (List.range a.2.2.1).any fun i =>
    decide (((a.2.1 + i) % rcal + rcal - b.2.1) % rcal < b.2.2.1)

/-- Code 0x0E. -/
def TableSet.c0e (x : TableSet) (dies : Nat) : Option ChkFail :=
  let rcal := hdrRcal x.dev
  let rs := reserveRecs x.dev
  chkDev 0xE (rs.any fun r => !ownerOk dies r.2.2.2 || decide (rcal ≤ r.2.1) || decide (rcal < r.2.2.1) ||
    rs.any fun q => decide (q.1 = r.1) && decide (q.2.2.2 ≠ r.2.2.2) && grantsMeet rcal r q)

/-- Code 0x0F. -/
def TableSet.c0f (x : TableSet) : Option ChkFail :=
  let rr := openRr x.dev
  chkDev 0xF (!rr.contains 0x200 || !rr.contains 0x201 || !rr.contains 0x202 || decide (64 < rr.length) ||
    rr.any fun v => decide (1 < rr.count v))

/-- The VC is scheduled, once the switch has taken place, on every link to a device of the mask (R300). -/
def State.vcScheduled (s : State) (mask vc : Nat) : Bool :=
  decide (1 ≤ vc) && decide (vc ≤ 7) &&
  (List.range 16).all fun i =>
    let dev := s.fld (pgBvl i) 0x108 39 32
    decide (8 ≤ dev) || !bitAt mask dev || s.bit (pgBvl i) 0x110 (8 + vc)

/-- Code 0x10. -/
def TableSet.c10 (x : TableSet) (s : State) : Option ChkFail :=
  let b := x.dev
  (chkDev 0x10 ((agreeAt b).any fun o =>
    let m := bankByte b (o + 1)
    !bitAt m s.devid || decide (2 * bankByte b (o + 2) ≤ weight8 m) || !s.vcScheduled m (bankByte b (o + 3)))) <|>
  (x.sects.filter fun e => !e.link).findSome? fun e =>
    (chkList 0x10 (some e.page) (fun (c : CommitRec) => c.agree && (groupRec b c.group).isNone) e.commits) <|>
    (chkList 0x10 (some e.page) (fun (r : SlotRec) => r.action == 3 && !(commitRec e.bank r.index).agree) e.slots)

/-- Code 0x11. -/
def TableSet.c11 (x : TableSet) : Option ChkFail :=
  (x.sects.filter fun e => !e.link).findSome? fun e =>
    chkList 0x11 (some e.page) (fun (c : CommitRec) =>
      if c.fallback = 0xFFFFFFFF then !c.noFallback else decide (secPoolLen e.bank < c.fallback + c.len)) e.commits

/-- Code 0x12. An LSCHED section with a nonzero NMOVE, NCOMMIT or POOLLEN (R203) is refused here: R212 names no code for it
(DESIGN CHOICE, assumption 62). -/
def TableSet.c12 (x : TableSet) : Option ChkFail :=
  let devEnd := (deviceOffsets x.dir (up8 (0x40 + 16 * hdrNsect x.dev))).foldl (fun m e => max m (e.2 + e.1.len))
    (0x40 + 16 * hdrNsect x.dev)
  (chkDev 0x12 (decide (0x10000 < devEnd))) <|>
  x.sects.findSome? fun e =>
    let big :=
      if e.link then decide (16384 < e.len) || decide (64 < secNjob e.bank) || secNmove e.bank != 0 ||
        secNcommit e.bank != 0 || secPoolLen e.bank != 0
      else decide (65536 < e.len) || decide (256 < secNjob e.bank) || decide (1024 < secNmove e.bank) ||
        decide (1024 < secNcommit e.bank)
    if big then some ⟨0x12, some e.page, 0⟩ else none

/-- The check: the first failure in the order of the codes (R212). -/
def State.tableCheck (s : State) : Option ChkFail :=
  let x := s.tableSet
  x.c01 s.dies <|> x.c02 s.timeB.actGen <|> x.c03 s.dies s.devid <|> x.c04 <|> x.c05 <|> x.c06 <|> x.c07 <|> x.c08 <|> x.c09 <|>
  x.c0a <|> x.c0b <|> x.c0c <|> x.c0d <|> x.c0e s.dies <|> x.c0f <|> x.c10 s <|> x.c11 <|> x.c12

end Sys2Proof.Machine
end

