-- ==== Sys2Proof/Machine/Timebase.lean ====
section
/-! DEFINITION. TIME, frames, table banks, the table switch, alarms and the source of TIME (R179 to R183, R211 to R214,
R355); the SCHED, LSCHED and TIMEBASE pages. -/

namespace Sys2Proof.Machine

/-- SWSTAT's STATE and REASON. -/
def State.setSwstat (s : State) (st reason : Nat) : State :=
  s.setReg pgTime 0x158 (withBits (withBits (s.reg pgTime 0x158) 2 0 st) 15 8 reason)

/-- An armed switch is cancelled with a reason; TIMEBASE logs it (R214, R278). -/
def State.cancelSwitch (s : State) (reason : Nat) : State :=
  let s : State := { s with timeB := { s.timeB with armed := false } }
  ((s.setSwstat 4 reason).setFld pgTime 0x108 5 5 0).advisory pgTime 1 0xFF

/-- A write to an inactive bank clears the check result and cancels an armed switch (R211). -/
def State.bankWritten (s : State) : State :=
  let was := s.timeB.armed
  let checked := s.timeB.checked.isSome
  let s : State := { s with timeB := { s.timeB with checked := none } }
  if was then s.cancelSwitch 4 else if checked then s.setSwstat 0 0 else s

/-- Store eight bytes at a word of a bank. -/
def bankPut (b : AMap Word) (k : Nat) (v : Word) : AMap Word := AMap.set b (fun _ => 0) k v

/-- TBLDATA of the device bank, an engine or a link engine: 8 bytes at OFFSET, which advances by 1 (R211). -/
def State.tblDevice (s : State) (v : Word) : State :=
  let o := s.fld pgTime 0x130 15 3
  let s : State := { s with timeB := { s.timeB with inactive := bankPut s.timeB.inactive o v } }
  (s.setFld pgTime 0x130 15 3 ((o + 1) % 8192)).bankWritten

def State.tblSched (s : State) (n : Nat) (v : Word) : State :=
  let o := s.fld (pgSched n) 0x110 15 3
  let e := s.engine n
  let s := s.setEngine n { e with inactive := bankPut e.inactive o v }
  (s.setFld (pgSched n) 0x110 15 3 ((o + 1) % 8192)).bankWritten

def State.tblLsched (s : State) (q : Nat) (v : Word) : State :=
  let o := s.fld (pgLsched q) 0x110 13 3
  let e := s.lengine q
  let s := s.setLengine q { e with inactive := bankPut e.inactive o v }
  (s.setFld (pgLsched q) 0x110 13 3 ((o + 1) % 2048)).bankWritten

/-- CHKERR and CHKREC of an engine page. -/
def State.setChk (s : State) (page code rec' : Nat) : State :=
  s.setReg page 0x108 (withBits (withBits (s.reg page 0x108) 23 16 code) 47 32 rec')

/-- The engine pages of a device. -/
def State.enginePages (s : State) : List Nat := ((List.range s.nRegions).map pgSched) ++ ((List.range 8).map pgLsched)

/-- TBLCHK (R211, R212): the whole set is checked; engines without a section get an empty program. -/
def State.tblChk (s : State) : State :=
  let s := s.enginePages.foldl (fun s p => s.setChk p 0 0) s
  match s.tableCheck with
  | some f =>
    let s := match f.page with
      | some p => s.setChk p f.code f.rec'
      | none => s
    let s : State := { s with timeB := { s.timeB with checked := none } }
    let s := s.setFld pgTime 0x158 23 16 f.code
    if s.timeB.armed then s else s.setSwstat 0 0
  | none =>
    let x := s.tableSet
    let s := (List.range s.nRegions).foldl (fun s n =>
      if (x.sched n).isSome then s else s.setEngine n { s.engine n with inactive := [] }) s
    let s := (List.range 8).foldl (fun s q =>
      if x.sects.any fun e => e.link && decide (e.inst = q) then s else s.setLengine q { s.lengine q with inactive := [] }) s
    let s : State := { s with timeB := { s.timeB with checked := some (hdrGen x.dev) } }
    let s := s.setFld pgTime 0x158 23 16 0
    if s.timeB.armed then s else s.setSwstat 1 0

/-- The check has passed for generation SWGEN. -/
def State.checkedForGen (s : State) : Bool := decide (s.timeB.checked = some (s.reg pgTime 0x148))

/-- A write of SWFRAME arms the switch; some cancel it at once (R214, SWSTAT.REASON). -/
def State.armSwitch (s : State) : State :=
  let t := s.timeB
  let s : State := { s with timeB := { t with armed := true } }
  let s := s.setSwstat 2 0
  if t.actGen = 0 then (if s.checkedForGen then s else s.cancelSwitch 1)
  else if (s.reg pgTime 0x150).toNat ≤ t.frameNo then s.cancelSwitch 3
  else s

/-- R182 holds for the table in the inactive bank. -/
def State.precOk (s : State) : Bool := !hdrPrecise s.timeB.inactive || decide (s.fld pgTime 0x108 1 0 ≠ 0)

/-- PWR writes PL of each triad whose record names another nonzero level (R355). -/
def State.switchLevels (s : State) : State :=
  (List.range s.nTriads).foldl (fun s t =>
    let pl := triadPl s.timeB.active t
    if pl = 0 ∨ pl = s.fld pgPwr (tpwr t) 2 0 then s
    else
      let s := s.setFld pgPwr (tpwr t) 2 0 pl
      if s.powerState t = 2 then s.setPowerState t 3 else s) s

/-- VCCFG.SCHEDSH takes effect as SCHED at a switch (R300). -/
def State.switchVcs (s : State) : State :=
  let one (s : State) (p o : Nat) : State := s.setFld p o 7 1 (s.fld p o 15 9)
  let s := (List.range 16).foldl (fun s i => one s (pgBvl i) 0x110) s
  (List.range 16).foldl (fun s i => one s (pgEth i) 0x210) s

/-- Every engine changes banks with the device bank; one stopped by a reaction action stays stopped; a lost run stays
open until its stop is acknowledged (R187, R214). -/
def State.switchEngines (s : State) : State :=
  let s := (List.range s.nRegions).foldl (fun s n =>
    if s.bit pgPwr 0x138 n = false then s
    else
      let e := s.engine n
      s.setEngine n
        { e with
          active := e.inactive, inactive := e.active, bank := !e.bank
          state := if e.state = 2 then 2 else if s.bit (pgSched n) 0x100 0 then 1 else 3
          resume := false, runs := [], prev := [], opens := e.opens.filter fun o => o.2.lost
          moves := [], commits := [], ballots := [], votes := [], acted := [] }) s
  (List.range 8).foldl (fun s q =>
    let e := s.lengine q
    s.setLengine q
      { e with
        active := e.inactive, inactive := e.active, bank := !e.bank
        state := if e.state = 2 then 2 else if s.bit (pgLsched q) 0x100 0 then 1 else 3
        resume := false, rxPtr := [], written := [], stale := [], tx := [], acted := [] }) s

/-- The switch takes place at the start of the frame that has just begun (R214, R300, R355). -/
def State.doSwitch (s : State) : State :=
  let s := s.switchEngines
  let t := s.timeB
  let s : State := { s with timeB := { t with
    active := t.inactive, inactive := t.active, actGen := s.reg pgTime 0x148, checked := none, armed := false
    firstFrame := t.frameNo } }
  let s := (s.setSwstat 3 0).setFld pgTime 0x108 5 5 0
  s.switchVcs.switchLevels

/-- The first frame of the first table (R180, R214): TIME reaches the next whole multiple of the frame length. -/
def State.firstFrameStart (s : State) : State :=
  let len := hdrFrameLen s.timeB.inactive * 10
  let due := (s.now + len - 1) / len * len
  let s := s.advance due
  { s with timeB := { s.timeB with frameNo := due / len, frameStart := due } }

/-- The switch conditions at the start of a frame while a table is active (R182, R214). -/
def State.switchAtFrame (s : State) : State :=
  let t := s.timeB
  let at0 := decide ((t.frameNo - t.firstFrame) % hdrCycle t.active = 0)
  let waiting := s.bit pgTime 0x108 5
  let due := decide (t.frameNo = (s.reg pgTime 0x150).toNat)
  if t.armed = false ∨ (due = false ∧ waiting = false) then s
  else if s.checkedForGen = false then s.cancelSwitch 1
  else if at0 = false then (if waiting then s else s.cancelSwitch 2)
  else if s.precOk = false then s.setFld pgTime 0x108 5 5 1
  else s.doSwitch

/-- A new frame begins (R180, R182, R189, R214). -/
def State.frameBegin (s : State) : State :=
  let t := s.timeB
  let go (s : State) : State :=
    let s := (List.range s.nRegions).foldl (fun s n => s.engineFrame n) s
    (List.range 8).foldl (fun s q => s.lengineFrame q) s
  if t.actGen = 0 then
    if t.armed = false then s
    else if s.checkedForGen = false then s.cancelSwitch 1
    else if s.precOk = false then s.setFld pgTime 0x108 5 5 1
    else go s.firstFrameStart.doSwitch
  else
    let len := hdrFrameLen t.active * 10
    let due := t.frameStart + len
    let s := s.advance due
    let s : State := { s with timeB := { s.timeB with frameNo := t.frameNo + 1, frameStart := due } }
    go s.switchAtFrame

/-- A timebase alarm (R183): TIME reaches ALARMTn; the vector is requested; a periodic alarm moves past TIME. -/
def State.alarmFire (s : State) (n : Nat) : State :=
  if 4 ≤ n ∨ s.bit pgTime (0x180 + 8 * n) 0 = false then s
  else
    let t := (s.reg pgTime (0x160 + 8 * n)).toNat
    let s := s.advance t
    let s := s.irq (s.fld pgTime (0x180 + 8 * n) 13 8) (18 + n)
    let p := s.fld pgTime (0x180 + 8 * n) 63 32
    if p = 0 then s.setFld pgTime (0x180 + 8 * n) 0 0 0
    else s.setReg pgTime (0x160 + 8 * n) (BitVec.ofNat 64 (t + ((s.now - t) / p + 1) * p))

/-- TBSTAT's source fields: CURSRC, LOCKED, SWITCHING. -/
def State.setSrc (s : State) (cur : Nat) (locked switching : Bool) : State :=
  let w := s.reg pgTime 0x108
  s.setReg pgTime 0x108 (withBits (withBits (withBits w 1 0 cur) 2 2 (b2n locked)) 3 3 (b2n switching))

/-- A write of TBCTL.SRC: the change waits for lock (R181). -/
def State.askSource (s : State) (v : Nat) : State :=
  let cur := s.fld pgTime 0x108 1 0
  if v = cur then
    let s : State := { s with timeB := { s.timeB with pendSrc := none } }
    s.setFld pgTime 0x108 3 3 0
  else
    let s : State := { s with timeB := { s.timeB with pendSrc := some v } }
    s.setSrc cur false true

/-- The requested source reports lock and TIME takes it (R181). -/
def State.sourceLock (s : State) : State :=
  match s.timeB.pendSrc with
  | none => s.setFld pgTime 0x108 2 2 1
  | some v =>
    let s : State := { s with timeB := { s.timeB with pendSrc := none } }
    (s.setSrc v true false).setFld pgTime 0x108 4 4 0

/-- The source in use fails: TIME goes on on the internal oscillator, frames go on (R181). -/
def State.sourceFail (s : State) : State :=
  if s.fld pgTime 0x108 1 0 = 0 then s
  else
    let s := s.setSrc 0 false (s.bit pgTime 0x108 3)
    (s.setFld pgTime 0x108 4 4 0).report 0x1ED 1 0xFF 0

/-- A write of a SCHED register (R186, R211, R452). -/
def State.wSched (s : State) (n : Nat) (row : RegRow) (w : Wr) (old new : Word) : State × WOut :=
  let p := pgSched n
  match w.off with
  | 0x100 =>
    let s := s.storeReg .sched row w old (withBits new 1 1 0)
    let s := if w.sets 1 then [0x140, 0x148, 0x150, 0x158, 0x160, 0x168].foldl (fun s o => s.setReg p o 0) s else s
    (if bitsOf old 0 0 = bitsOf new 0 0 then s else s.enableEngine n (bitsOf new 0 0 == 1), .accepted)
  | 0x118 => (s.tblSched n (w.v &&& w.cover), .accepted)
  | 0x120 => (s.doneStore n w.iid (w.bits 43 32) (w.bits 1 0), .accepted)
  | _ => s.plainWrite .sched row w old new

/-- A write of an LSCHED register. -/
def State.wLsched (s : State) (q : Nat) (row : RegRow) (w : Wr) (old new : Word) : State × WOut :=
  let p := pgLsched q
  match w.off with
  | 0x100 =>
    let s := s.storeReg .lsched row w old (withBits new 1 1 0)
    let s := if w.sets 1 then [0x128, 0x130, 0x138].foldl (fun s o => s.setReg p o 0) s else s
    (if bitsOf old 0 0 = bitsOf new 0 0 then s else s.enableLengine q (bitsOf new 0 0 == 1), .accepted)
  | 0x118 => (s.tblLsched q (w.v &&& w.cover), .accepted)
  | _ => s.plainWrite .lsched row w old new

/-- A write of a TIMEBASE register. A board without crystal and reference clock has sources 0 and 3 only (R435). -/
def State.wTimebase (s : State) (row : RegRow) (w : Wr) (old new : Word) : State × WOut :=
  match w.off with
  | 0x100 =>
    if s.xtal = false ∧ w.covers 1 0 = true ∧ (bitsOf new 1 0 = 1 ∨ bitsOf new 1 0 = 2) then (s, .refused)
    else
      let s := s.storeReg .timebase row w old new
      (if w.covers 1 0 then s.askSource (bitsOf new 1 0) else s, .accepted)
  | 0x138 => (s.tblDevice (w.v &&& w.cover), .accepted)
  | 0x140 => (if w.sets 0 then s.tblChk else s, .accepted)
  | 0x150 => ((s.storeReg .timebase row w old new).armSwitch, .accepted)
  | _ => s.plainWrite .timebase row w old new

/-- A read of a SCHED register. -/
def State.rSched (s : State) (n off : Nat) (v : Word) : Word :=
  match off with
  | 0x108 => withBits (withBits v 4 4 (b2n (s.engine n).bank)) 2 0 (s.engine n).state
  | 0x118 => 0
  | 0x120 => 0
  | 0x130 => s.jstate n
  | _ => v

/-- A read of an LSCHED register. -/
def State.rLsched (s : State) (q off : Nat) (v : Word) : Word :=
  match off with
  | 0x108 => withBits (withBits v 4 4 (b2n (s.lengine q).bank)) 2 0 (s.lengine q).state
  | 0x118 => 0
  | _ => v

/-- A read of a TIMEBASE register. -/
def State.rTimebase (s : State) (off : Nat) (v : Word) : Word :=
  match off with
  | 0x110 => BitVec.ofNat 64 s.timeB.time
  | 0x118 => BitVec.ofNat 64 s.timeB.frameNo
  | 0x120 => BitVec.ofNat 64 s.timeB.frameStart
  | 0x128 => s.timeB.actGen
  | 0x138 => 0
  | 0x140 => 0
  | _ => v

end Sys2Proof.Machine
end

