-- ==== Sys2Proof/Machine/LiveService.lean ====
section
/-! DEFINITION. The preconditions of live service that the active tables set for a region (R22). -/

namespace Sys2Proof.Machine

/-- The banks of the active tables: SCHED and LSCHED (R22). -/
def State.activeBanks (s : State) : List (AMap Word) :=
  if s.timeB.actGen = 0 then [] else (List.range s.nRegions).map fun n => (s.engine n).active

def State.activeLinkBanks (s : State) : List (AMap Word) :=
  if s.timeB.actGen = 0 then [] else (List.range 8).map fun q => (s.lengine q).active

/-- The address ranges that an engine's job, move and commit records name (R22). -/
def bankRanges (b : AMap Word) : List (Nat × Nat) :=
  ((List.range (secNjob b)).flatMap fun i =>
    let j := jobRec b i
    [(j.inBase, j.inLen), (j.outBase, j.outLen), (j.spareIn, j.inLen), (j.spareOut, j.outLen)]) ++
  ((List.range (secNmove b)).flatMap fun i =>
    let m := moveRec b i
    [(m.src, m.len), (m.dst, m.len)]) ++
  (List.range (secNcommit b)).map fun i =>
    let c := commitRec b i
    (c.dst, c.len)

/-- The buffers that a link engine's lane records name. -/
def linkRanges (b : AMap Word) : List (Nat × Nat) :=
  (List.range (secNjob b)).map fun i =>
    let r := laneRec b i
    (r.buf, r.len)

/-- Some active table entry names region `n`'s SRAM (R22). -/
def State.tableNamesSram (s : State) (n : Nat) : Bool :=
  (s.activeBanks.flatMap bankRanges ++ s.activeLinkBanks.flatMap linkRanges).any fun r => touchesRegion n r.1 r.2

/-- Region reset, power and SRAM test: the triads Off or without jobs, no table entry on the SRAM (R22). -/
def State.regionFree (s : State) (n : Nat) : Bool :=
  ((List.range 4).all fun j => (s.triad (4 * n + j)).mode == 0 || !s.tableUses (4 * n + j)) && !s.tableNamesSram n

end Sys2Proof.Machine
end

