-- ==== Sys2Proof/Machine/Frame.lean ====
section
/-! DEFINITION. The bytes of a BVL frame (R295, R301, R302) and the check of a received one; FCS and length of an Ethernet frame (R319). -/

namespace Sys2Proof.Machine

/-- TYPE of a frame (R301). -/
def frameCode : BvlBody → Nat
  | .data _ => 1
  | .req _ _ _ _ => 2
  | .rsp _ _ => 3
  | .vote _ => 4
  | .time _ _ _ => 5
  | .svc _ _ _ => 6
  | .cap _ => 7
  | .ack => 8
  | .nak => 9

/-- A vote record (R197). -/
def voteBytes (v : VoteRec) : List Nat :=
  bytesOf v.dev 1 ++ bytesOf v.status 1 ++ bytesOf v.key 2 ++ bytesOf v.group 1 ++ [0, 0, 0] ++ bytesOf v.gen.toNat 8 ++
    bytesOf v.frame 8 ++ bytesOf v.digest.toNat 8

/-- A CAP payload (R295). -/
def capBytes (c : Cap) : List Nat :=
  bytesOf c.vermask 2 ++ bytesOf c.ratemask 1 ++ bytesOf c.maxlanes 1 ++ bytesOf c.srcdev 1 ++ bytesOf c.link 1 ++
    bytesOf c.state 1 ++ [b2n c.ready + 2 * b2n c.master] ++ bytesOf c.partid.toNat 8

/-- Bytes padded with zeros to a multiple of 8 (R301, R310). -/
def pad8 (bs : List Byte) : List Byte := bs ++ List.replicate ((8 - bs.length % 8) % 8) 0

/-- The payload of a frame (R302). -/
def payload (b : BvlBody) : List Nat :=
  let raw (bs : List Byte) : List Nat := bs.map fun x => x.toNat
  match b with
  | .data bs => raw bs
  | .req a k w bs => bytesOf a 8 ++ bytesOf k 1 ++ bytesOf w 1 ++ List.replicate 6 0 ++ raw bs
  | .rsp st bs => bytesOf st 1 ++ List.replicate 7 0 ++ raw bs
  | .vote v => voteBytes v
  | .time tx rl tl => bytesOf tx 8 ++ bytesOf rl 8 ++ bytesOf tl 8
  | .svc c a m => bytesOf c 8 ++ bytesOf a 8 ++ raw (pad8 m)
  | .cap c => capBytes c
  | .ack => []
  | .nak => []

/-- The 16-byte header (R301); `zeros` holds the bits of its zero fields. -/
def headerBytes (h : BvlHdr) (type len zeros : Nat) : List Nat :=
  let a := h.ack.getD (0, 0)
  [type % 256, h.vc % 8 + 8 * b2n h.retry + 16 * b2n h.plane + 32 * (zeros % 8)] ++ bytesOf len 2 ++ bytesOf h.seq 2 ++
    [a.1 % 8 + 8 * (zeros / 8 % 16) + 128 * b2n h.ack.isSome] ++ bytesOf h.srcdev 1 ++ bytesOf a.2 2 ++ bytesOf h.frameno 2 ++
    bytesOf h.tag 2 ++ bytesOf (zeros / 128) 2

/-- The CRC-32C of a frame, over header and payload (R257, R301). -/
def frameCrc (h : BvlHdr) (type len zeros : Nat) (b : BvlBody) : Nat := crcOf 1 (headerBytes h type len zeros ++ payload b)

/-- The bytes of a frame that is sent (R301): header, payload, CRC-32C, four zero bytes. -/
def frameBytes (h : BvlHdr) (b : BvlBody) : List Nat :=
  let n := (payload b).length
  headerBytes h (frameCode b) n 0 ++ payload b ++ bytesOf (frameCrc h (frameCode b) n 0 b) 4 ++ [0, 0, 0, 0]

/-- The zero bits that a payload holds (R295: bit 0 of VERMASK) are zero. -/
def bodyZero : BvlBody → Bool
  | .cap c => decide (c.vermask % 2 = 0)
  | _ => true

/-- A received frame passes the checks of R301: its CRC, a TYPE that is not reserved, a LEN that is its payload's, at most 1,024 and a
multiple of 8, zero fields that are zero. -/
def frameGood (rx : BvlRx) (b : BvlBody) : Bool :=
  let n := (payload b).length
  decide (rx.type = frameCode b) && decide (rx.len = n) && decide (n ≤ 1024) && decide (n % 8 = 0) && decide (rx.zeros = 0) &&
  bodyZero b && decide (rx.crc = frameCrc rx.hdr rx.type rx.len rx.zeros b)

/-- The FCS of a frame (R319): its CRC-32 (R257). -/
def ethFcs (bs : List Byte) : Nat := crcOf 0 (bs.map fun x => x.toNat)

/-- A frame as it goes out, with the FCS that the MAC generates (R319). -/
def ethWire (bs : List Byte) : List Byte := bs ++ (bytesOf (ethFcs bs) 4).map fun x => BitVec.ofNat 8 x

/-- The lengths without FCS that a MAC takes: 64 to 9,216 bytes with it (R319, R321). -/
def ethLength (n : Nat) : Bool := decide (60 ≤ n) && decide (n ≤ 9212)

/-- The receive status of a frame (R321): 0 good, 1 FCS error, 2 too long. One that is both reads 2 (DESIGN CHOICE, assumption 69). -/
def ethStatus (f : EthFrame) : Nat := if 9212 < f.bytes.length then 2 else if f.fcs ≠ ethFcs f.bytes then 1 else 0

end Sys2Proof.Machine
end

