-- ==== Sys2Proof/Machine/Link.lean ====
section
/-! DEFINITION. Lanes and BVL links (R290 to R318): lane states, partner entries, links and their sequence numbers, sending,
going Down, losing and regaining lanes. A link goes by the lane of its primary engine. -/

namespace Sys2Proof.Machine

/-- A lane beyond its registers. -/
def State.lane (s : State) (l : Nat) : LaneSt := AMap.get s.lanes (fun _ => LaneSt.idle) l
def State.setLane (s : State) (l : Nat) (x : LaneSt) : State :=
  { s with lanes := AMap.set s.lanes (fun _ => LaneSt.idle) l x }

/-- A link. -/
def State.link (s : State) (i : Nat) : Link := AMap.get s.links (fun _ => Link.empty) i
def State.setLink (s : State) (i : Nat) (x : Link) : State :=
  { s with links := AMap.set s.links (fun _ => Link.empty) i x }

/-- Something leaves the device. -/
def State.emit (s : State) (o : Out) : State := { s with out := s.out ++ [o] }

/-- The page of a link's block and the offset of one of its registers (R299, "BVL link block"). -/
def linkPage (i : Nat) : Nat := if i < 16 then pgBvl i else pgEth (i - 16)
def linkOff (i o : Nat) : Nat := if i < 16 then o else o + 0x100

/-- A field of a link's block, by its offset on the BVL page. -/
def State.lfld (s : State) (i o hi lo : Nat) : Nat := s.fld (linkPage i) (linkOff i o) hi lo
def State.setLfld (s : State) (i o hi lo v : Nat) : State := s.setFld (linkPage i) (linkOff i o) hi lo v
def State.lcount (s : State) (i o : Nat) : State := s.count (linkPage i) (linkOff i o)

/-- LSTAT.STATE of a lane: 0 Off, 1 Detect, 2 Exchange, 3 Training, 4 Confirm, 5 Active, 6 Quarantine, 7 Standby, 8 Failed, 9
Retuning, 10 Idle. -/
def State.laneState (s : State) (l : Nat) : Nat := s.fld (pgLane l) 0x108 3 0

/-- LCTL.PROTO of a lane: 1 BVL, 2 Ethernet. -/
def State.laneProto (s : State) (l : Nat) : Nat := s.fld (pgLane l) 0x100 13 12

/-- The quad's domain is on (DOMSTAT.QUAD). -/
def State.quadOn (s : State) (q : Nat) : Bool := s.bit pgPwr 0x138 (24 + q)

/-- The quad is isolated (R270). -/
def State.quadIsolated (s : State) (q : Nat) : Bool := s.bit pgFcol 0x1C0 q

/-- DEVICE-SAFE is in force (R275). -/
def State.dsafe (s : State) : Bool := s.fcol.dsafe

/-- The lane runs BVL: a join lane, or a rack lane with PROTO BVL (R290). -/
def State.laneBvl (s : State) (l : Nat) : Bool := decide (l < 16) || decide (s.laneProto l = 1)

/-- The link of a lane: its own on a rack lane, that of the primary engine on a join lane (R299). -/
def State.linkOfLane (s : State) (l : Nat) : Nat := if l < 16 then s.fld (pgBvl l) 0x108 12 8 else l

/-- The lanes of a link, ascending (R299): those of LANEMASK on a join link, the one lane of a rack BVL endpoint. -/
def State.linkLanes (s : State) (i : Nat) : List Nat :=
  if i < 16 then (List.range 16).filter fun l => bitAt (s.lfld i 0x100 47 32) l else if s.laneProto i = 1 then [i] else []

/-- The Active lanes of a link that its partner has not reported down (R312). -/
def State.activeLanes (s : State) (i : Nat) : List Nat :=
  (s.linkLanes i).filter fun l => s.laneState l == 5 && !(s.link i).away.contains l

/-- BLSTAT.STATE of a link: 0 Off, 1 Negotiating, 2 Active, 3 Degraded, 4 Quarantine, 5 Down, 6 Member, 7 Safe. -/
def State.linkState (s : State) (i : Nat) : Nat := s.lfld i 0x108 3 0

/-- The link carries frames of every kind (R307). -/
def State.linkUp (s : State) (i : Nat) : Bool := s.linkState i == 2 || s.linkState i == 3

/-- BLSTAT.STATE changes: the link's interrupt (BLIRQ). -/
def State.setLinkState (s : State) (i st : Nat) : State :=
  if s.linkState i = st then s
  else
    let s := s.setLfld i 0x108 3 0 st
    if s.lfld i 0x148 0 0 = 1 then s.irq (s.lfld i 0x148 21 16) (48 + s.lfld i 0x148 11 8) else s

/-- A response is on its way to its origin (R56). -/
def State.respond (s : State) (o : Origin) (r : Resp) : State := { s with resps := s.resps ++ [(o, r)] }

/-- TX actions under way on the lanes of a link end (R306): counted late, nothing sent. -/
def State.dropTx (s : State) (i : Nat) : State :=
  (s.linkLanes i).foldl (fun s l =>
    let q := l / 4
    let e := s.lengine q
    let mine (k : Nat) : Bool := decide (4 * q + (laneRec e.active k).lane = l)
    let late := e.tx.filter fun x => mine x.1
    let s := late.foldl (fun s _ => s.count (pgLsched q) 0x130) s
    s.setLengine q { e with tx := e.tx.filter fun x => !mine x.1 }) s

/-- A link goes Down (R306): the transactions of both sides end with an error, the buffers are emptied. -/
def State.linkDown (s : State) (i : Nat) : State :=
  let k := s.link i
  let s := k.peerOut.foldl (fun s p => s.respond p.origin .err) s
  let s := s.setLink i { Link.empty with downSince := s.now }
  let s := s.dropTx i
  s.setLinkState i 5

/-- The frame header that a link sends with (R301). -/
def State.header (s : State) (vc seq tag : Nat) (open' retry : Bool) : BvlHdr :=
  { vc := vc, retry := retry, plane := open', seq := seq, ack := none, srcdev := s.devid
    frameno := s.timeB.frameNo % 65536, tag := tag }

/-- Frames of a link's retry buffer: 1,024, or 512 on a rack endpoint (R299). -/
def retryRoom (i : Nat) : Nat := if i < 16 then 1024 else 512

/-- A VC the link may use now: under DEVICE-SAFE only VC 0 (R309), in Quarantine only VC 0 (R297). -/
def State.vcOpen (s : State) (i vc : Nat) : Bool :=
  if s.dsafe then decide (vc = 0) && decide (i < 16) && !(s.activeLanes i).isEmpty
  else s.linkUp i || (s.linkState i == 4 && decide (vc = 0))

/-- A TIME frame carries no sequence number (R302). -/
def unsequenced : BvlBody → Bool
  | .time _ _ _ => true
  | _ => false

/-- The lane that is handed the next frame: the next Active one in ascending order (R303); in Quarantine the link's first quarantined
lane; a TIME frame goes on the lowest Active lane (R315). -/
def State.nextLane (s : State) (i : Nat) (b : BvlBody) : Nat :=
  let ls := s.activeLanes i
  let low := (ls.head?.orElse fun _ => (s.linkLanes i).find? fun l => s.laneState l == 6).getD i
  if unsequenced b then low else (ls.find? fun l => decide ((s.link i).laneFrom ≤ l)).getD low

/-- Hand a frame to a lane (R303). -/
def State.handOver (s : State) (i : Nat) (h : BvlHdr) (b : BvlBody) : State :=
  let l := s.nextLane i b
  let s := if unsequenced b then s else s.setLink i { s.link i with laneFrom := l + 1 }
  (s.lcount i 0x120).emit (.bvl i l h b)

/-- Put a sequenced frame on the line and into the retry buffer (R304, R305). -/
def State.launch (s : State) (i : Nat) (h : BvlHdr) (b : BvlBody) : State :=
  let k := s.link i
  let n := AMap.get k.txSeq (fun _ => 0) h.vc
  let h := { h with seq := n }
  (s.setLink i { k with
    txSeq := AMap.set k.txSeq (fun _ => 0) h.vc ((n + 1) % 65536), retry := k.retry ++ [⟨h, b, s.now, 0⟩] }).handOver i h b

/-- The quad's sources of R268. -/
def quadSrc (l j : Nat) : Nat := 0x1D0 + 3 * (l / 4) + j

/-- Send a frame of the retry queue again (R305). -/
def State.sendAgain (s : State) (i vc n : Nat) : State :=
  let k := s.link i
  let hit (e : Kept) : Bool := e.hdr.vc == vc && e.hdr.seq == n
  let s := s.setLink i { k with
    again := k.again.erase (vc, n)
    retry := k.retry.map fun e => if hit e then { e with tries := e.tries + 1, since := s.now } else e }
  match k.retry.find? hit with
  | some e =>
    ((s.lcount i 0x130).report (quadSrc i 0) 1 (i % 4) 0).handOver i { e.hdr with retry := true } e.body
  | none => s

/-- The ready frame of a source of the rotation (R303): of the retry queue the oldest on a VC that is open; of a VC its oldest frame,
where the VC is open and, for a sequenced frame, the retry buffer has room (R305). -/
def State.readyAgain (s : State) (i : Nat) : Option (Nat × Nat) := (s.link i).again.find? fun x => s.vcOpen i x.1

def State.readyVc (s : State) (i vc : Nat) : Option (BvlHdr × BvlBody) :=
  let k := s.link i
  match k.wait.find? fun w => w.1.vc == vc with
  | some w => if s.vcOpen i vc = true ∧ (unsequenced w.2 = true ∨ k.retry.length < retryRoom i) then some w else none
  | none => none

/-- The source that sends next: the first with a ready frame from the one whose turn it is (R303). -/
def State.nextSource (s : State) (i : Nat) : Option Nat :=
  ((List.range 9).map fun j => ((s.link i).turn + j) % 9).find? fun j =>
    if j = 0 then (s.readyAgain i).isSome else (s.readyVc i (j - 1)).isSome

/-- A source sends one frame, and the turn passes on (R303). -/
def State.sendFrom (s : State) (i j : Nat) : State :=
  let s := s.setLink i { s.link i with turn := (j + 1) % 9 }
  if j = 0 then
    match s.readyAgain i with
    | some x => s.sendAgain i x.1 x.2
    | none => s
  else
    match s.readyVc i (j - 1) with
    | some w =>
      let k := s.link i
      let s := s.setLink i { k with wait := k.wait.erase w }
      if unsequenced w.2 then s.handOver i w.1 w.2 else s.launch i w.1 w.2
    | none => s

/-- The oldest ACK or NAK goes into a gap (R303). -/
def State.sendGap (s : State) (i : Nat) : State :=
  let k := s.link i
  match k.ctl with
  | c :: cs =>
    let s := s.setLink i { k with ctl := cs }
    (if c.2 = .nak then s.lcount i 0x138 else s).handOver i c.1 c.2
  | [] => s

/-- The transmitter runs until nothing is ready (R303): one frame of each source in turn, and in each gap between two frames at most one
ACK or NAK. Where no source has a frame ready, each turn that passes is a gap (DEDUCED, assumption 68). -/
def State.pumpN (s : State) (i : Nat) (gap : Bool) : Nat → State
  | 0 => s
  | fuel + 1 =>
    if gap = true ∧ (s.link i).ctl ≠ [] then (s.sendGap i).pumpN i false fuel
    else match s.nextSource i with
      | some j => (s.sendFrom i j).pumpN i true fuel
      | none => if (s.link i).ctl = [] then s else (s.sendGap i).pumpN i false fuel

def State.pumpLink (s : State) (i : Nat) : State :=
  let k := s.link i
  s.pumpN i true (k.wait.length + k.again.length + k.ctl.length)

/-- A frame waits for its source's turn (R303, R305). A VC that is not open takes none. -/
def State.queueFrame (s : State) (i vc tag : Nat) (open' : Bool) (b : BvlBody) : State :=
  if s.vcOpen i vc = false then s
  else
    let k := s.link i
    s.setLink i { k with wait := k.wait ++ [(s.header vc 0 tag open' false, b)] }

/-- Send a frame of a VC. -/
def State.sendFrame (s : State) (i vc tag : Nat) (open' : Bool) (b : BvlBody) : State :=
  (s.queueFrame i vc tag open' b).pumpLink i

/-- Send an ACK or a NAK about a VC (R302, R305), which the link may use now (R297, R309). -/
def State.sendCtl (s : State) (i vc seq : Nat) (ack : Option (Nat × Nat)) (b : BvlBody) : State :=
  if s.vcOpen i vc = false then s
  else
    let k := s.link i
    (s.setLink i { k with ctl := k.ctl ++ [({ s.header vc seq 0 false false with ack := ack }, b)] }).pumpLink i

/-- The number expected next on a VC. -/
def Link.expect (k : Link) (vc : Nat) : Nat := AMap.get k.rxSeq (fun _ => 0) vc

/-- A NAK of a VC with the expected number (R304). -/
def State.sendNak (s : State) (i vc : Nat) : State := s.sendCtl i vc ((s.link i).expect vc) none .nak

/-- The sequence number `a` is at or before `b`, modulo 65,536 (R304). -/
def seqLe (a b : Nat) : Bool := decide ((b + 65536 - a) % 65536 < 32768)

/-- An acknowledgement of a VC up to a number (R305). -/
def State.ackVc (s : State) (i vc n : Nat) : State :=
  let k := s.link i
  (s.setLink i { k with
    retry := k.retry.filter fun e => !(e.hdr.vc == vc && seqLe e.hdr.seq n)
    again := k.again.filter fun x => !(x.1 == vc && seqLe x.2 n) }).pumpLink i

/-- Retransmit, in order and through the retry queue, every unacknowledged frame of a VC from a number on (R305); at RETRYMAX the link
goes Down. -/
def State.retransmit (s : State) (i vc n : Nat) : State :=
  let k := s.link i
  let hit (e : Kept) : Bool := e.hdr.vc == vc && seqLe n e.hdr.seq
  let again := k.retry.filter hit
  if again.any fun e => decide (s.lfld i 0x100 31 24 ≤ e.tries) then
    (s.linkDown i).report (quadSrc i 1) 3 (i % 4) 0
  else
    let new := (again.map fun e => (e.hdr.vc, e.hdr.seq)).filter fun x => !k.again.contains x
    (s.setLink i { k with again := k.again ++ new }).pumpLink i

/-- Bring the link's own registers up to date after its lanes changed: ACTLANES, the LANES of every partner entry (R298). -/
def State.relinkLanes (s : State) (i : Nat) : State :=
  let act := s.activeLanes i
  let mask := act.foldl (fun m l => m + 2 ^ (if i < 16 then l else 0)) 0
  let s := if i < 16 then s.setLfld i 0x108 63 48 mask else s.setLfld i 0x108 48 48 mask
  (s.linkLanes i).foldl (fun s l =>
    if s.fld (pgLane l) 0x110 1 0 = 1 then s.setFld (pgLane l) 0x110 26 24 act.length else s) s

/-- STATE of a link from the states of its lanes: a link that comes up starts every sequence number at 0 (R304), one that has
lost its last lane goes Down (R306). -/
def State.relinkState (s : State) (i : Nat) : State :=
  let act := s.activeLanes i
  let st := s.linkState i
  let up : Bool := st == 2 || st == 3 || st == 7
  if act.isEmpty then
    if up then s.linkDown i
    else
      let sts := ((s.linkLanes i).map s.laneState).filter fun x => x != 0
      let q := sts.contains 6 && sts.all fun x => x == 6 || x == 8
      s.setLinkState i (if sts.isEmpty then 0 else if q then 4 else 1)
  else
    let s := if up then s else s.setLink i { Link.empty with full := act.length }
    let k := s.link i
    let s := s.setLink i { k with full := max k.full act.length }
    s.setLinkState i (if s.dsafe then 7 else if act.length < (s.link i).full then 3 else 2)

/-- After its lanes changed: a Member and a link that is Down keep their STATE. -/
def State.relink (s : State) (i : Nat) : State :=
  let s := s.relinkLanes i
  if s.linkState i = 6 ∨ s.linkState i = 5 then s else s.relinkState i

/-- Clear a lane's partner entry (R298). -/
def State.clearPartner (s : State) (l : Nat) : State :=
  (s.setReg (pgLane l) 0x110 (regReset (regKey (pgLane l) 0x110))).setReg (pgLane l) 0x118 0

/-- A lane changes state (R293), with the rate it runs at; training takes new equaliser code (R412). -/
def State.setLaneState (s : State) (l st rate : Nat) : State :=
  let s := (s.setFld (pgLane l) 0x108 3 0 st).setFld (pgLane l) 0x108 15 12 rate
  let s := if st = 8 then s else s.setFld (pgLane l) 0x108 19 16 0
  let s := if st = 3 ∨ st = 9 then s.setFld pgImage 0x128 l l 0 else s
  let s := if st ≤ 1 then (s.clearPartner l).setLane l { LaneSt.idle with spareFor := (s.lane l).spareFor } else s
  let i := s.linkOfLane l
  let k := s.link i
  let s := if k.away.contains l then s.setLink i { k with away := k.away.filter fun x => x != l } else s
  let s := s.relink i
  s.setFld (pgLaneq (l / 4)) 0x108 (l % 4) (l % 4) (b2n (s.laneState l == 5))

/-- ESTAT.LINK of a MAC changes (ESTAT, EIRQ). -/
def State.ethShow (s : State) (page : Nat) (up : Bool) : State :=
  if s.bit page 0x138 0 = up then s
  else
    let s := s.setFld page 0x138 0 0 (b2n up)
    if s.bit page 0x168 2 then s.irq (s.fld page 0x168 21 16) (48 + s.fld page 0x168 11 8) else s

/-- ESTAT.LINK of an Ethernet lane follows its Active state (ESTAT, EIRQ). -/
def State.ethLink (s : State) (m : Nat) (page : Nat) (up : Bool) : State :=
  if s.bit page 0x138 0 = up ∨ up = true ∨ 16 ≤ m then s.ethShow page up
  else (s.ethShow page up).report (quadSrc (16 + m) 1) 4 (m % 4) 0

/-- A lane's MAC sees its lane come or go. -/
def State.laneMac (s : State) (l : Nat) : State :=
  if l < 16 then s
  else s.ethLink (l - 16) (pgEth (l - 16)) (decide (s.laneState l = 5) && decide (s.laneProto l = 2))

/-- A partner entry is written (R298, R322): its QREASON, from the CAP of a BVL partner. A lane that is quarantined beside good ones
leaves their link's DEV and QREASON as they are (R297 code 6). -/
def State.writePartner (s : State) (l q : Nat) : State :=
  let x := s.lane l
  match x.cap with
  | none => s
  | some c =>
    let rate := if q = 0 then x.rate else 8
    let w := c.link % 32 * 2 ^ 32 + c.srcdev * 2 ^ 40 + c.state % 16 * 2 ^ 48 + q * 2 ^ 52 + 1 + rate * 16 +
      (if rate = 1 ∨ rate = 3 then 1 else 0) * 2 ^ 8 + (if q = 0 then x.version else 0) * 2 ^ 16
    let s := (s.setReg (pgLane l) 0x110 (BitVec.ofNat 64 w)).setReg (pgLane l) 0x118 c.partid
    let i := s.linkOfLane l
    let other := (s.linkLanes i).any fun y => y != l && s.fld (pgLane y) 0x110 1 0 == 1 && s.fld (pgLane y) 0x110 55 52 == 0
    let s := if q ≠ 0 ∧ other = true then s else (s.setLfld i 0x108 39 32 c.srcdev).setLfld i 0x108 23 20 q
    let s := if q = 0 then s.setLfld i 0x108 27 24 x.version else s
    s.advisory (pgLane l) 1 0xFF

/-- The position of a lane in its link (R312). -/
def State.lanePos (s : State) (i l : Nat) : Nat := ((s.linkLanes i).findIdx? fun x => x == l).getD 0

/-- VCs that have frames outstanding (R312). -/
def Link.busyVcs (k : Link) : List Nat :=
  (List.range 8).filter fun v => k.retry.any (fun e => e.hdr.vc == v) || k.held.any fun e => e.hdr.vc == v

/-- The lane of SPAREMASK that a link may take: Off or Detect, in no link of more lanes and itself not up (R312). -/
def State.spareLane (s : State) (i : Nat) : Option Nat :=
  if 16 ≤ i then none
  else (List.range 16).find? fun l =>
    bitAt (s.lfld i 0x100 63 48) l && decide (s.laneState l ≤ 1) && decide (s.linkState l ≠ 6) && decide (l ≠ i) &&
    decide ((s.linkLanes l).length ≤ 1) && (s.lane l).spareFor.isNone && s.quadOn (l / 4)

/-- A lane leaves its link: NAKs, the lane-down message, then a Standby lane or a spare comes in (R312). -/
def State.laneLeft (s : State) (i l : Nat) : State :=
  if s.linkUp i = false ∧ s.linkState i ≠ 7 then s
  else
    let s := (s.link i).busyVcs.foldl (fun s v => s.sendNak i v) s
    let s := s.sendFrame i 0 0 true (.svc 1 (s.lanePos i l) [])
    match (s.linkLanes i).find? fun x => s.laneState x == 7 with
    | some y => (s.setLaneState y 5 (s.lane y).rate).advisory (pgLane y) 2 0xFF
    | none =>
      match s.spareLane i with
      | some y =>
        let s := s.setLink i { s.link i with spareAsked := some l }
        (s.setLane y { s.lane y with spareFor := some i }).sendFrame i 0 0 true (.svc 2 (s.lanePos i l) [])
      | none => s

/-- A lane fails (R293, R311, R312). -/
def State.laneFail (s : State) (l why : Nat) : State :=
  let i := s.linkOfLane l
  let was := s.laneState l
  let s := s.setFld (pgLane l) 0x108 19 16 why
  let s := if why = 1 then s.setFld (pgLane l) 0x108 8 8 0 else s
  let s := (s.setLaneState l 8 0).laneMac l
  if was ≠ 5 ∨ s.laneBvl l = false then s
  else
    let s := s.report (quadSrc l 1) 1 (l % 4) 0
    s.laneLeft i l

/-- A lane joins its link (R293, R312): Active with room, else Standby. -/
def State.laneJoin (s : State) (l : Nat) : State :=
  let x := s.lane l
  let s := match x.spareFor with
    | some i =>
      let s := s.setLfld i 0x100 47 32 (setBitN (s.lfld i 0x100 47 32) l)
      let s := (s.setLfld l 0x108 12 8 i).setLfld l 0x108 3 0 6
      let s : State := { s.setLane l { x with spareFor := none } with spares := AMap.put l i s.spares }
      (s.writePartner l 0).advisory (pgLane l) 2 0xFF
    | none => s.writePartner l 0
  let i := s.linkOfLane l
  let others := ((s.linkLanes i).filter fun y => y != l && s.laneState y == 5).length
  s.setLaneState l (if others < x.lanes then 5 else 7) x.rate

/-- A BVL lane enters Quarantine with its code (R297). -/
def State.laneQuarantine (s : State) (l q : Nat) : State := (s.writePartner l q).setLaneState l 6 8

/-- A lane goes Idle: electrical idle (R293). -/
def State.laneIdle (s : State) (l : Nat) : State :=
  if s.laneState l = 0 then s else (s.setLaneState l 10 0).laneMac l

/-- A lane is Off (R293). -/
def State.laneOff (s : State) (l : Nat) : State :=
  let was := s.laneState l
  let i := s.linkOfLane l
  let s := (s.setFld (pgLane l) 0x108 8 8 0).setLaneState l 0 0
  let s := s.laneMac l
  if was = 5 then s.laneLeft i l else s

/-- Every lane of a quad goes Off and its links go Down: the domain is switched off (R293, R350). -/
def State.quadOff (s : State) (q : Nat) : State :=
  (List.range 4).foldl (fun s j => s.laneOff (4 * q + j)) s

/-- A lane that DEVICE-SAFE or ISOLATE keeps in electrical idle (R293). -/
def State.keptIdle (s : State) (l : Nat) : Bool := (s.dsafe && decide (16 ≤ l)) || s.quadIsolated (l / 4)

/-- LCTL.EN set with the quad domain on (R293). -/
def State.laneEnable (s : State) (l : Nat) : State :=
  if s.laneState l = 0 ∧ s.quadOn (l / 4) = true ∧ s.laneProto l ≠ 0 then s.setLaneState l (if s.keptIdle l then 10 else 1) 0
  else s

/-- A quad's domain comes on: enabled lanes negotiate (R349). -/
def State.quadLanesOn (s : State) (q : Nat) : State :=
  (List.range 4).foldl (fun s j =>
    let l := 4 * q + j
    if s.bit (pgLane l) 0x100 16 then s.laneEnable l else s) s

/-- A link that carries frames is closed (R306). -/
def State.closeLink (s : State) (i : Nat) : State := if s.linkUp i || s.linkState i == 7 then s.linkDown i else s

/-- ISOLATE of a quad (R270): engines stopped, the links of its lanes closed, lanes idle. A link that has lanes elsewhere goes Down as
well (R306). -/
def State.isolateQuad (s : State) (q : Nat) : State :=
  let s := s.setFld pgFcol 0x1C0 q q 1
  let s := s.setFld (pgLaneq q) 0x108 8 8 1
  let s := s.stopLengine q 2
  let s := (List.range 4).foldl (fun s j => s.closeLink (s.linkOfLane (4 * q + j))) s
  (List.range 4).foldl (fun s j => s.laneIdle (4 * q + j)) s

/-- RESTART by the service rings ends an ISOLATE of a quad (R270). -/
def State.restartQuad (s : State) (q iid : Nat) : State :=
  if iid ≠ 0x0201 ∨ s.quadIsolated q = false then s
  else
    let s := (s.setFld pgFcol 0x1C0 q q 0).setFld (pgLaneq q) 0x108 8 8 0
    let e := s.lengine q
    let s := if e.state = 2 ∧ s.dsafe = false then s.setLengine q { e with state := 3, resume := s.bit (pgLsched q) 0x100 0 } else s
    (List.range 4).foldl (fun s j =>
      let l := 4 * q + j
      if s.laneState l = 10 then
        if s.bit (pgLane l) 0x100 16 = false ∨ s.quadOn q = false then s.setLaneState l 0 0
        else if s.keptIdle l then s
        else s.setLaneState l 1 0
      else s) s

/-- DEVICE-SAFE on the lanes (R275, R293, R309): rack lanes idle, join links carry VC 0 only. -/
def State.lanesSafe (s : State) : State :=
  let s := (List.range 16).foldl (fun s j => s.laneIdle (16 + j)) s
  (List.range 16).foldl (fun s i => s.relink i) s

/-- 1 ms after a link went Down its lanes return to Detect (R306). -/
def State.downExpiry (s : State) (i : Nat) : State :=
  if s.linkState i ≠ 5 then s
  else
    let s := s.advance ((s.link i).downSince + 1000000)
    let s := (s.linkLanes i).foldl (fun s l =>
      if s.laneState l = 6 ∨ s.laneState l = 0 ∨ s.laneState l = 10 ∨ s.bit (pgLane l) 0x100 16 = false then s
      else s.setLaneState l 1 0) s
    s.relinkState i

/-- A write of LCTL (R293, R313, LCTL's refusals). -/
def State.lctlRefuse (s : State) (l : Nat) : State × WOut := (s.setFld (pgLane l) 0x108 20 20 1, .refused)

/-- RETUNE (R313). An Ethernet lane has no link and retrains without a report. -/
def State.laneRetune (s : State) (l : Nat) : State × WOut :=
  let i := s.linkOfLane l
  let standby := (s.linkLanes i).find? fun x => s.laneState x == 7
  if s.laneState l ≠ 5 then (s, .accepted)
  else if s.laneBvl l = false then
    ((s.setLaneState l 9 (s.fld (pgLane l) 0x108 15 12)).ethShow (pgEth (l - 16)) false, .accepted)
  else if s.activeLanes i = [l] ∧ standby.isNone then s.lctlRefuse l
  else
    let s := match standby with
      | some y => (s.setLaneState y 5 (s.lane y).rate).advisory (pgLane y) 2 0xFF
      | none => s
    let rate := s.fld (pgLane l) 0x108 15 12
    let s := s.setLaneState l 9 rate
    let s := (s.link i).busyVcs.foldl (fun s v => s.sendNak i v) s
    (s.sendFrame i 0 0 true (.svc 1 (s.lanePos i l) []), .accepted)

/-- The BVL versions that a quad's microcode supports (R296, R404). -/
def State.setBvlVers (s : State) (q m : Nat) : State := { s with bvlVers := AMap.set s.bvlVers (fun _ => 0x06) q (m % 65536) }

/-- RENEG (R293). -/
def State.laneReneg (s : State) (l : Nat) : State :=
  if s.laneState l = 8 ∨ s.laneState l = 6 then s.setLaneState l 1 0 else s

/-- SENDINDIGO (R318). -/
def State.sendIndigo (s : State) (l : Nat) : State :=
  if s.laneState l = 5 ∨ s.laneState l = 1 ∨ s.laneState l = 10 then s.emit (.indigo l) else s

/-- A write of a LANE register; the Ethernet rates need a crystal or a reference clock (R435). -/
def State.wLane (s : State) (l : Nat) (row : RegRow) (w : Wr) (old new : Word) : State × WOut :=
  match w.off with
  | 0x100 =>
    let moved := bitsOf old 13 12 ≠ bitsOf new 13 12 ∨ bitsOf old 8 0 ≠ bitsOf new 8 0
    let enOn := bitsOf old 16 16 = 0 ∧ bitsOf new 16 16 = 1
    if (moved ∧ s.laneState l ≠ 0) ∨ bitsOf new 13 12 = 3 ∨ (l < 16 ∧ bitsOf new 13 12 = 2) then s.lctlRefuse l
    else if enOn ∧ (s.quadOn (l / 4) = false ∨ (bitsOf new 13 12 = 2 ∧ s.xtal = false)) then s.lctlRefuse l
    else
      let s := s.storeReg .lane row w old (new &&& ~~~ (0x3060000 : Word))
      let s := if enOn then s.laneEnable l else if bitsOf new 16 16 = 0 ∧ bitsOf old 16 16 = 1 then s.laneOff l else s
      let s := if w.sets 25 then s.setReg (pgLane l) 0x120 0 else s
      let s := if w.sets 24 then s.sendIndigo l else s
      let s := if w.sets 17 then s.laneReneg l else s
      if w.sets 18 then s.laneRetune l else (s, .accepted)
  | _ => s.plainWrite .lane row w old new

/-- A refused BLCFG write. -/
def State.blRefuse (s : State) (i : Nat) : State × WOut := (s.setLfld i 0x108 16 16 1, .refused)

/-- Engine `j` is a link of its own that a mask may not name (R299): it has more than one lane, or is not Off. -/
def State.ownLink (s : State) (j : Nat) : Bool :=
  s.linkState j != 6 && (decide (1 < (s.linkLanes j).length) || s.linkState j != 0)

/-- A write of BLCFG (R299). A locked page judges what the write asks for, besides R8; the stored value raises nothing (R8). -/
def State.blcfgWrite (s : State) (i : Nat) (k : PageKind) (row : RegRow) (w : Wr) (old new : Word) : State × WOut :=
  let st := s.linkState i
  let asked := nextValue row old w false
  let m := bitsOf asked 47 32
  let lanes := bitsOf asked 2 0
  let okLanes := if i < 16 then lanes = 1 ∨ lanes = 2 ∨ lanes = 4 else lanes = 1
  let others := (List.range 16).filter fun j => j != i && bitAt m j
  if s.locked w.page = true ∧ asked = old then (s, .accepted)
  else if st ≠ 0 ∧ st ≠ 5 then s.blRefuse i
  else if ¬ okLanes ∨ bitsOf asked 31 24 = 0 ∨ bitsOf asked 23 16 = 0 then s.blRefuse i
  else if 16 ≤ i then s.plainWrite k row w old new
  else if bitAt m i = false ∨ (others.any fun j => decide (j < i)) then s.blRefuse i
  else if (others.any fun j => s.ownLink j || (s.linkState j == 6 && s.linkOfLane j != i)) then s.blRefuse i
  else if new ≠ asked then s.plainWrite k row w old new
  else
    let gone := (List.range 16).filter fun j => j != i && bitAt (bitsOf old 47 32) j && !bitAt m j
    let s := s.storeReg k row w old new
    let s := gone.foldl (fun s j =>
      (({ s with spares := AMap.drop j s.spares } : State).setLfld j 0x108 12 8 j).setLfld j 0x108 3 0 0) s
    (others.foldl (fun s j => (s.setLfld j 0x108 12 8 i).setLfld j 0x108 3 0 6) s, .accepted)

/-- OPENMAX is a multiple of 64, 64 to 1,024 (VCCFG). -/
def vccfgOk (new : Word) : Bool :=
  let m := bitsOf new 47 32
  decide (64 ≤ m) && decide (m ≤ 1024) && decide (m % 64 = 0)

/-- A write of a register of a link's block, by its offset on the BVL page. -/
def State.wLink (s : State) (i o : Nat) (k : PageKind) (row : RegRow) (w : Wr) (old new : Word) : State × WOut :=
  match o with
  | 0x100 => s.blcfgWrite i k row w old new
  | 0x110 => if vccfgOk new then s.plainWrite k row w old new else (s, .accepted)
  | 0x118 => if bitsOf new 1 0 = 3 then (s, .accepted) else s.plainWrite k row w old new
  | 0x148 =>
    let s := s.storeReg k row w old (withBits new 32 32 0)
    (if w.sets 32 then [0x120, 0x128, 0x130, 0x138, 0x140].foldl (fun s x => s.setReg (linkPage i) (linkOff i x) 0) s else s,
      .accepted)
  | _ => s.plainWrite k row w old new

/-- A write of LANEQ: RESTART. -/
def State.wLaneq (s : State) (q : Nat) (row : RegRow) (w : Wr) (old new : Word) : State × WOut :=
  match w.off with
  | 0x100 => (if w.sets 0 then s.restartQuad q w.iid else s, .accepted)
  | _ => s.plainWrite .laneq row w old new

end Sys2Proof.Machine
end

