-- ==== Sys2Proof/Machine/RegionRegs.lean ====
section
/-! DEFINITION. The REGION, CRCU, FWALL and DDRC pages: what their writes do and what their reads compute (R226, R233 to
R240, R250 to R252, R260 to R263; the register tables of 08_memory.md and 09_protection.md). -/

namespace Sys2Proof.Machine

/-- A write of a REGION register: RCTL.CLRCNT clears the counters. -/
def State.wRegion (s : State) (n : Nat) (row : RegRow) (w : Wr) (old new : Word) : State × WOut :=
  match w.off with
  | 0x128 => (if w.sets 0 then s.setFld (pgRegion n) 0x108 47 16 0 else s, .accepted)
  | _ => s.plainWrite .region row w old new

/-- A refused CCFG write (R263). -/
def State.crcRefuse (s : State) (n : Nat) : State × WOut := (s.setFld (pgCrcu n) 0x108 8 8 1, .refused)

/-- Another enabled stream context names the slot (R263). -/
def State.slotTaken (s : State) (n i slot : Nat) : Bool :=
  (s.ctxOf n 0).any fun j => j != i && s.ccfg n j 13 12 == slot

/-- A write of CCFG of context `i` (R263). -/
def State.ccfgWrite (s : State) (n i : Nat) (row : RegRow) (w : Wr) (old new : Word) : State × WOut :=
  if bitsOf old 0 0 = 1 then
    if bitsOf new 0 0 = 0 then s.plainWrite .crcu row w old (withBits old 0 0 0)
    else if old = new ∧ s.locked w.page = true then (s, .accepted)
    else s.crcRefuse n
  else if bitsOf new 9 8 = 3 then s.crcRefuse n
  else if bitsOf new 0 0 = 1 ∧ bitsOf new 9 8 = 0 ∧ s.slotTaken n i (bitsOf new 13 12) = true then s.crcRefuse n
  else s.plainWrite .crcu row w old new

/-- The written value of CVALUE: bits above the polynomial's width are ignored (R260). -/
def State.cvalueOf (s : State) (n i : Nat) (v : Word) : Word :=
  BitVec.ofNat 64 (v.toNat % 2 ^ crcWidth (s.ccfg n i 5 4))

/-- Initialise the contexts of a mask (R260). -/
def State.crcInitMask (s : State) (n mask : Nat) : State :=
  (List.range 8).foldl (fun s i => if bitAt mask i then s.crcInitCtx n i else s) s

/-- A write of a CRCU register. -/
def State.wCrcu (s : State) (n : Nat) (row : RegRow) (w : Wr) (old new : Word) : State × WOut :=
  if w.off = 0x100 then
    let s := s.storeReg .crcu row w old new
    (s.crcInitMask n (w.bits 7 0), .accepted)
  else if w.off < 0x200 then s.plainWrite .crcu row w old new
  else
    let i := (w.off - 0x200) / 0x40
    match (w.off - 0x200) % 0x40 with
    | 0 => s.ccfgWrite n i row w old new
    | 0x18 => s.plainWrite .crcu row w old (s.cvalueOf n i new)
    | _ => s.plainWrite .crcu row w old new

/-- A read of a CRCU register: CVALUE shows the bits of the polynomial's width, CRESULT is computed (R260). -/
def State.rCrcu (s : State) (n off : Nat) (v : Word) : Word :=
  if off < 0x200 then v
  else if (off - 0x200) % 0x40 = 0x18 then BitVec.ofNat 64 (s.crcValue n ((off - 0x200) / 0x40))
  else if (off - 0x200) % 0x40 = 0x28 then BitVec.ofNat 64 (s.crcResult n ((off - 0x200) / 0x40))
  else v

/-- The FWALL generation (R252): PGGEN of the page. -/
def State.fwGen (s : State) (n : Nat) : Word := AMap.get s.pggen (fun _ => 0) (pgFwall n)

/-- The rules of the active set that lie in an overlap (R244), as a mask. -/
def State.fwOverlap (s : State) (n : Nat) : Nat :=
  let p := pgFwall n
  let base (r : Nat) := s.fld p (fwActive r 0) 47 6
  let lim (r : Nat) := s.fld p (fwActive r 8) 47 6
  let at' (r : Nat) := s.reg p (fwActive r 0x10)
  let live (r : Nat) : Bool := bitsOf (at' r) 0 0 == 1 && decide (base r ≤ lim r) && decide (bitsOf (at' r) 47 32 ≤ bitsOf (at' r) 63 48)
  let meet (i j : Nat) : Bool :=
    i != j && live i && live j && decide (base i ≤ lim j) && decide (base j ≤ lim i) &&
    decide (bitsOf (at' i) 47 32 ≤ bitsOf (at' j) 63 48) && decide (bitsOf (at' j) 47 32 ≤ bitsOf (at' i) 63 48)
  (List.range 32).foldl (fun m i => if (List.range 32).any (meet i) then m + 2 ^ i else m) 0

/-- COMMIT (R252): the shadow replaces the active set, PGGEN increases, the overlap check runs (R244). -/
def State.fwCommit (s : State) (n : Nat) : State :=
  let p := pgFwall n
  let s := (List.range 32).foldl (fun s r =>
    ((s.setReg p (fwActive r 0) (s.reg p (fwShadow r 0))).setReg p (fwActive r 8) (s.reg p (fwShadow r 8))).setReg p
      (fwActive r 0x10) (s.reg p (fwShadow r 0x10))) s
  let s : State := { s with pggen := AMap.set s.pggen (fun _ => 0) p (s.fwGen n + 1) }
  let m := s.fwOverlap n
  let s := s.setReg p 0x110 (BitVec.ofNat 64 (m + b2n (m != 0) * 2 ^ 32))
  if m = 0 then s else s.report (0x140 + 6 * n + 4) 1 0xFF 0

/-- A write of an FWALL register; COMMIT is ignored while PGLOCK is set (R8, R252). -/
def State.wFwall (s : State) (n : Nat) (row : RegRow) (w : Wr) (old new : Word) : State × WOut :=
  let p := pgFwall n
  match w.off with
  | 0x100 =>
    let s := s.setReg p 0x100 (withBits new 2 1 0)
    let s := if w.sets 2 then s.setFld p 0x120 47 32 0 else s
    (if w.sets 1 ∧ s.locked p = false then s.fwCommit n else s, .accepted)
  | _ => s.plainWrite .fwall row w old new

/-- Requests in progress at region `n` under an older generation (FWSTAT.OLDCNT). -/
def State.oldCount (s : State) (n : Nat) : Nat :=
  ((AMap.get s.port (fun _ => []) n).filter fun r => r.gen != s.fwGen n).length

/-- A read of an FWALL register. -/
def State.rFwall (s : State) (n off : Nat) (v : Word) : Word :=
  match off with
  | 0x108 => withBits v 47 32 (s.oldCount n)
  | _ => v

/-- A refused DDRC write (DSTAT.REFUSE). -/
def State.refuseDdr (s : State) (k : Nat) : State × WOut := (s.ddrRefuse k, .refused)

/-- DCFG (R240). A locked page judges what the write asks for, besides R8; the stored value raises nothing (R8). -/
def State.dcfgWrite (s : State) (k : Nat) (row : RegRow) (w : Wr) (old new : Word) : State × WOut :=
  let st := s.dstate k
  let asked := nextValue row old w false
  if s.locked w.page = true ∧ asked = old then (s, .accepted)
  else if (st ≠ 0 ∧ st ≠ 1) ∨ 2 ≤ bitsOf asked 15 14 ∨ 32 < bitsOf asked 39 32 then s.refuseDdr k
  else s.plainWrite .ddrc row w old new

/-- DCTL.START (R233, R351): initial training of an installed channel whose domain is on. -/
def State.ddrStart (s : State) (k : Nat) : State × WOut :=
  let st := s.dstate k
  if s.ddrOn k = true ∧ s.bit (pgDdrc k) 0x100 0 = true ∧ (st = 1 ∨ (st = 7 ∧ s.mirrored k = false))
  then (s.setDstate k 2, .accepted) else s.refuseDdr k

/-- DCTL.INIT (R238). -/
def State.ddrInit (s : State) (k : Nat) : State × WOut :=
  if s.dstate k = 3 ∧ s.mirrored k = false then (s.setDstate k 9, .accepted) else s.refuseDdr k

/-- The zero fill of a channel completes (R238). -/
def State.ddrInitDone (s : State) (k : Nat) : State :=
  if s.dstate k = 9 then (s.setDdr k (Ram.filled 0)).setDstate k 3 else s

/-- DCTL.MIRROR set or cleared on an even channel (R234). The odd channel's words were written under the addresses of one window and
are read under those of the other from now on (R217). -/
def State.ddrMirror (s : State) (k : Nat) (on : Bool) : State × WOut :=
  let y := k + 1
  let busy (x : Nat) : Bool := s.dstate x == 5 || s.dstate x == 6
  if on then
    if s.dstate k = 3 ∧ s.dstate y = 3 ∧ s.reg (pgDdrc k) 0x100 = s.reg (pgDdrc y) 0x100 then
      let s := (s.setFld (pgDdrc k) 0x108 1 1 1).setDstate y 6
      let s := s.setDdr y ((s.ddrOf y).refold windowCol)
      ({ s with ddrDirty := AMap.set s.ddrDirty (fun _ => []) y (List.range (s.ddrGiB k * 1024)) }, .accepted)
    else s.refuseDdr k
  else if busy k ∨ busy y then s.refuseDdr k
  else
    let s := s.setFld (pgDdrc k) 0x108 1 1 0
    let s := s.setDdr y ((s.ddrOf y).refold windowCol)
    let s := if s.dstate k = 4 then s.setDstate k 3 else s
    (if s.dstate y = 4 then s.setDstate y 3 else s, .accepted)

/-- DCTL.RETRAIN (R236). -/
def State.ddrRetrain (s : State) (k : Nat) : State × WOut :=
  if s.mirrored k = true ∧ s.dstate k = 4 then ((s.setDstate k 5).setDstate (partner k) 3, .accepted)
  else if s.mirrored k = true ∧ s.dstate k = 7 ∧ s.dstate (partner k) = 3 then (s.setDstate k 5, .accepted)
  else s.refuseDdr k

/-- DCTL.RETIRE (R236, R237). -/
def State.ddrRetireWrite (s : State) (k : Nat) : State × WOut :=
  if s.dstate k = 8 then s.refuseDdr k
  else if s.mirrored k = true ∧ s.dstate k ≠ 4 then s.refuseDdr k
  else (s.ddrRetire k, .accepted)

/-- One bit of a DCTL write after another: a refusal of one is the answer of the write. -/
def dctlStep (ask : Bool) (f : State → State × WOut) (r : State × WOut) : State × WOut :=
  if ask = false then r
  else
    let x := f r.1
    (x.1, if r.2 = .refused then .refused else x.2)

/-- A write of a DDRC register. -/
def State.wDdrc (s : State) (k : Nat) (row : RegRow) (w : Wr) (old new : Word) : State × WOut :=
  match w.off with
  | 0x100 => s.dcfgWrite k row w old new
  | 0x108 =>
    let r : State × WOut := (if w.sets 0 then s.setFld (pgDdrc k) 0x118 47 0 0 else s, .accepted)
    let was := bitsOf old 1 1
    let now' := bitsOf new 1 1
    let r := dctlStep (decide (k % 2 = 0) && decide (was ≠ now')) (fun s => s.ddrMirror k (now' == 1)) r
    let r := dctlStep (w.sets 2) (fun s => s.ddrStart k) r
    let r := dctlStep (w.sets 3) (fun s => s.ddrInit k) r
    let r := dctlStep (w.sets 4) (fun s => s.ddrRetrain k) r
    dctlStep (w.sets 5) (fun s => s.ddrRetireWrite k) r
  | _ => s.plainWrite .ddrc row w old new

/-- A read of a DDRC register: MLEN, CAPGIB and DIRTY are computed. -/
def State.rDdrc (s : State) (k off : Nat) (v : Word) : Word :=
  match off with
  | 0x110 => withBits (withBits v 47 32 (s.ddrMlen k)) 24 16 (s.ddrGiB k)
  | 0x130 => BitVec.ofNat 64 (AMap.get s.ddrDirty (fun _ => []) k).length
  | _ => v

end Sys2Proof.Machine
end

