-- ==== Sys2Proof/Machine/Mem.lean ====
section
/-! DEFINITION. Requests on their way to the memories: the local ports' and channels' queues, the closed die bridge, and
the immediate reads and writes of engines, ports and the warden (R19, R29, R224, R229, R241, R249). -/

namespace Sys2Proof.Machine

/-- The die an initiator sits on: a compute die, or 2 for the I/O die (R9, R208, R209). -/
def iidDie (iid : Nat) : Nat :=
  if iid < 0x40 then iid / 32
  else if 0x100 ≤ iid ∧ iid < 0x110 then (iid - 0x100) / 8
  else if 0x230 ≤ iid ∧ iid < 0x240 then (iid - 0x230) / 8
  else 2

/-- The die a target sits on. -/
def targetDie (dies : Nat) : Target → Nat
  | .sram n => n / 8
  | .page p =>
    match pageKind dies p with
    | some (k, i) => match pageRegion k i with
      | some n => n / 8
      | none => 2
    | none => 2
  | _ => 2

/-- A closed die bridge lies between the two (R19). -/
def State.bridgeCuts (s : State) (iid : Nat) (t : Target) : Bool :=
  let a := iidDie iid
  let b := targetDie s.dies t
  a != b && s.bridgeShut.any fun d => d == a || d == b

/-- The requests that wait at region `n`'s local port. -/
def State.portOf (s : State) (n : Nat) : List FabReq := AMap.get s.port (fun _ => []) n
def State.setPort (s : State) (n : Nat) (q : List FabReq) : State := { s with port := AMap.set s.port (fun _ => []) n q }

/-- The requests that wait at channel `k`. -/
def State.ddrQOf (s : State) (k : Nat) : List FabReq := AMap.get s.ddrQ (fun _ => []) k
def State.setDdrQ (s : State) (k : Nat) (q : List FabReq) : State := { s with ddrQ := AMap.set s.ddrQ (fun _ => []) k q }

/-- A request lies in the SRAM block that a BIST run holds (R385). -/
def State.bistHolds (s : State) (n : Nat) (r : FabReq) : Bool :=
  match s.bist.run with
  | some b => b.kind == 1 && b.inst == n && (r.addr - sramBase n) / 0x2000 == b.block
  | none => false

/-- The next request that region `n` serves: the first in arrival order that no BIST run holds (R224, R385). -/
def State.sramServe (s : State) (n : Nat) : State :=
  let q := s.portOf n
  match q.find? fun r => !s.bistHolds n r with
  | none => s
  | some r =>
    let x := (s.setPort n (q.erase r)).sramPerform n r
    x.1.respond r.origin x.2

/-- Serve everything that waits at region `n`. -/
def State.drainPort (s : State) (n : Nat) : State := (s.portOf n).foldl (fun s _ => s.sramServe n) s

/-- Serve everything that waits at region `n`, the block of a self-test run too: its contents are those that the run restores
(R385, assumption 51). -/
def State.drainAll (s : State) (n : Nat) : State :=
  (s.portOf n).foldl (fun s _ =>
    match s.portOf n with
    | [] => s
    | r :: q =>
      let x := (s.setPort n q).sramPerform n r
      x.1.respond r.origin x.2) s

/-- The next request that channel `k` serves (R229). -/
def State.ddrServeNext (s : State) (k : Nat) : State :=
  match s.ddrQOf k with
  | [] => s
  | r :: q =>
    let x := (s.setDdrQ k q).ddrPerform k r
    x.1.respond r.origin x.2

/-- Serve everything that waits at channel `k`. -/
def State.drainDdr (s : State) (k : Nat) : State := (s.ddrQOf k).foldl (fun s _ => s.ddrServeNext k) s

/-- A request to a region's port: judged by the firewall as it arrives, under the generation in force (R241, R252). -/
def State.enqueueSram (s : State) (n : Nat) (r : FabReq) : State :=
  if s.regionOn n = false then s.respond r.origin .err
  else match s.fwJudge n r.iid r.kind r.addr r.size with
    | (s, true) => s.setPort n (s.portOf n ++ [{ r with gen := s.fwGen n }])
    | (s, false) => s.respond r.origin .err

/-- A request to a channel: with the channel's domain off or switching it is answered with a domain-off response (R16). -/
def State.enqueueDdr (s : State) (k : Nat) (r : FabReq) : State :=
  if s.ddrLive k then s.setDdrQ k (s.ddrQOf k ++ [r]) else s.respond r.origin .err

/-- Pieces of at most 8 bytes, none across a word: address and length. -/
def pieces : Nat → Nat → Nat → List (Nat × Nat)
  | 0, _, _ => []
  | fuel + 1, a, n =>
    if n = 0 then []
    else
      let c := min n (8 - a % 8)
      (a, c) :: pieces fuel (a + c) (n - c)

/-- The bytes of a number as `Byte`s. -/
def toBytes (v n : Nat) : List Byte := (bytesOf v n).map fun b => BitVec.ofNat 8 b

/-- The number that bytes spell, little-endian. -/
def ofBytes : List Byte → Nat
  | [] => 0
  | b :: bs => b.toNat + 256 * ofBytes bs

/-- An access of an initiator that receives no open slot (R209): it waits until the tag tracker ends it after 1 ms (R256). It
would have the first tag of its range (DESIGN CHOICE, assumption 65). -/
def State.starved (s : State) (iid : Nat) : State :=
  match tagRange iid with
  | some (b, _) => (s.advance (s.now + 1000000)).report 0x1EE 2 0xFF (BitVec.ofNat 64 b)
  | none => s

/-- One read of at most 8 bytes from region SRAM or DDR4 by an initiator, behind everything that waits there. -/
def State.memRead1 (s : State) (iid a n : Nat) : State × Option (List Byte) :=
  let t := classify a
  if s.openSlot iid = false then (s.starved iid, none)
  else if s.bridgeCuts iid t then (s, none)
  else match t with
    | .sram r =>
      let s := s.drainAll r
      match s.fwJudge r iid .load a n with
      | (s, false) => (s, none)
      | (s, true) =>
        if s.sramReady r = false then (s, none)
        else match s.sramRead r a n with
          | (s, some q) => (s, some (toBytes q.toNat n))
          | (s, none) => (s, none)
    | .ddr k =>
      let s := s.drainDdr k
      let o := a - ddrBase k
      if s.ddrLive k = false ∨ s.ddrGiB k * 0x40000000 < o + n then (s, none)
      else match s.ddrRead k o n with
        | (s, some q) => (s, some (toBytes q.toNat n))
        | (s, none) => (s, none)
    | _ => (s, none)

/-- One write of at most 8 bytes. -/
def State.memWrite1 (s : State) (iid a : Nat) (bs : List Byte) : State × Bool :=
  let t := classify a
  let n := bs.length
  let q : Quad := BitVec.ofNat 128 (ofBytes bs)
  if s.openSlot iid = false then (s.starved iid, false)
  else if s.bridgeCuts iid t then (s, false)
  else match t with
    | .sram r =>
      let s := s.drainAll r
      match s.fwJudge r iid .store a n with
      | (s, false) => (s, false)
      | (s, true) => if s.sramReady r = false then (s, false) else s.sramWrite r a n q
    | .ddr k =>
      let s := s.drainDdr k
      let o := a - ddrBase k
      if s.ddrLive k = false ∨ s.ddrGiB k * 0x40000000 < o + n then (s, false) else s.ddrWrite k o n q
    | _ => (s, false)

/-- Read the pieces in order; the first failure ends it. -/
def State.memReadPieces (s : State) (iid : Nat) : List (Nat × Nat) → List Byte → State × Option (List Byte)
  | [], acc => (s, some acc)
  | p :: ps, acc =>
    match s.memRead1 iid p.1 p.2 with
    | (s, some b) => s.memReadPieces iid ps (acc ++ b)
    | (s, none) => (s, none)

/-- Read `n` bytes at `a`. -/
def State.memRead (s : State) (iid a n : Nat) : State × Option (List Byte) := s.memReadPieces iid (pieces (n + 1) a n) []

/-- Write the pieces in order; bytes already written stand. -/
def State.memWritePieces (s : State) (iid : Nat) : List (Nat × Nat) → List Byte → State × Bool
  | [], _ => (s, true)
  | p :: ps, bs =>
    match s.memWrite1 iid p.1 (bs.take p.2) with
    | (s, true) => s.memWritePieces iid ps (bs.drop p.2)
    | (s, false) => (s, false)

/-- Write bytes at `a`. -/
def State.memWrite (s : State) (iid a : Nat) (bs : List Byte) : State × Bool :=
  s.memWritePieces iid (pieces (bs.length + 1) a bs.length) bs

end Sys2Proof.Machine
end

