-- ==== Sys2Proof/Machine/Vme.lean ====
section
/-! DEFINITION. The VME port (R323 to R339): windows and images, the outbound queue, the slave side, interrupts, slot 1,
partners and discovery, the tandem bridge's entries, the stop. -/

namespace Sys2Proof.Machine

/-- The legacy bank's domain is on (DOMSTAT.LEGACY). -/
def State.legacyOn (s : State) : Bool := s.bit pgPwr 0x138 32

/-- The port works: enabled, powered, not stopped (VCFG.EN, R339, R351). -/
def State.vmeOn (s : State) : Bool := s.bit pgVme 0x100 0 && s.legacyOn && !s.vme.stopped

/-- The slot that the geographic address pins give, 1 to 21 (R323, VSTAT). -/
def State.vmeSlot (s : State) : Option Nat := s.slot.filter fun n => decide (1 ≤ n) && decide (n ≤ 21)

/-- A read of a VME register: SLOT and GAVALID show the pins. -/
def State.rVme (s : State) (off : Nat) (v : Word) : Word :=
  if off = 0x110 then withBits (withBits v 10 10 (b2n s.vmeSlot.isSome)) 4 0 (s.vmeSlot.getD 0) else v

/-- VSTAT.REFUSE. -/
def State.vmeRefuse (s : State) : State × WOut := (s.setFld pgVme 0x110 13 13 1, .refused)

/-- Replace the queue; VSTAT.OBQ shows its length. -/
def State.setVmeQueue (s : State) (q : List VmeEntry) : State :=
  { s with vme := { s.vme with queue := q } }.setFld pgVme 0x110 23 16 q.length

/-- Registers of outbound window `w` and inbound image `i`. -/
def owReg (w o : Nat) : Nat := 0x100 + 0x20 * w + o
def iwReg (i o : Nat) : Nat := 0x300 + 0x20 * i + o

/-- The last address of a VME space: A16, A24, A32, A64. -/
def spaceEnd (sp : Nat) : Nat :=
  match sp with
  | 0 => 0xFFFF
  | 1 => 0xFFFFFF
  | 2 => 0xFFFFFFFF
  | _ => 0xFFFFFFFFFFFFFFFF

/-- The enabled outbound window that holds a local address (R325). -/
def State.owFind (s : State) (a : Nat) : Option Nat :=
  (List.range 16).find? fun w =>
    s.bit pgVmemap (owReg w 0x18) 15 && decide ((s.reg pgVmemap (owReg w 0)).toNat / 65536 ≤ a / 65536) &&
    decide (a / 65536 ≤ (s.reg pgVmemap (owReg w 8)).toNat / 65536)

/-- Fields of a partner entry. -/
def State.pres (s : State) (p hi lo : Nat) : Nat := s.fld pgVmepart (0x110 + 0x20 * p) hi lo
def State.pcfg (s : State) (p hi lo : Nat) : Nat := s.fld pgVmepart (0x100 + 0x20 * p) hi lo
def State.dbusy (s : State) (p : Nat) : Bool := s.bit pgVmepart 0x508 p

/-- The VME side of an outbound address, or none for a bus error without a cycle (R325). -/
def State.owTranslate (s : State) (a : Nat) : Option (Nat × Nat × Nat × Bool × Bool) :=
  match s.owFind a with
  | none => none
  | some w =>
    let at' := s.reg pgVmemap (owReg w 0x18)
    let part := bitsOf at' 12 8
    let sp := bitsOf at' 5 4
    if s.dbusy part ∨ s.pres part 6 4 = 0 ∨ bitAt (s.pres part 11 8) sp = false then none
    else
      let base := (s.reg pgVmemap (owReg w 0)).toNat
      let xl := (s.reg pgVmemap (owReg w 0x10)).toNat
      some (a - base + xl, sp, part, bitsOf at' 1 1 == 1, bitsOf at' 2 2 == 1)

/-- The address modifier of a cycle, by space, SUP, PROG and its protocol: 0 for single cycles, 1 BLT, 2 MBLT, 3 and above 2eVME and
2eSST (R325; the codes are those of ANSI/VITA 1, assumption 20). -/
def vmeAm (sp : Nat) (sup prog : Bool) (proto : Nat) : Nat :=
  let u := if sup then 4 else 0
  if sp = 4 then 0x2F
  else if 3 ≤ proto then 0x20
  else match sp with
    | 0 => 0x29 + u
    | 1 => 0x38 + u + (if proto = 2 then 0 else if proto = 1 then 3 else if prog then 2 else 1)
    | 2 => 0x08 + u + (if proto = 2 then 0 else if proto = 1 then 3 else if prog then 2 else 1)
    | _ => if proto = 2 then 0 else if proto = 1 then 3 else 1

/-- Record an error where none is held (VERRADR, VERRINF). -/
def State.vmeError (s : State) (addr part am cause dir : Nat) : State :=
  if s.bit pgVme 0x138 0 then s
  else
    (s.setReg pgVme 0x130 (BitVec.ofNat 64 addr)).setReg pgVme 0x138
      (BitVec.ofNat 64 (1 + dir * 2 + cause * 16 + am * 256 + part * 65536))

/-- Store an entry's answer for a triad's posted write: FENCE counts it until it ends (R151, R327). -/
def State.postedStep (s : State) (iid : Nat) (up : Bool) : State :=
  if iid < 64 then
    let d := s.triad iid
    s.setTriad iid { d with posted := if up then d.posted + 1 else d.posted - 1 }
  else s

/-- Posted entries in the queue. -/
def State.postedCount (s : State) : Nat := (s.vme.queue.filter fun e => e.posted).length

/-- A request at the outbound windows is translated and queued, or answered with a bus error (R325, R327). With the queue or
the posted room full it waits in front. -/
def State.outbound (s : State) : State :=
  match s.vmeIn with
  | [] => s
  | r :: rest =>
    let gone : State := { s with vmeIn := rest }
    if s.legacyOn = false ∨ s.vmeOn = false then gone.respond r.origin .err
    else match s.owTranslate r.addr with
      | none => gone.respond r.origin .err
      | some (va, sp, part, sup, prog) =>
        let post := decide (r.iid < 64) && decide (r.kind = .store ∨ r.kind = .frame)
        if 24 ≤ s.vme.queue.length ∨ (post = true ∧ 16 ≤ s.postedCount) then s
        else
          let e : VmeEntry := ⟨.access r, va, sp, part, sup, prog, post, s.now, false⟩
          let s := gone.setVmeQueue (s.vme.queue ++ [e])
          if post then (s.postedStep r.iid true).respond r.origin (.ok 0) else s

/-- The port's own interrupter asserts a level (R333). -/
def State.ownLevel (s : State) (n : Nat) : Bool :=
  s.vmeOn && s.bit pgVme 0x118 16 && decide (s.fld pgVme 0x118 2 0 = n) && decide (n ≠ 0)

/-- The handler queues IACK cycles for enabled asserted levels, from 7 downward, while the FIFO has room (R333). -/
def State.vmeHandler (s : State) : State :=
  if s.vmeOn = false then s
  else
    [7, 6, 5, 4, 3, 2, 1].foldl (fun s n =>
      let iacks := s.vme.queue.filter fun e => match e.work with | .iack _ => true | _ => false
      let mine := iacks.any fun e => match e.work with | .iack m => m == n | _ => false
      if (s.vme.lines.contains n = true ∨ s.ownLevel n = true) ∧ s.bit pgVme 0x120 n ∧ mine = false ∧
          s.vme.fifo.length + iacks.length < 16 ∧ s.vme.queue.length < 24
      then s.setVmeQueue (s.vme.queue ++ [⟨.iack n, 0, 0, 0, false, false, false, s.now, false⟩])
      else s) s

/-- Another board asserts an interrupt level (R333). -/
def State.vmeLine (s : State) (n : Nat) : State :=
  let v := s.vme
  { s with vme := { v with lines := if v.lines.contains n then v.lines else v.lines ++ [n] } }.vmeHandler

/-- A refused inbound cycle (R329). -/
def State.inRefuse (s : State) (c : VmeCycle) : State × Option (Bool × Quad) :=
  let s := (s.count pgVme 0x158).vmeError c.addr 0 c.am 3 1
  (s.report 0x1E8 2 0xFF 0, some (false, 0))

/-- An answered inbound cycle. -/
def State.inAnswer (s : State) (q : Quad) : State × Option (Bool × Quad) := (s.count pgVme 0x148, some (true, q))

/-- The answer goes out on the bus. -/
def onBus (r : State × Option (Bool × Quad)) : State :=
  match r with
  | (s, some (ok, q)) => s.emit (.vmeAnswer ok q)
  | (s, none) => s

/-- The enabled inbound image that holds an address of a space (R329). -/
def State.iwFind (s : State) (sp a : Nat) : Option Nat :=
  (List.range 8).find? fun i =>
    let at' := s.reg pgVmemap (iwReg i 0x18)
    bitsOf at' 15 15 == 1 && bitsOf at' 5 4 == sp && decide ((s.reg pgVmemap (iwReg i 0)).toNat / 65536 ≤ a / 65536) &&
    decide (a / 65536 ≤ (s.reg pgVmemap (iwReg i 8)).toNat / 65536)

/-- The tandem channel that joins inbound image `i` to a TX record (R338). -/
def State.tandemIn (s : State) (i : Nat) : Option Nat :=
  (List.range 8).find? fun c =>
    let w := s.reg pgVmemap (0x400 + 0x10 * c)
    bitsOf w 0 0 == 1 && bitsOf w 1 1 == 1 && bitsOf w 11 8 == i

/-- The lane record a tandem channel names. -/
def State.tandemRec (s : State) (c : Nat) : Nat × Nat :=
  let w := s.reg pgVmemap (0x400 + 0x10 * c)
  (bitsOf w 18 16, bitsOf w 25 20)

/-- The channel's image covers exactly the record's buffer (R338). -/
def State.tandemRange (s : State) (c i : Nat) : Bool :=
  let r := s.tandemRec c
  let l := laneRec (s.lengine r.1).active r.2
  let lo' := (s.reg pgVmemap (iwReg i 0x10)).toNat
  let n := ((s.reg pgVmemap (iwReg i 8)).toNat / 65536 - (s.reg pgVmemap (iwReg i 0)).toNat / 65536 + 1) * 65536
  decide (lo' = l.buf) && decide (n = l.len)

/-- The memory access of an inbound cycle, answered with DTACK or BERR (R329). -/
def State.inboundDo (s : State) (i iid : Nat) (c : VmeCycle) : State × Option (Bool × Quad) :=
  let a := c.addr - (s.reg pgVmemap (iwReg i 0)).toNat + (s.reg pgVmemap (iwReg i 0x10)).toNat
  if c.write then
    match s.memWrite iid a (toBytes c.data.toNat c.size) with
    | (s, true) => s.inAnswer 0
    | (s, false) => s.inRefuse c
  else
    match s.memRead iid a c.size with
    | (s, some bs) => s.inAnswer (BitVec.ofNat 128 (ofBytes bs))
    | (s, none) => s.inRefuse c

/-- Claimed protocols of the port's function 0 (R323, R331): BLT and MBLT; 2eVME and 2eSST only while TWOE is set. -/
def State.ownProtos (s : State) : Nat := if s.bit pgVme 0x100 2 then 0x7E else 0x06

/-- Byte `k`, from the most significant, of an `n`-byte CR field that starts at `base`; a CR byte stands in every fourth address. -/
def crPart (base n v off : Nat) : Option Nat :=
  if base ≤ off ∧ off < base + 4 * n ∧ off % 4 = 3 then some (v / 256 ^ (n - 1 - (off - base) / 4) % 256) else none

/-- AMCAP and XAMCAP of function 0: a bit by address modifier of R323's spaces and protocols, 2eVME and 2eSST in XAMCAP (PRESUMED,
assumption 74). -/
def State.ownAmcap (s : State) : Nat :=
  ([0x00, 0x01, 0x03, 0x08, 0x09, 0x0A, 0x0B, 0x0C, 0x0D, 0x0E, 0x0F, 0x29, 0x2D, 0x2F, 0x38, 0x39, 0x3A, 0x3B, 0x3C, 0x3D, 0x3E,
    0x3F] ++ (if s.bit pgVme 0x100 2 then [0x20] else [])).foldl (fun m a => m + 2 ^ a) 0

def State.ownXamcap (s : State) : Nat := if s.bit pgVme 0x100 2 then 2 ^ 1 + 2 ^ 2 + 2 ^ 0x11 + 2 ^ 0x12 else 0

/-- A byte of the port's configuration ROM (R331): the signature of R335, the board ID, function 0's capabilities; the places are those of
VITA 1.1 (PRESUMED, assumption 74); the rest, the manufacturer ID among it, is free. -/
def State.crByte (s : State) (off : Nat) : Byte :=
  let known := (crPart 0x1F 1 0x43 off) <|> (crPart 0x23 1 0x52 off) <|>
    (crPart 0x33 4 ((1 + s.devid % 8 * 2 ^ 8 + 0xA1 * 2 ^ 16) * 2 ^ 32 + 2 ^ 16) off) <|>
    (crPart 0x103 1 0x84 off) <|> (crPart 0x123 8 s.ownAmcap off) <|> (crPart 0x223 32 s.ownXamcap off)
  match known with
  | some b => BitVec.ofNat 8 b
  | none => Config.crRom off

/-- The manufacturer ID in the ROM. -/
def crMaker : Nat := (Config.crRom 0x27).toNat * 65536 + (Config.crRom 0x2B).toNat * 256 + (Config.crRom 0x2F).toNat

/-- What discovery finds in the port's own CR (R330, R331). -/
def State.ownView (s : State) : CrView := ⟨true, crMaker, 2 ^ 16, 0xF, 0xF, s.ownProtos⟩

/-- The channel that withholds DTACK from writes to inbound image `i` now (R338). -/
def State.tandemHolds (s : State) (i : Nat) : Option Nat :=
  match s.tandemIn i with
  | none => none
  | some ch =>
    let r := s.tandemRec ch
    if (AMap.find? (s.lengine r.1).tx r.2).isSome ∧ s.tandemRange ch i = true then some ch else none

/-- The cycle is none of R323: a data size or an address that no aligned transfer has, 2eVME or 2eSST without TWOE, address-only. -/
def State.slaveIgnores (s : State) (c : VmeCycle) : Bool :=
  c.addrOnly || (c.twoe && !s.bit pgVme 0x100 2) || !([1, 2, 4, 8].contains c.size) || decide (c.addr % c.size ≠ 0)

/-- A VME cycle at the slave side (R329 to R331, R338): DTACK or BERR with its data, or no answer yet. -/
def State.slaveSide (s : State) (c : VmeCycle) : State × Option (Bool × Quad) :=
  if s.vmeOn = false ∨ s.slaveIgnores c = true then (s, none)
  else if c.space = 4 then
    if s.vmeSlot ≠ some (c.addr / 0x80000) then (s, none)
    else if c.write ∨ c.rmw then s.inRefuse c
    else s.inAnswer (BitVec.ofNat 128 (ofBytes ((List.range c.size).map fun k => s.crByte (c.addr % 0x80000 + k))))
  else match s.iwFind c.space c.addr with
    | none => (s, none)
    | some i =>
      let at' := s.reg pgVmemap (iwReg i 0x18)
      if (bitsOf at' 3 3 = 1 ∧ c.sup = false) ∨ c.rmw = true ∨ (c.write = true ∧ bitsOf at' 2 2 = 0) ∨
          (c.write = false ∧ bitsOf at' 1 1 = 0) then s.inRefuse c
      else if c.write then
        match s.tandemHolds i with
        | some ch =>
          let s := s.countSat pgVmemap (0x408 + 0x10 * ch) 15 0
          ({ s with vme := { s.vme with heldIn := s.vme.heldIn ++ [(ch, c)] } }, none)
        | none => s.inboundDo i (if (s.tandemIn i).isSome then 0x0250 else 0x0241) c
      else s.inboundDo i (if (s.tandemIn i).isSome then 0x0250 else 0x0241) c

/-- A VME cycle of another master (R329). -/
def State.inbound (s : State) (c : VmeCycle) : State := onBus (s.slaveSide c)

/-- The writes a tandem channel withheld go on once the record's handover is complete (R338). -/
def State.inboundRelease (s : State) (q rec' : Nat) : State :=
  let mine (e : Nat × VmeCycle) : Bool := s.tandemRec e.1 == (q, rec')
  let go := s.vme.heldIn.filter mine
  let s : State := { s with vme := { s.vme with heldIn := s.vme.heldIn.filter fun e => !mine e } }
  go.foldl (fun s e =>
    match s.iwFind e.2.space e.2.addr with
    | some i => onBus (s.inboundDo i 0x0250 e.2)
    | none => s) s

/-- A write of a partner's results (R335). -/
def State.setPres (s : State) (p proto width asmask source mfr board : Nat) : State :=
  let o := 0x20 * p
  let s := s.setReg pgVmepart (0x110 + o) (BitVec.ofNat 64 (proto * 2 ^ 16 + width * 2 ^ 12 + asmask * 2 ^ 8 + source * 16))
  let s := s.setReg pgVmepart (0x118 + o) (BitVec.ofNat 64 (mfr * 2 ^ 32 + board))
  s.setFld pgVmepart 0x508 p p 0

/-- The defaults with a source code (R335). -/
def State.presDefaults (s : State) (p source : Nat) : State :=
  s.setPres p (s.pcfg p 35 32) (s.pcfg p 21 20) (s.pcfg p 27 24) source 0 0

/-- The highest bit of `m` at or below `n`, above 0. -/
def topBit (m : Nat) : Nat → Nat
  | 0 => 0
  | n + 1 => if bitAt m (n + 1) then n + 1 else topBit m n

/-- The claims of step 4 are inconsistent (R335). -/
def crBad (v : CrView) : Bool :=
  decide (v.spaces % 16 = 0) || decide (v.widths % 16 = 0) ||
  ((bitAt v.protos 2 || bitAt v.protos 3 || bitAt v.protos 4 || bitAt v.protos 5 || bitAt v.protos 6) && !bitAt v.widths 3) ||
  (bitAt v.protos 1 && !bitAt v.widths 1 && !bitAt v.widths 2) ||
  ((bitAt v.protos 4 || bitAt v.protos 5 || bitAt v.protos 6) && !bitAt v.protos 3)

/-- The discovery under way ends (R335 step 7). -/
def State.discEnd (s : State) : State := { s with vme := { s.vme with disc := none } }

/-- It ends with the candidate `proto`; SOURCE says whether probing lowered it (R335 steps 6, 7). -/
def State.discDone (s : State) (d : Disc) (proto : Nat) : State :=
  (s.setPres d.p proto d.width (d.view.spaces % 16) (if d.lowered = 0 then 1 else 2) (d.view.mfr % 2 ^ 24)
    (d.view.board % 2 ^ 32)).discEnd

/-- The next step of the discovery under way. -/
def State.discNext (s : State) (d : Disc) (st : DiscStep) : State :=
  { s with vme := { s.vme with disc := some { d with step := st } } }

/-- A probe lowers the candidate to the next claimed protocol (R335 step 6). -/
def State.discLower (s : State) (d : Disc) (proto : Nat) : State :=
  let s := s.report 0x1E9 1 0xFF 0
  let d := { d with lowered := d.lowered + 1 }
  let q := topBit d.view.protos (proto - 1)
  if q = 0 then s.discDone d 0 else s.discNext d (.block q)

/-- Defaults for want of a CR, and for an inconsistent one (R335 steps 2, 3). -/
def State.discAbsent (s : State) (p : Nat) : State := ((s.presDefaults p 3).report 0x1E9 2 0xFF 0).discEnd
def State.discBad (s : State) (p : Nat) : State := ((s.presDefaults p 4).report 0x1E9 1 0xFF 0).discEnd

/-- The CR has been read (R335 steps 3 to 6). -/
def State.discClaims (s : State) (d : Disc) (v : CrView) : State :=
  let p := d.p
  if v.sumOk = false ∨ crBad v = true then s.discBad p
  else
    let cap := if s.bit pgVme 0x100 2 then s.pcfg p 43 40 else min (s.pcfg p 43 40) 2
    let cand := topBit v.protos cap
    let wmax := s.pcfg p 17 16
    let (s, width) :=
      match ((List.range 4).filter fun b => bitAt v.widths b && decide (b ≤ wmax)).getLast? with
      | some b => (s, b)
      | none => match s.freeValue with | (s, f) => (s, f.toNat % 4)
    let d := { d with view := v, width := width }
    if s.pcfg p 1 1 = 1 ∧ cand ≠ 0 then s.discNext d (.block cand) else s.discDone d cand

/-- The answer to a cycle of the discovery under way (R335). -/
def State.discTake (s : State) (a : VmeAns) : State :=
  match s.vme.disc with
  | none => s
  | some d =>
    match d.step, a with
    | .c, .ok q => if q.toNat % 256 = 0x43 then s.discNext d .r else s.discAbsent d.p
    | .c, _ => s.discAbsent d.p
    | .r, .ok q => if q.toNat % 256 = 0x52 then s.discNext d .cr else s.discAbsent d.p
    | .r, _ => s.discAbsent d.p
    | .cr, .cr v => s.discClaims d v
    | .cr, _ => s.discBad d.p
    | .block q, .bytes bs => s.discNext d (.single q bs)
    | .block q, _ => s.discLower d q
    | .single q got, .bytes bs => if bs = got then s.discDone d q else s.discLower d q
    | .single _ _, _ => (s.presDefaults d.p 4).discEnd

/-- The widest space of a partner's claims, where the probe reads (R335 step 6). -/
def Disc.space (d : Disc) : Nat := (((List.range 4).filter fun b => bitAt d.view.spaces b).getLast?).getD 0

/-- VME address and space of the cycle that discovery needs next (R335). -/
def State.discAt (s : State) (d : Disc) : Nat × Nat :=
  let cr := s.pcfg d.p 12 8 * 0x80000
  match d.step with
  | .c => (cr + 0x1F, 4)
  | .r => (cr + 0x23, 4)
  | .cr => (cr + 0x03, 4)
  | .block _ => (s.fld pgVmepart (0x108 + 0x20 * d.p) 63 5 * 32, d.space)
  | .single _ _ => (s.fld pgVmepart (0x108 + 0x20 * d.p) 63 5 * 32, d.space)

/-- Discovery goes on (R335): the lowest entry that awaits it begins, by the defaults alone where FORCE is set or SLOT is 0; its next
cycle is queued while the queue has room (R324). Where the port has stopped or is off, a cycle ends with an error. -/
def State.discGo (s : State) : Nat → State
  | 0 => s
  | fuel + 1 =>
    match s.vme.disc with
    | some d =>
      let queued := s.vme.queue.any fun e => match e.work with | .discover _ => true | _ => false
      if queued then s
      else if s.vme.stopped = true ∨ s.legacyOn = false then (s.discTake (.err 0)).discGo fuel
      else if 24 ≤ s.vme.queue.length then s
      else
        let (a, sp) := s.discAt d
        s.setVmeQueue (s.vme.queue ++ [⟨.discover d.p, a, sp, d.p, true, false, false, s.now, false⟩])
    | none =>
      match (List.range 32).find? s.dbusy with
      | none => s
      | some p =>
        if s.pcfg p 2 2 = 1 then (s.presDefaults p 5).discGo fuel
        else if s.pcfg p 12 8 = 0 then (s.presDefaults p 3).discGo fuel
        else ({ s with vme := { s.vme with disc := some ⟨p, .c, ⟨false, 0, 0, 0, 0, 0⟩, 0, 0⟩ } } : State).discGo fuel

/-- What follows once the queue has changed: IACK cycles (R333), discovery. -/
def State.vmeFollow (s : State) : State := (s.vmeHandler).discGo 128

/-- An IACK cycle has ended: the FIFO takes level and status/ID, the vector is requested (R333). The interrupter that answered releases
the line: the port's own, else another board's (DESIGN CHOICE where both assert the level, assumption 76). -/
def State.iackEnd (s : State) (n : Nat) (err : Bool) (data : Quad) : State :=
  let w := match s.fld pgVme 0x120 25 24 with
    | 0 => 0xFF
    | 1 => 0xFFFF
    | _ => 0xFFFFFFFF
  let e : Word := BitVec.ofNat 64 (2 ^ 63 + b2n err * 2 ^ 62 + n * 2 ^ 32 + (if err then 0 else data.toNat % (w + 1)))
  let s := if s.ownLevel n then s.setFld pgVme 0x118 16 16 0
    else { s with vme := { s.vme with lines := s.vme.lines.filter fun x => x != n } }
  let s : State := { s with vme := { s.vme with fifo := s.vme.fifo ++ [e] } }
  s.irq (s.fld pgVme 0x120 21 16) (48 + s.fld pgVme 0x120 11 8)

/-- The protocol of an entry's cycles (R326): single cycles for a core access and a TAS, the partner's for an engine and the bridge, the
candidate's for a probe. -/
def State.entryProto (s : State) (e : VmeEntry) : Nat :=
  match e.work with
  | .access r => if r.iid < 64 ∨ r.kind = .tas then 0 else s.pres e.part 19 16
  | .bridge _ _ => s.pres e.part 19 16
  | .iack _ => 0
  | .discover _ => match s.vme.disc with
    | some d => match d.step with
      | .block q => q
      | _ => 0
    | none => 0

/-- The address modifier of an entry's cycles (R325). -/
def State.entryAm (s : State) (e : VmeEntry) : Nat := vmeAm e.space e.sup e.prog (s.entryProto e)

/-- An entry ends with an error: cause 0 BERR, 1 bus timer, 2 queue time-out (R327, R337). Dropped entries record nothing; the end of a
bridge write reports all the same (R337). -/
def State.entryFails (s : State) (e : VmeEntry) (done cause : Nat) (quiet : Bool) : State :=
  let am := s.entryAm e
  let s := s.count pgVme 0x150
  let note (s : State) : State :=
    if quiet then s else (s.vmeError (e.vaddr + done) e.part am cause 0).report 0x1E8 1 0xFF 0
  match e.work with
  | .access r => if e.posted then (note s).postedStep r.iid false else (note s).respond r.origin .err
  | .bridge _ _ => if quiet then s.report 0x1E8 1 0xFF 0 else note s
  | .iack n => if quiet then s else s.iackEnd n true 0
  | .discover _ => s.discTake (.err done)

/-- The low `n` bytes of an access's data. -/
def lowBytes (q : Quad) (n : Nat) : Quad := BitVec.ofNat 128 (q.toNat % 2 ^ (8 * n))

/-- An entry ends well (R326, R327, R333, R335, R337). -/
def State.entryDone (s : State) (e : VmeEntry) (q : Quad) : State :=
  let s := s.count pgVme 0x140
  match e.work with
  | .access r =>
    if e.posted then s.postedStep r.iid false
    else s.respond r.origin (.ok (if r.kind = .load ∨ r.kind = .tas then lowBytes q r.size else 0))
  | .bridge c _ => s.setFld pgVmemap (0x408 + 0x10 * c) 63 32 ((s.fld pgVmemap (0x408 + 0x10 * c) 63 32 + 1) % 2 ^ 32)
  | .iack n => s.iackEnd n false q
  | .discover _ => s.discTake (.ok q)

/-- Bytes of a single cycle with a partner: its width, at most D32 (R326, R334, R335). -/
def State.cycleWidth (s : State) (e : VmeEntry) : Nat :=
  match e.work with
  | .discover _ => match s.vme.disc with
    | some d => 2 ^ min d.width 2
    | none => 1
  | _ => 2 ^ min (s.pres e.part 13 12) 2

/-- Single cycles over `n` bytes in ascending address order (R326). -/
def singles (am a w n : Nat) (write : Bool) (data : List Byte) : List VmeBus :=
  let m := min n w
  (List.range ((n + m - 1) / m)).map fun j =>
    ⟨some am, a + j * m, min m (n - j * m), write, false, false, (data.drop (j * m)).take m⟩

/-- Block transfers over `n` bytes, split at every 256-byte boundary for BLT and every 2 KiB boundary for the others (R326); the first may
go on with the transfer before it. -/
def blocks (am b : Nat) (write : Bool) : Nat → Bool → Nat → Nat → List Byte → List VmeBus
  | 0, _, _, _, _ => []
  | fuel + 1, cont, a, n, data =>
    if n = 0 then []
    else
      let m := min n (b - a % b)
      ⟨some am, a, m, write, false, cont && decide (a % b ≠ 0), data.take m⟩ ::
        blocks am b write fuel false (a + m) (n - m) (data.drop m)

/-- The bytes an entry moves: their number, whether it writes them, what it writes, its initiator (R326, R337). -/
def entrySpan (e : VmeEntry) : Nat × Bool × List Byte × Nat :=
  match e.work with
  | .access r =>
    let w := decide (r.kind = .store ∨ r.kind = .frame)
    (r.size, w, if w then toBytes r.data.toNat r.size else [], r.iid)
  | .bridge _ bs => (bs.length, true, bs, 0x250)
  | .iack _ => (1, false, [], 0)
  | .discover _ => (1, false, [], 0)

/-- The step of the discovery under way. -/
def State.vmeStep (s : State) : Option DiscStep :=
  match s.vme.disc with
  | some d => some d.step
  | none => none

/-- The entry is a TAS (R57). -/
def entryTas (e : VmeEntry) : Bool :=
  match e.work with
  | .access r => decide (r.kind = .tas)
  | _ => false

/-- The cycles of an entry (R326, R333, R335, R337). A unit of the bridge has 8 bytes. -/
def State.entryCycles (s : State) (e : VmeEntry) : List VmeBus :=
  let am := s.entryAm e
  let proto := s.entryProto e
  let b := if proto = 1 then 256 else 2048
  match e.work with
  | .iack n => [⟨none, 2 * n, 2 ^ min (s.fld pgVme 0x120 25 24) 2, false, false, false, []⟩]
  | .discover _ =>
    match s.vmeStep with
    | some (.block _) => blocks am b false 2 false e.vaddr 32 []
    | some (.single _ _) => singles am e.vaddr (s.cycleWidth e) 32 false []
    | _ => [⟨some am, e.vaddr, 1, false, false, false, []⟩]
  | _ =>
    let (n, w, data, iid) := entrySpan e
    if entryTas e then [⟨some am, e.vaddr, 1, true, true, false, [1]⟩]
    else if proto = 0 then singles am e.vaddr (s.cycleWidth e) n w data
    else blocks am b w (n + 1) (s.vme.block == some (iid, e.part, w, e.vaddr)) e.vaddr n data

/-- The block transfer that a next unit may go on with. -/
def State.afterEntry (s : State) (e : VmeEntry) (proto : Nat) : State :=
  let (n, w, _, iid) := entrySpan e
  { s with vme := { s.vme with block := if proto = 0 then none else some (iid, e.part, w, e.vaddr + n) } }

/-- The port's own slave side holds the address of an entry: an inbound image, or its own CR/CSR (R330). -/
def State.ownCycle (s : State) (e : VmeEntry) : Bool :=
  match e.work with
  | .iack n => s.ownLevel n
  | _ => if e.space = 4 then s.vmeSlot == some (e.vaddr / 0x80000) else (s.iwFind e.space e.vaddr).isSome

/-- A cycle or a block transfer of the master side as its own slave side sees it: cycles of at most 8 bytes (R330). -/
def ownParts (e : VmeEntry) (proto : Nat) (c : VmeBus) : List VmeCycle :=
  let m := min c.size 8
  (List.range (c.size / m)).map fun j =>
    ⟨e.space, c.addr + j * m, c.am.getD 0, e.sup, c.write, c.rmw, decide (3 ≤ proto), false, m,
     BitVec.ofNat 128 (ofBytes ((c.data.drop (j * m)).take m))⟩

/-- The slave side answers the cycles in turn until one ends in BERR (cause 0) or finds no answer (cause 1): the bytes read, the bytes
done, the cause (R326, R330). -/
def State.ownRun (s : State) : List VmeCycle → List Byte → Nat → State × List Byte × Nat × Option Nat
  | [], got, n => (s, got, n, none)
  | c :: cs, got, n =>
    match s.slaveSide c with
    | (s, some (true, q)) => s.ownRun cs (if c.write then got else got ++ toBytes q.toNat c.size) (n + c.size)
    | (s, some (false, _)) => (s, got, n, some 0)
    | (s, none) => (s, got, n, some 1)

/-- An entry whose write the port's own slave side withholds DTACK from now (R330, R338). -/
def State.ownHeld (s : State) (e : VmeEntry) : Option Nat :=
  if (entrySpan e).2.1 = false ∨ e.space = 4 then none
  else match s.iwFind e.space e.vaddr with
    | some i =>
      let at' := s.reg pgVmemap (iwReg i 0x18)
      if (bitsOf at' 3 3 = 1 ∧ e.sup = false) ∨ bitsOf at' 2 2 = 0 then none else s.tandemHolds i
    | none => none

/-- The port's own interrupter answers an IACK cycle of its master side with STATID (R330, R333). -/
def State.iackOwn (s : State) (n : Nat) : State :=
  (s.count pgVme 0x140).iackEnd n false (BitVec.ofNat 128 (s.fld pgVme 0x118 15 8))

/-- What an answer gives the entry: an access and an IACK take data, discovery what it asked for. -/
def State.entryTakes (s : State) (e : VmeEntry) (a : VmeAns) : State :=
  match e.work, a with
  | .discover _, a => (s.count pgVme 0x140).discTake a
  | _, .ok q => s.entryDone e q
  | _, _ => s.entryFails e 0 0 false

/-- The port's own slave side answers an entry (R330, R331, R333). -/
def State.performOwn (s : State) (e : VmeEntry) (cs : List VmeBus) (proto : Nat) : State :=
  match e.work with
  | .iack n => s.iackOwn n
  | _ =>
    match s.ownRun (cs.flatMap (ownParts e proto)) [] 0 with
    | (s, got, _, none) =>
      match e.work, s.vmeStep with
      | .discover _, some .cr => s.entryTakes e (.cr s.ownView)
      | .discover _, some (.block _) => s.entryTakes e (.bytes got)
      | .discover _, some (.single _ _) => s.entryTakes e (.bytes got)
      | _, _ => s.entryTakes e (.ok (BitVec.ofNat 128 (ofBytes got)))
    | (s, _, n, some cause) => s.entryFails e n cause false

/-- The master side performs an entry (R324, R326): its cycles go out, up to one that fails; `timer` says that the bus timer ended it. Its
own images answer as for any master (R330). -/
def State.performEntry (s : State) (e : VmeEntry) (a : VmeAns) (timer : Bool) : State :=
  let cs := s.entryCycles e
  let proto := s.entryProto e
  let s := s.afterEntry e proto
  if s.ownCycle e = true ∧ timer = false then s.performOwn e cs proto
  else match a with
    | .err done =>
      ((cs.filter fun c => decide (c.addr ≤ e.vaddr + done)).foldl (fun s c => s.emit (.vmeCycle c)) s).entryFails e done (b2n timer) false
    | a => (cs.foldl (fun s c => s.emit (.vmeCycle c)) s).entryTakes e a

/-- The next outbound entry is performed (R324). One whose DTACK the port's own slave side withholds stays, and the hold is counted once
(R330, R338). -/
def State.vmeNext (s : State) (a : VmeAns) : State :=
  if s.vmeOn = false then s
  else match s.vme.queue with
    | [] => s
    | e :: rest =>
      match s.ownHeld e with
      | some ch =>
        if e.held then s
        else (s.countSat pgVmemap (0x408 + 0x10 * ch) 15 0).setVmeQueue ({ e with held := true } :: rest)
      | none => ((s.setVmeQueue rest).performEntry e a false).vmeFollow

/-- The bus timer's limit, in ns (VCFG.BTO). -/
def State.busLimit (s : State) : Nat := 16000 * 2 ^ s.fld pgVme 0x100 27 24

/-- With SYSCON in force a cycle without DTACK for BTO gets BERR (R332): an inbound write that a tandem channel withholds, else the cycle of
the entry in front, `done` bytes after its start. -/
def State.busTimer (s : State) (done : Nat) : State :=
  if s.vmeOn = false ∨ s.vme.slot1 = false then s
  else match s.vme.heldIn with
    | _ :: hs => ({ s with vme := { s.vme with heldIn := hs } } : State).emit (.vmeAnswer false 0)
    | [] =>
      match s.vme.queue with
      | [] => s
      | e :: rest =>
        if s.ownCycle e = true ∧ e.held = false then s
        else (((s.advance (e.since + s.busLimit)).setVmeQueue rest).performEntry e (.err done) true).vmeFollow

/-- The entry in front has not ended 900 us after its acceptance (R327). -/
def State.vmeQueueTimeout (s : State) : State :=
  match s.vme.queue with
  | [] => s
  | e :: rest => (((s.advance (e.since + 900000)).setVmeQueue rest).entryFails e 0 2 false).vmeFollow

/-- What the slot-1 functions drive (R332): SYSCLK, the arbiter, the bus timer and the chain starts while SYSCON is in force; SYSRESET* for
200 ms and while VCTL.SYSRST is set. -/
def State.showSlot1 (s : State) : State :=
  let on := s.bit pgVme 0x110 11 && !s.vme.stopped && s.legacyOn
  { s with vme := { s.vme with slot1 := on, reset := on && (s.vme.sysrst || s.bit pgVme 0x108 2) } }

/-- Every entry is dropped or answered with an error (R332, R339). -/
def State.vmeDrop (s : State) : State :=
  let q := s.vme.queue
  let s := s.setVmeQueue []
  let s : State := { s with vme := { s.vme with heldIn := [], block := none } }
  (q.foldl (fun s e => s.entryFails e 0 0 true) s).discGo 128

/-- Another board asserts SYSRESET* (R332). -/
def State.sysresetIn (s : State) : State :=
  if s.vmeOn = false then s else (s.vmeDrop).setFld pgVme 0x110 12 12 1

/-- 200 ms after SYSCON took effect SYSRESET* is released (R332). -/
def State.sysresetDone (s : State) : State := ({ s with vme := { s.vme with sysrst := false } } : State).showSlot1

/-- The port lets its pins go and ends what it holds (R339): so it stands while the legacy bank is off (R350). -/
def State.vmeQuiet (s : State) : State :=
  ({ s with vme := { s.vme with sysrst := false, lines := [] } } : State).vmeDrop

/-- The port stops: DEVICE-SAFE or ISOLATE (R339). -/
def State.vmeStop (s : State) : State :=
  ({ s with vme := { s.vme with stopped := true } } : State).vmeQuiet.showSlot1

/-- A write of VCFG (R332, "VME registers"); SYSCLK needs a crystal or a reference clock (R435). -/
def State.vcfgWrite (s : State) (row : RegRow) (w : Wr) (old new : Word) : State × WOut :=
  let others := (old &&& ~~~ (1 : Word)) ≠ (new &&& ~~~ (1 : Word))
  let setsSys := bitsOf old 1 1 = 0 ∧ bitsOf new 1 1 = 1
  let slotOk := s.vmeSlot = some 1 ∨ s.vmeSlot = none
  if (bitsOf old 0 0 = 1 ∧ others) ∨ 5 < bitsOf new 27 24 ∨ 1 < bitsOf new 17 16 ∨
      (setsSys ∧ (¬ slotOk ∨ s.xtal = false)) then s.vmeRefuse
  else if bitsOf old 0 0 = 0 ∧ bitsOf new 0 0 = 1 ∧ s.legacyOn = false then s.vmeRefuse
  else
    let s := (s.storeReg .vme row w old new).setFld pgVme 0x110 11 11 (bitsOf new 1 1)
    let s : State := if setsSys then { s with vme := { s.vme with sysrst := true } } else s
    let s : State := if bitsOf new 1 1 = 0 then { s with vme := { s.vme with sysrst := false } } else s
    (s.showSlot1.vmeFollow, .accepted)

/-- A write of VIRQ: the level is asserted on the bus, where the port's own handler sees it too (R333). -/
def State.virqWrite (s : State) (row : RegRow) (w : Wr) (old new : Word) : State × WOut :=
  if bitsOf old 16 16 = 1 then s.vmeRefuse
  else
    match s.plainWrite .vme row w old (withBits new 16 16 (b2n (bitsOf new 2 0 != 0))) with
    | (s, o) => (s.vmeHandler, o)

/-- An IACK for a level: answered with STATID, and the line released (R333). -/
def State.iackIn (s : State) (n : Nat) : State :=
  if s.ownLevel n then
    (s.setFld pgVme 0x118 16 16 0).emit (.vmeAnswer true (BitVec.ofNat 128 (s.fld pgVme 0x118 15 8)))
  else s

/-- A write of a VME register. -/
def State.wVme (s : State) (row : RegRow) (w : Wr) (old new : Word) : State × WOut :=
  match w.off with
  | 0x100 => s.vcfgWrite row w old new
  | 0x108 =>
    let s := s.storeReg .vme row w old (withBits new 1 1 0)
    ((if w.sets 1 then [0x140, 0x148, 0x150, 0x158].foldl (fun s o => s.setReg pgVme o 0) s else s).showSlot1, .accepted)
  | 0x118 => s.virqWrite row w old new
  | 0x120 => ((s.storeReg .vme row w old new).vmeHandler, .accepted)
  | _ => s.plainWrite .vme row w old new

/-- VINTPOP: the oldest entry is removed by the read (R333). -/
def State.vintPop (s : State) : State × Word :=
  match s.vme.fifo with
  | [] => (s, 0)
  | e :: rest => ({ s with vme := { s.vme with fifo := rest } }.vmeHandler, e)

/-- Two block ranges meet. -/
def meets (lo1 hi1 lo2 hi2 : Nat) : Bool := decide (lo1 ≤ hi2) && decide (lo2 ≤ hi1)

/-- Outbound windows stand as R325 demands: each inside the outbound range, its VME range inside its space, none
overlapping another. -/
def State.owOk (s : State) : Bool :=
  let on (w : Nat) : Bool := s.bit pgVmemap (owReg w 0x18) 15
  let lo' (w : Nat) := (s.reg pgVmemap (owReg w 0)).toNat
  let hi' (w : Nat) := (s.reg pgVmemap (owReg w 8)).toNat + 0xFFFF
  (List.range 16).all fun w =>
    !on w ||
    (decide (0x80000000 ≤ lo' w) && decide (lo' w ≤ hi' w) && decide (hi' w ≤ 0xFFFFFFFF) &&
     decide ((s.reg pgVmemap (owReg w 0x10)).toNat + (hi' w - lo' w) ≤ spaceEnd (s.fld pgVmemap (owReg w 0x18) 5 4)) &&
     (List.range 16).all fun v => v == w || !on v || !meets (lo' w) (hi' w) (lo' v) (hi' v))

/-- Inbound images stand as R329 demands: each local range inside region SRAM or DDR4, none overlapping another of its
space. -/
def State.iwOk (s : State) : Bool :=
  let on (i : Nat) : Bool := s.bit pgVmemap (iwReg i 0x18) 15
  let lo' (i : Nat) := (s.reg pgVmemap (iwReg i 0)).toNat
  let hi' (i : Nat) := (s.reg pgVmemap (iwReg i 8)).toNat + 0xFFFF
  let sp (i : Nat) := s.fld pgVmemap (iwReg i 0x18) 5 4
  (List.range 8).all fun i =>
    !on i ||
    (let a := (s.reg pgVmemap (iwReg i 0x10)).toNat
     let b := a + (hi' i - lo' i)
     decide (lo' i ≤ hi' i) &&
     ((decide (0x10000000 ≤ a) && decide (b < 0x14000000)) || (decide (0x10000000000 ≤ a) && decide (b < 0x18000000000))) &&
     (List.range 8).all fun j => j == i || !on j || sp j != sp i || !meets (lo' i) (hi' i) (lo' j) (hi' j))

/-- A write of a VMEMAP register (R325, R329). -/
def State.wVmemap (s : State) (row : RegRow) (w : Wr) (old new : Word) : State × WOut :=
  let s' := s.storeReg .vmemap row w old new
  if w.off < 0x300 then (if s'.owOk then (s', .accepted) else s.vmeRefuse)
  else if w.off < 0x400 then (if s'.iwOk then (s', .accepted) else s.vmeRefuse)
  else (s', .accepted)

/-- DBUSY.REFUSE. -/
def State.partRefuse (s : State) : State × WOut := (s.setFld pgVmepart 0x508 32 32 1, .refused)

/-- A data width can carry a block protocol (R334). -/
def protoWidth (proto width : Nat) : Bool :=
  if proto = 0 then true else if proto = 1 then decide (1 ≤ width) else decide (width = 3)

/-- A write of PCFG (R334). -/
def State.pcfgWrite (s : State) (p : Nat) (row : RegRow) (w : Wr) (old new : Word) : State × WOut :=
  let slot := bitsOf new 12 8
  let dp := bitsOf new 35 32
  let mp := bitsOf new 43 40
  if 6 < dp ∨ 6 < mp ∨ 21 < slot ∨ mp < dp ∨ protoWidth dp (bitsOf new 21 20) = false ∨ s.dbusy p then s.partRefuse
  else s.plainWrite .vmepart row w old new

/-- DISC (R335): discovery of the enabled entries named, in ascending order; refused while one runs, and with the legacy bank off
(R351). -/
def State.discWrite (s : State) (mask : Nat) : State × WOut :=
  if s.fld pgVmepart 0x508 31 0 ≠ 0 ∨ s.legacyOn = false then s.partRefuse
  else
    (((List.range 32).foldl (fun s p =>
      if bitAt mask p ∧ s.pcfg p 0 0 = 1 then s.setFld pgVmepart 0x508 p p 1 else s) s).discGo 128, .accepted)

/-- A write of a VMEPART register. -/
def State.wVmepart (s : State) (row : RegRow) (w : Wr) (old new : Word) : State × WOut :=
  if w.off = 0x500 then s.discWrite (w.bits 31 0)
  else if w.off < 0x500 ∧ w.off % 0x20 = 0 then s.pcfgWrite ((w.off - 0x100) / 0x20) row w old new
  else s.plainWrite .vmepart row w old new

end Sys2Proof.Machine
end

