-- ==== Sys2Proof/Machine/Ports.lean ====
section
/-! DEFINITION. The fieldbus ports and the MACs (R319 to R321, R340 to R348): CAN FD, UART, MDIO, I2C, GPIO, descriptor
rings. -/

namespace Sys2Proof.Machine

/-- An event of a port whose enable is set requests its vector (R348). -/
def State.portIrq (s : State) (page bit : Nat) : State :=
  if s.bit page 0x1F8 bit then s.irq (s.fld page 0x1F8 21 16) (48 + s.fld page 0x1F8 11 8) else s

/-- A CAN FD controller. -/
def State.can (s : State) (k : Nat) : Can := AMap.get s.cans (fun _ => ⟨[], false, 0, false⟩) k
def State.setCan (s : State) (k : Nat) (c : Can) : State :=
  { s with cans := AMap.set s.cans (fun _ => ⟨[], false, 0, false⟩) k c }

/-- The controller takes part in the bus (CCTL.EN, R339, R342). -/
def State.canOn (s : State) (k : Nat) : Bool :=
  s.bit (pgCan k) 0x108 0 && s.legacyOn && !(s.can k).stopped && s.fld (pgCan k) 0x110 1 0 != 2

/-- Header and state registers of a mailbox. -/
def mbHead (m : Nat) : Nat := 0x440 + 0x80 * m
def mbState (m : Nat) : Nat := 0x448 + 0x80 * m

/-- A mailbox header write queues its frame (R341). -/
def State.mailboxWrite (s : State) (k m : Nat) (row : RegRow) (w : Wr) (old new : Word) : State × WOut :=
  let p := pgCan k
  if s.fld p (mbState m) 1 0 = 1 then (s.setFld p 0x110 24 24 1, .refused)
  else
    let s := (s.storeReg .canfd row w old new).setFld p (mbState m) 1 0 1
    let c := s.can k
    (s.setCan k { c with queue := c.queue ++ [m] }, .accepted)

/-- The error state of a controller from its counters (R342; the counting is that of ISO 11898-1, assumption 21). -/
def State.canErr (s : State) (k tec : Nat) : State :=
  let p := pgCan k
  let old := s.fld p 0x110 1 0
  let st := if 255 < tec then 2 else if 127 < tec ∨ 127 < s.fld p 0x110 23 16 then 1 else 0
  let s := s.setFld p 0x110 15 8 (min tec 255)
  if st = old then s
  else
    let s := (s.setFld p 0x110 1 0 st).portIrq p 2
    if st = 2 then s.report 0x1EB 1 0xFF 0 else if st = 1 then s.report 0x1EB 2 0xFF 0 else s

/-- An attempt at the frame at the front of a controller's queue ends (R341): 0 sent, 1 arbitration lost, else an error, which alone
counts. But for a sent frame and ONESHOT the controller repeats it. -/
def State.canSent (s : State) (k r : Nat) : State :=
  let p := pgCan k
  let c := s.can k
  match c.queue with
  | [] => s
  | m :: rest =>
    if s.canOn k = false then s
    else
      let tec := s.fld p 0x110 15 8
      let data := (List.range 8).foldl (fun a j => a ++ toBytes (s.reg p (0x400 + 0x80 * m + 8 * j)).toNat 8) []
      if r = 0 then
        let s := (s.setCan k { c with queue := rest }).setFld p (mbState m) 1 0 2
        ((s.emit (.can k (s.reg p (mbHead m)) data)).canErr k (tec - 1)).portIrq p 0
      else
        let s := if s.bit p 0x108 2 then (s.setCan k { c with queue := rest }).setFld p (mbState m) 1 0 3 else s
        if r = 1 then s else s.canErr k (tec + 8)

/-- A received frame matches an enabled filter (R342). -/
def State.canMatch (s : State) (k id : Nat) : Bool :=
  (List.range 16).any fun f =>
    let fid := s.reg (pgCan k) (0x200 + 0x10 * f)
    let fm := bitsOf (s.reg (pgCan k) (0x208 + 0x10 * f)) 28 0
    bitsOf fid 31 31 == 1 && decide (Nat.land id fm = bitsOf fid 28 0)

/-- A received CAN frame: header as in the mailbox, 64 data bytes (R342). -/
def State.canRx (s : State) (k : Nat) (hdr : Word) (data : List Byte) : State :=
  let p := pgCan k
  let c := s.can k
  let n := s.fld p 0x300 63 60
  let head := s.fld p 0x308 43 32
  let drop := s.setCan k { c with dropped := c.dropped + 1 }
  if s.canOn k = false ∨ s.canMatch k (bitsOf hdr 28 0) = false then s
  else if n = 0 ∨ head = s.fld p 0x308 11 0 then drop
  else
    let base := s.fld p 0x300 47 5 * 32
    let rec' := toBytes s.now 8 ++ toBytes hdr.toNat 8 ++ (data ++ List.replicate 64 0).take 64 ++ List.replicate 48 0
    match s.memWrite 0x0240 (base + 128 * head) rec' with
    | (s, true) => ((s.setFld p 0x308 43 32 ((head + 1) % 2 ^ n)).setFld p 0x110 23 16 (s.fld p 0x110 23 16 - 1)).portIrq p 1
    | (s, false) => s.setCan k { s.can k with dropped := (s.can k).dropped + 1 }

/-- The recovery sequence is complete: the controller leaves bus-off (R342). -/
def State.canRecovered (s : State) (k : Nat) : State :=
  let p := pgCan k
  if (s.can k).recovering then
    let s := s.setCan k { s.can k with recovering := false }
    (((s.setFld p 0x110 1 0 0).setFld p 0x110 15 8 0).setFld p 0x110 23 16 0).portIrq p 2
  else s

/-- LOG2N of a ring is 0 or 4 to 12 (TXRING, RXRING). -/
def ringOk (new : Word) : Bool := decide (bitsOf new 63 60 = 0) || (decide (4 ≤ bitsOf new 63 60) && decide (bitsOf new 63 60 ≤ 12))

/-- A write of a CANFD register; the controller needs a crystal or a reference clock (R340, R435). -/
def State.wCan (s : State) (k : Nat) (row : RegRow) (w : Wr) (old new : Word) : State × WOut :=
  if w.off = 0x108 then
    if bitsOf old 0 0 = 0 ∧ bitsOf new 0 0 = 1 ∧ (s.legacyOn = false ∨ s.xtal = false) then (s, .refused)
    else
      let s := s.storeReg .canfd row w old (withBits new 3 3 0)
      (if w.sets 3 ∧ s.fld (pgCan k) 0x110 1 0 = 2 then s.setCan k { s.can k with recovering := true } else s, .accepted)
  else if w.off = 0x300 ∧ ringOk new = false then (s, .refused)
  else if 0x400 ≤ w.off ∧ w.off % 0x80 = 0x40 then s.mailboxWrite k ((w.off - 0x400) / 0x80) row w old new
  else s.plainWrite .canfd row w old new

/-- A UART. -/
def State.uart (s : State) (k : Nat) : Uart := AMap.get s.uarts (fun _ => ⟨[], [], false, false, false⟩) k
def State.setUart (s : State) (k : Nat) (u : Uart) : State :=
  { s with uarts := AMap.set s.uarts (fun _ => ⟨[], [], false, false, false⟩) k u }

/-- The UART is on. -/
def State.uartOn (s : State) (k : Nat) : Bool := s.bit (pgUart k) 0x100 0 && s.fabio && !(s.uart k).stopped

/-- UDATA written: the character is queued while the FIFO has room (R343). -/
def State.udataWrite (s : State) (k v : Nat) : State :=
  let u := s.uart k
  if s.uartOn k = false ∨ 64 ≤ u.tx.length then s
  else s.setUart k { u with tx := u.tx ++ [v], driving := s.bit (pgUart k) 0x100 8 }

/-- UDATA read: the oldest received character is removed (R343). -/
def State.udataRead (s : State) (k : Nat) : State × Word :=
  let u := s.uart k
  match u.rx with
  | [] => (s, 0)
  | c :: rest => (s.setUart k { u with rx := rest }, BitVec.ofNat 64 (2 ^ 63 + c))

/-- A character as UCFG.BITS forms it, with the ninth bit of MDROP (R343). -/
def State.uartBits (s : State) (k ch : Nat) : Nat :=
  ch % 2 ^ (5 + s.fld (pgUart k) 0x100 3 2) + (if s.bit (pgUart k) 0x100 7 then ch / 256 % 2 * 256 else 0)

/-- ERR of a received character: framing, and parity where it is used (R343). -/
def State.uartErr (s : State) (k err : Nat) : Nat :=
  if s.fld (pgUart k) 0x100 5 4 = 0 ∨ s.bit (pgUart k) 0x100 7 = true then err % 2 else err % 4

/-- A character has gone out (R343). -/
def State.uartSent (s : State) (k : Nat) : State :=
  let u := s.uart k
  match u.tx with
  | [] => s
  | c :: rest =>
    if s.uartOn k = false then s
    else
      let s := (s.setUart k { u with tx := rest, driving := !rest.isEmpty && u.driving }).emit (.uart k (s.uartBits k c))
      if rest.isEmpty then s.portIrq (pgUart k) 0 else s

/-- A received character (with its ninth bit) and its ERR bits: framing 1, parity 2 (R343). `false`: not kept. -/
def State.uartTakes (s : State) (k ch : Nat) : State × Bool :=
  let p := pgUart k
  let u := s.uart k
  if s.uartOn k = false ∨ (u.driving = true ∧ s.bit p 0x100 9 = false) then (s, false)
  else if s.bit p 0x100 7 ∧ s.bit p 0x118 8 then
    if bitAt ch 8 then
      let mine := decide (ch % 256 = s.fld p 0x118 7 0) || decide (ch % 256 = 0xFF)
      (s.setUart k { u with keep := mine }, false)
    else (s, u.keep)
  else (s, true)

/-- A received character goes to the receive FIFO; a full FIFO overruns (R343, R348). -/
def State.uartStore (s : State) (k ch err : Nat) : State :=
  let p := pgUart k
  let u := s.uart k
  if 64 ≤ u.rx.length then s.portIrq p 2
  else
    let s := (s.setUart k { u with rx := u.rx ++ [s.uartBits k ch + s.uartErr k err * 512] }).portIrq p 1
    if s.uartErr k err = 0 then s else s.portIrq p 2

/-- A write of a UART register; it needs a crystal or a reference clock (R340, R435). -/
def State.wUart (s : State) (k : Nat) (row : RegRow) (w : Wr) (old new : Word) : State × WOut :=
  match w.off with
  | 0x100 => if bitsOf new 31 16 = 0 ∨ (bitsOf new 0 0 = 1 ∧ s.xtal = false) then (s, .refused) else s.plainWrite .uart row w old new
  | 0x108 => (s.udataWrite k (w.bits 8 0), .accepted)
  | _ => s.plainWrite .uart row w old new

/-- An I2C port. -/
def State.i2c (s : State) (k : Nat) : I2c := AMap.get s.i2cs (fun _ => ⟨[], [], false, false⟩) k
def State.setI2c (s : State) (k : Nat) (c : I2c) : State :=
  { s with i2cs := AMap.set s.i2cs (fun _ => ⟨[], [], false, false⟩) k c }

/-- ICMD written: the bus command is issued, and a slave's pending response is given (R346); codes 5 to 7 are reserved. -/
def State.icmd (s : State) (k cmd data : Nat) : State :=
  let c := s.i2c k
  if 5 ≤ cmd ∨ c.stopped = true ∨ s.fabio = false then s
  else (s.setI2c k { c with cmds := c.cmds ++ [(cmd, data)], slave := false }).emit (.i2c k cmd data)

/-- A bus command finishes: a byte or an acknowledge goes into IRES (R346). -/
def State.i2cDone (s : State) (k data : Nat) (ack : Bool) : State :=
  let c := s.i2c k
  match c.cmds with
  | [] => s
  | (cmd, _) :: rest =>
    let s := s.setI2c k { c with cmds := rest }
    let put (v : Nat) : State := (s.setI2c k { c with cmds := rest, res := c.res ++ [v] }).portIrq (pgI2c k) 0
    match cmd with
    | 1 => put (b2n ack * 256)
    | 2 => put (data % 256 + 256)
    | 3 => put (data % 256)
    | _ => s

/-- IRES read: the oldest result is removed (R346). -/
def State.iresRead (s : State) (k : Nat) : State × Word :=
  let c := s.i2c k
  match c.res with
  | [] => (s, 0)
  | v :: rest => (s.setI2c k { c with res := rest }, BitVec.ofNat 64 (2 ^ 63 + v))

/-- An outside master addresses the port in slave mode (R346). -/
def State.i2cSlave (s : State) (k : Nat) : State :=
  if s.bit (pgI2c k) 0x100 4 ∧ (s.i2c k).stopped = false ∧ s.fabio = true then
    (s.setI2c k { s.i2c k with slave := true }).portIrq (pgI2c k) 1
  else s

/-- A write of an I2C register. -/
def State.wI2c (s : State) (k : Nat) (row : RegRow) (w : Wr) (old new : Word) : State × WOut :=
  match w.off with
  | 0x108 => (s.icmd k (w.bits 10 8) (w.bits 7 0), .accepted)
  | _ => s.plainWrite .i2c row w old new

/-- Set and clear GPIO outputs (R347). -/
def State.gpioSet (s : State) (m : Nat) : State := s.setFld pgGpio 0x108 31 0 (Nat.lor (s.fld pgGpio 0x108 31 0) m)
def State.gpioClr (s : State) (m : Nat) : State :=
  s.setReg pgGpio 0x108 (s.reg pgGpio 0x108 &&& ~~~ (BitVec.ofNat 64 (m % 2 ^ 32)))

/-- New filtered input levels: enabled edges set GEDGE (R347). -/
def State.gpioInput (s : State) (levels : Nat) : State :=
  if s.fabio = false ∨ s.bit pgFcol 0x1C0 29 = true then s
  else
    let old := s.fld pgGpio 0x120 31 0
    let en := (s.reg pgGpio 0x130).toNat
    let edge (n : Nat) : Bool :=
      (bitAt levels n && !bitAt old n && bitAt en n) || (!bitAt levels n && bitAt old n && bitAt en (32 + n))
    let m := (List.range 32).foldl (fun m n => if edge n then m + 2 ^ n else m) 0
    let s := s.setFld pgGpio 0x120 31 0 (levels % 2 ^ 32)
    if m = 0 then s
    else (s.setFld pgGpio 0x128 31 0 (Nat.lor (s.fld pgGpio 0x128 31 0) m)).portIrq pgGpio 0

/-- SPIF serves the warden's accesses to the flash: FABIO is on and the port is not isolated (R270). -/
def State.spifOn (s : State) : Bool := s.fabio && !s.bit pgFcol 0x1C0 26

/-- A write of a GPIO register. -/
def State.wGpio (s : State) (row : RegRow) (w : Wr) (old new : Word) : State × WOut :=
  match w.off with
  | 0x110 => (s.gpioSet (w.bits 31 0), .accepted)
  | 0x118 => (s.gpioClr (w.bits 31 0), .accepted)
  | _ => s.plainWrite .gpio row w old new

/-- A read of a GPIO register: GSET and GCLR read GOUT. -/
def State.rGpio (s : State) (off : Nat) (v : Word) : Word :=
  match off with
  | 0x110 => s.reg pgGpio 0x108
  | 0x118 => s.reg pgGpio 0x108
  | _ => v

/-- A write of an SPIF register. -/
def State.wSpif (s : State) (row : RegRow) (w : Wr) (old new : Word) : State × WOut :=
  if w.off = 0x100 ∧ (5 ≤ bitsOf new 2 0 ∨ bitsOf new 5 4 = 3) then (s, .refused) else s.plainWrite .spif row w old new

/-- MACs: 0 to 15 the rack lanes', 16 and 17 MGMT0 and MGMT1: page and initiator number (R209, R319, R344). -/
def macPage (m : Nat) : Nat := if m < 16 then pgEth m else pgMgmt (m - 16)
def macIid (m : Nat) : Nat := if m < 16 then 0x0220 + m else 0x0210 + (m - 16)

/-- The MAC runs: enabled, its lane an Active Ethernet lane or its port powered. -/
def State.macOn (s : State) (m : Nat) : Bool :=
  s.bit (macPage m) 0x100 0 &&
  (if m < 16 then s.laneState (16 + m) == 5 && s.laneProto (16 + m) == 2
   else s.fabio && s.bit pgFcol 0x1C0 (24 + (m - 16)) == false && !s.deviceEntering)

/-- The EtherType of a frame, after any VLAN tags (R319). -/
def etherType : Nat → List Byte → Nat
  | 0, _ => 0
  | n + 1, bs =>
    match bs with
    | a :: b :: rest =>
      let e := a.toNat * 256 + b.toNat
      if e = 0x8100 ∨ e = 0x88A8 then etherType n (rest.drop 2) else e
    | _ => 0

/-- The EtherType of a whole frame. -/
def frameType (bs : List Byte) : Nat := etherType 4 (bs.drop 12)

/-- The MAC's receive filter (R319). -/
def State.macTakes (s : State) (m : Nat) (bs : List Byte) : Bool :=
  let dst := ofBytes (bs.take 6)
  s.bit (macPage m) 0x100 8 || decide (dst % 2 = 1) || decide (dst = s.fld (macPage m) 0x108 47 0)

/-- A ring's descriptor at an index: address. -/
def State.descAt (s : State) (m ring k : Nat) : Nat := s.fld (macPage m) ring 47 5 * 32 + 32 * k

/-- A frame is dropped for want of a descriptor (R321). -/
def State.macDrop (s : State) (m : Nat) : State := s.count (macPage m) 0x158

/-- The receive ring moves on (R321). -/
def State.rxReturn (s : State) (m a : Nat) (desc : List Byte) (len flags status : Nat) : State :=
  let p := macPage m
  let d := desc.take 8 ++ toBytes len 2 ++ toBytes flags 2 ++ toBytes status 4 ++ toBytes s.now 8 ++ List.replicate 8 0
  let s := (s.memWrite (macIid m) a d).1
  let n := s.fld p 0x120 63 60
  let s := s.setFld p 0x130 43 32 ((s.fld p 0x130 43 32 + 1) % 2 ^ n)
  if s.bit p 0x168 1 then s.irq (s.fld p 0x168 21 16) (48 + s.fld p 0x168 11 8) else s

/-- A received frame goes to the ring (R321). -/
def State.macToRing (s : State) (m : Nat) (f : EthFrame) : State :=
  let p := macPage m
  let n := s.fld p 0x120 63 60
  let head := s.fld p 0x130 43 32
  if n = 0 ∨ head = s.fld p 0x130 11 0 then s.macDrop m
  else
    let a := s.descAt m 0x120 head
    match s.memRead (macIid m) a 32 with
    | (s, none) => s.macDrop m
    | (s, some d) =>
      if bitAt (ofBytes ((d.drop 10).take 2)) 0 = false then (s.setFld p 0x138 2 2 1).macDrop m
      else
        let s := s.setFld p 0x138 2 2 0
        let buf := ofBytes (d.take 8)
        let room := ofBytes ((d.drop 8).take 2)
        let st := if ethStatus f ≠ 0 then ethStatus f else if room < f.bytes.length then 3 else 0
        if room < f.bytes.length then s.rxReturn m a d f.bytes.length (2 + 4) st
        else match s.memWrite (macIid m) buf f.bytes with
          | (s, _) => s.rxReturn m a d f.bytes.length (2 + (if st = 0 then 0 else 4)) st

/-- A received frame past the filter: counted; a PAUSE or PFC frame is counted and discarded, and one of less than 64 bytes is no frame
that the MAC accepts: a length error, discarded (R319). `false`: discarded. -/
def State.macCount (s : State) (m : Nat) (f : EthFrame) : State × Bool :=
  let p := macPage m
  if s.macOn m = false ∨ s.macTakes m f.bytes = false then (s, false)
  else if f.bytes.length < 60 then (s.count p 0x150, false)
  else if ethStatus f ≠ 0 then (s.count p 0x150, true)
  else if frameType f.bytes = 0x8808 then (s.count p 0x160, false)
  else (s.count p 0x148, true)

/-- The MAC finishes sending the frame of its next transmit descriptor (R321). A length outside 60 to 9,212, or bytes that cannot be
read, send nothing and return ERR (assumption 69). -/
def State.macSent (s : State) (m : Nat) : State :=
  let p := macPage m
  let n := s.fld p 0x118 63 60
  let head := s.fld p 0x128 43 32
  if s.macOn m = false ∨ n = 0 ∨ head = s.fld p 0x128 11 0 then s
  else
    let a := s.descAt m 0x118 head
    match s.memRead (macIid m) a 32 with
    | (s, none) => s
    | (s, some d) =>
      let fl := ofBytes ((d.drop 10).take 2)
      if bitAt fl 0 = false then s.setFld p 0x138 1 1 1
      else
        let s := s.setFld p 0x138 1 1 0
        let len := ofBytes ((d.drop 8).take 2)
        let (s, flags) :=
          if ethLength len = false then (s, 4)
          else match s.memRead (macIid m) (ofBytes (d.take 8)) len with
          | (s, some bs) => ((s.emit (.eth m (ethWire bs) s.now)).count p 0x140, 2)
          | (s, none) => (s, 4)
        let d' := d.take 10 ++ toBytes flags 2 ++ List.replicate 4 0 ++ toBytes s.now 8 ++ List.replicate 8 0
        let s := (s.memWrite (macIid m) a d').1
        let s := s.setFld p 0x128 43 32 ((head + 1) % 2 ^ n)
        if s.bit p 0x168 0 then s.irq (s.fld p 0x168 21 16) (48 + s.fld p 0x168 11 8) else s

/-- A write of a MAC's own registers, at 0x100 to 0x168. -/
def State.wMac (s : State) (m : Nat) (k : PageKind) (row : RegRow) (w : Wr) (old new : Word) : State × WOut :=
  match w.off with
  | 0x118 => if ringOk new then s.plainWrite k row w old new else (s, .refused)
  | 0x120 => if ringOk new then s.plainWrite k row w old new else (s, .refused)
  | 0x168 =>
    let s := s.storeReg k row w old (withBits new 32 32 0)
    (if w.sets 32 then [0x140, 0x148, 0x150, 0x158, 0x160].foldl (fun s o => s.setReg (macPage m) o 0) s else s, .accepted)
  | _ => s.plainWrite k row w old new

/-- A write of an ETH register. -/
def State.wEth (s : State) (i : Nat) (row : RegRow) (w : Wr) (old new : Word) : State × WOut :=
  if w.off < 0x200 then s.wMac i .eth row w old new
  else if s.laneProto (16 + i) = 1 then s.wLink (16 + i) (w.off - 0x100) .eth row w old new
  else (s, .accepted)

/-- A write of a MGMT register (R344). -/
def State.wMgmt (s : State) (i : Nat) (row : RegRow) (w : Wr) (old new : Word) : State × WOut :=
  match w.off with
  | 0x100 =>
    let s := s.storeReg .mgmt row w old new
    (if bitsOf new 0 0 = 1 then s.ethLink (16 + i) (pgMgmt i) true else s, .accepted)
  | 0x170 => if bitsOf new 5 4 = 3 then (s, .refused) else s.plainWrite .mgmt row w old new
  | 0x178 =>
    if bitsOf old 31 31 = 1 then (s, .accepted)
    else
      let s := s.storeReg .mgmt row w old new
      (if bitsOf new 31 31 = 1 then s.emit (.mdio new) else s, .accepted)
  | _ => s.wMac (16 + i) .mgmt row w old new

/-- A Clause 22 frame completes (R344). -/
def State.mdioDone (s : State) (i data : Nat) : State :=
  let p := pgMgmt i
  if s.bit p 0x178 31 then
    let s := s.setFld p 0x178 31 31 0
    if s.bit p 0x178 28 then s else s.setFld p 0x178 15 0 data
  else s

/-- The PHY of a management port loses its link (R344). -/
def State.mgmtDown (s : State) (i : Nat) : State := (s.ethLink (16 + i) (pgMgmt i) false).report 0x1EC 2 (0x10 + i) 0

/-- CAN FD controllers stop with the port (R339). -/
def State.canStop (s : State) : State := (List.range 4).foldl (fun s k => s.setCan k { s.can k with stopped := true }) s

/-- A port behind source 0x1EC stops (R270): its number in ISOMASK1.PORT's order: UART 0 to 7, MGMT 8 and 9, SPIF 10, I2C 11
and 12, GPIO 13. MGMT, SPIF and GPIO test their bit of ISOMASK1 where they act. -/
def State.fabPortStop (s : State) (n : Nat) : State :=
  if n < 8 then s.setUart n { s.uart n with stopped := true, tx := [], driving := false }
  else if 11 ≤ n ∧ n < 13 then s.setI2c (n - 11) { s.i2c (n - 11) with stopped := true, cmds := [] }
  else s

end Sys2Proof.Machine
end

