-- ==== Sys2Proof/Machine/Pwr.lean ====
section
/-! DEFINITION. PWR (R349 to R370): domain requests and switches, performance levels, low-power entries and wakes of triads
and of the device, temperatures. -/

namespace Sys2Proof.Machine

/-- A domain request is refused (R350). -/
def State.pwrRefuse (s : State) : State × WOut := (s.pwrRefused, .refused)

/-- DOMSTAT.BUSY. -/
def State.domBusy (s : State) : State := s.setFld pgPwr 0x138 63 63 (b2n (!s.switching.isEmpty))

/-- The DOMSTAT bit of a domain number of R349: regions 64 on, channels 80 on, quads 88 on, the legacy bank 96. -/
def domBit (d : Nat) : Nat :=
  if d < 80 then d - 64 else if d < 88 then 16 + (d - 80) else if d < 96 then 24 + (d - 88) else 32

/-- A domain stops accepting requests and completes those it has accepted (R16, R350). -/
def State.domStop (s : State) (d : Nat) : State :=
  let s :=
    if d < 80 then s.drainPort (d - 64)
    else if d < 88 then s.drainDdr (d - 80)
    else if d < 96 then s.quadOff (d - 88)
    else s.vmeQuiet
  let s := s.setFld pgPwr 0x138 (domBit d) (domBit d) 0
  if d = 96 then s.showSlot1 else s

/-- A domain other than a triad's is asked to switch; behind a switch under way the request waits (R350). -/
def State.domAsk (s : State) (d : Nat) (on : Bool) : State :=
  let busy := (AMap.find? s.switching d).isSome
  let s := s.askSwitch d on
  let s := if busy = false ∧ on = false then s.domStop d else s
  s.domBusy

/-- What a region loses without power (R349, R394). -/
def State.regionLost (s : State) (n : Nat) : State :=
  let s := [pgRegion n, pgSched n, pgCrcu n, pgFwall n].foldl (fun s p =>
    { s.dropPage p (fun _ => false) with pggen := AMap.drop p s.pggen }) s
  let s := s.setEngine n Engine.empty
  let e := s.fresh
  let s : State := { s with fresh := e + 1 }
  let s := s.setSram n (Ram.unwritten (e + 1))
  { s with
    port := AMap.drop n s.port, sramWb := AMap.drop n s.sramWb
    resv := s.resv.filter fun x => !(classify (x.2 * 64) == .sram n) }

/-- What a DDR4 channel loses without power; requests that still wait are answered with a domain-off response (R16); a Retired
channel stays Retired (R237, R240). -/
def State.channelLost (s : State) (k : Nat) : State :=
  let s := (s.ddrQOf k).foldl (fun s r => s.respond r.origin .err) s
  let s := s.ddrUndefined k
  let s : State := { s with ddrQ := AMap.drop k s.ddrQ, ddrWb := AMap.drop k s.ddrWb, ddrDirty := AMap.drop k s.ddrDirty
                            resync := AMap.drop k s.resync }
  if s.dstate k = 8 then s else s.setDstate k 0

/-- Sources of a domain: masked pairs are unmasked when the domain comes on again (R267). -/
def domSrc (d src : Nat) : Bool :=
  if d < 64 then decide (5 * d ≤ src) && decide (src < 5 * d + 5)
  else if d < 80 then decide (0x140 + 6 * (d - 64) ≤ src) && decide (src < 0x140 + 6 * (d - 64) + 6)
  else if d < 88 then decide (0x1B0 + 4 * (d - 80) ≤ src) && decide (src < 0x1B0 + 4 * (d - 80) + 4)
  else if d < 96 then decide (0x1D0 + 3 * (d - 88) ≤ src) && decide (src < 0x1D0 + 3 * (d - 88) + 3)
  else decide (src = 0x1E8) || decide (src = 0x1E9) || decide (src = 0x1EA) || decide (src = 0x1EB)

/-- Unmask the pairs of a reset or re-powered unit (R267). -/
def State.unmask (s : State) (f : Nat → Bool) : State :=
  { s with fcol := { s.fcol with
      masked := s.fcol.masked.filter fun x => !f x, pairs := s.fcol.pairs.filter fun x => !f x.1 } }

/-- Both ends of every path at a unit start again at 0 (R255). -/
def State.flitRestart (s : State) (d : Nat) : State :=
  let far (e : Nat × Nat) : Bool := e.1 / 256 != d && e.1 / 2 % 128 != d
  { s with flitRx := s.flitRx.filter far, flitTx := s.flitTx.filter far }

/-- The effect of a completed switch (R349). -/
def State.domDone (s : State) (d : Nat) (on : Bool) : State :=
  let s := if on then (s.unmask (domSrc d)).flitRestart d else s
  if d < 64 then
    if on then ((s.triadOn d).setPowerState d 2).setFld pgPwr (tpwr d) 26 24 (s.fld pgPwr (tpwr d) 2 0)
    else
      let s := (List.range 3).foldl (fun s c => s.dropPage (pgCore (3 * d + c)) (fun _ => false)) s
      (s.setPowerState d 0).setFld pgPwr (tpwr d) 26 24 0
  else
    let s := s.setFld pgPwr 0x138 (domBit d) (domBit d) (b2n on)
    if d < 80 then (if on then s.setFld (pgRegion (d - 64)) 0x100 1 1 1 else s.regionLost (d - 64))
    else if d < 88 then
      if on then (if s.dstate (d - 80) = 0 then s.setDstate (d - 80) 1 else s) else s.channelLost (d - 80)
    else if d < 96 then (if on then s.quadLanesOn (d - 88) else s)
    else s.showSlot1

/-- A domain finishes switching; `late`: it missed its bound (R349). The next request held behind it begins (R350). -/
def State.domComplete (s : State) (d : Nat) (late : Bool) : State :=
  match AMap.find? s.switching d with
  | none => s
  | some on =>
    let s : State := { s with switching := AMap.drop d s.switching }
    let s := s.domDone d on
    let s := if late then s.report 0x1EF 1 0xFF 0 else s
    let s := s.pwrEvent 0
    match s.heldSwitch.find? fun h => h.1 == d with
    | none => s.domBusy
    | some h =>
      let s : State := { s with heldSwitch := s.heldSwitch.erase h }
      if d < 64 then (s.askSwitch d h.2).domBusy else s.domAsk d h.2

/-- Bits that differ between two words, below `n`. -/
def changedBits (old new : Word) (n : Nat) : List Nat := (List.range n).filter fun i => bitsOf old i i != bitsOf new i i

/-- A region may be switched off: its triads are Off (R15) and no active table entry names its SRAM (R22). -/
def State.regionIdle (s : State) (n : Nat) : Bool :=
  ((List.range 4).all fun j => s.powerState (4 * n + j) == 0) && s.regionFree n

/-- RDOM (R22, R24, R349, R350). -/
def State.rdomWrite (s : State) (row : RegRow) (w : Wr) (old new : Word) : State × WOut :=
  let ch := changedBits old new 16
  if ch.any fun n => decide (s.nRegions ≤ n) || (bitsOf new n n == 0 && !s.regionIdle n) then s.pwrRefuse
  else
    let s := s.storeReg .pwr row w old new
    (ch.foldl (fun s n => s.domAsk (64 + n) (bitsOf new n n == 1)) s, .accepted)

/-- A channel may not be switched off now (R350). -/
def State.channelHeld (s : State) (k : Nat) : Bool :=
  let st := s.dstate k
  st == 2 || st == 5 || st == 6 || st == 9 || (decide (k % 2 = 0) && (s.mirrored k || st == 8))

/-- XDOM (R349, R350). -/
def State.xdomWrite (s : State) (row : RegRow) (w : Wr) (old new : Word) : State × WOut :=
  let ch := changedBits old new 17
  if ch.any fun i => decide (i < 8) && bitsOf new i i == 0 && s.channelHeld i then s.pwrRefuse
  else
    let s := s.storeReg .pwr row w old new
    (ch.foldl (fun s i => s.domAsk (if i < 16 then 80 + i else 96) (bitsOf new i i == 1)) s, .accepted)

/-- TPWR.REFUSE. -/
def State.tpwrRefuse (s : State) (t : Nat) : State × WOut := (s.setFld pgPwr (tpwr t) 28 28 1, .refused)

/-- A write of TPWR[t] (R354). -/
def State.tpwrWrite (s : State) (t : Nat) (row : RegRow) (w : Wr) (old new : Word) : State × WOut :=
  let pl := bitsOf new 2 0
  let st := s.powerState t
  let moves := pl ≠ bitsOf old 2 0
  if s.nTriads ≤ t then (s, .accepted)
  else if pl = 0 ∨ bitsOf new 9 8 = 3 then s.tpwrRefuse t
  else if moves ∧ ((3 ≤ st ∧ st ≤ 7) ∨ (s.triad t).mordBusy = true ∨ s.tableUses t = true) then s.tpwrRefuse t
  else
    let s := s.storeReg .pwr row w old new
    (if moves ∧ st = 2 then s.setPowerState t 3 else s, .accepted)

/-- A level change completes (R354). -/
def State.levelDone (s : State) (t : Nat) : State :=
  if s.powerState t = 3 then
    ((s.setPowerState t 2).setFld pgPwr (tpwr t) 26 24 (s.fld pgPwr (tpwr t) 2 0)).pwrEvent 1
  else s

/-- RSTSTAT shows that a reset of a unit under way was abandoned (R25). -/
def State.resetDropped (s : State) (kind inst : Nat) : State :=
  let s : State := { s with resets := s.resets.filter fun r => r != (kind, inst) }
  (s.setFld pgDevice 0x110 0 0 1).setFld pgDevice 0x110 1 1 (b2n (!s.resets.isEmpty))

/-- A power-on, level change or reset of triad `t` under way is abandoned by a reaction action and reported as failed, where its
page reports a refusal (R25): the state, and whether there was one. R25 does not name the fields (DESIGN CHOICE, assumption 63). -/
def State.abandonTriad (s : State) (t : Nat) : State × Bool :=
  let up := AMap.find? s.switching t = some true
  let level := s.powerState t = 3
  let reset := s.resets.contains (4, t) = true
  let s :=
    if up then
      let s : State := { s with switching := AMap.drop t s.switching, heldSwitch := s.heldSwitch.filter fun h => h.1 != t }
      (((s.setPowerState t 0).triadRefuse t).pwrRefused).domBusy
    else s
  let s :=
    if level then ((s.setPowerState t 2).setFld pgPwr (tpwr t) 2 0 (s.fld pgPwr (tpwr t) 26 24)).setFld pgPwr (tpwr t) 28 28 1
    else s
  (if reset then s.resetDropped 4 t else s, decide (up ∨ level ∨ reset))

/-- A reset of region `n` under way is abandoned (R25): its SRAM is not made ready. -/
def State.abandonRegion (s : State) (n : Nat) : State × Bool :=
  if s.resets.contains (3, n) then ((s.resetDropped 3 n).setFld (pgRegion n) 0x100 1 1 0, true) else (s, false)

/-- A LOADTABLE whose switch is armed is abandoned (R25): the switch is cancelled, for a cause that SWSTAT.REASON does not name;
the request is answered with status 11 (R400). -/
def State.abandonLoad (s : State) : State :=
  match s.svc.op with
  | some (ch, r, .loadTable) =>
    { s.cancelSwitch 0 with svc := { s.svc with op := some (ch, r, .dropped) } }
  | _ => s

/-- A write of a PWR register. -/
def State.wPwr (s : State) (row : RegRow) (w : Wr) (old new : Word) : State × WOut :=
  match w.off with
  | 0x100 =>
    let s := if w.sets 2 then s.setFld pgPwr 0x110 31 0 0 else s
    if bitsOf new 1 0 = 3 then (s, .refused) else s.plainWrite .pwr row w old (withBits new 2 2 0)
  | 0x128 => s.rdomWrite row w old new
  | 0x130 => s.xdomWrite row w old new
  | 0x140 => if bitsOf new 7 0 < 149 ∨ 189 < bitsOf new 7 0 then (s, .refused) else s.plainWrite .pwr row w old new
  | _ => if 0x200 ≤ w.off then s.tpwrWrite ((w.off - 0x200) / 8) row w old new else s.plainWrite .pwr row w old new

/-- A read of a PWR register: TPWR of absent triads reads 0. -/
def State.rPwr (s : State) (off : Nat) (v : Word) : Word :=
  if 0x200 ≤ off ∧ s.nTriads ≤ (off - 0x200) / 8 then 0 else v

/-- The device state that the entry under way leads to. -/
def State.dmode (s : State) : Nat := s.fld pgPwr 0x100 1 0

/-- The preconditions of a device entry (R364). -/
def State.deviceMaySleep (s : State) (t : Nat) : Bool :=
  ((List.range s.nTriads).all fun u => u == t || (s.triad u).mode == 0) &&
  ((List.range s.nRegions).all fun n => !s.bit (pgSched n) 0x100 0) &&
  ((List.range 8).all fun q => !s.bit (pgLsched q) 0x100 0) &&
  ((List.range 8).all fun k => !(s.dstate k == 2 || s.dstate k == 5 || s.dstate k == 6 || s.dstate k == 9)) &&
  s.svc.op.isNone && (s.dmode == 1 || s.dmode == 2)

/-- ERROUT shows error (R276). -/
def State.showError (s : State) : State :=
  { s.setFld pgFcol 0x108 5 5 1 with fcol := { s.fcol with errShown := true } }

/-- The register pages that Standby and Deep leave at their reset values (R394). -/
def sleepDrops (k : PageKind) (deep : Bool) : Bool :=
  match k with
  | .triad | .core | .region | .sched | .crcu | .fwall | .lane | .laneq | .bvl | .eth | .lsched | .vme | .vmemap | .vmepart
  | .canfd | .uart | .mgmt | .spif | .i2c | .gpio => true
  | .ddrc => deep
  | _ => false

/-- A register that no reset but power-on returns (R394): RWS fields, RADM, DSTAT's RETIRED and STATE of a Retired channel
are handled with their pages. -/
def keptAlways (k : PageKind) (off : Nat) : Bool :=
  match k with
  | .triad => off == 0x180
  | _ => false

/-- Reset every register of the pages that `f` names, but RADM (R394). -/
def State.resetPages (s : State) (f : PageKind → Nat → Bool) : State :=
  let hit (p : Nat) : Bool := match pageKind s.dies p with
    | some (k, i) => f k i
    | none => false
  let keep (key : Nat) : Bool := match pageKind s.dies (key / 0x1000) with
    | some (k, i) => !f k i || keptAlways k (key % 0x1000)
    | none => true
  { s with
    regs := s.regs.filter fun e => keep e.1
    pggen := s.pggen.filter fun e => !hit e.1
    injMade := s.injMade.filter fun e => !hit e.1 }

/-- A Retired channel stays Retired over a reset of its page (R394). -/
def State.keepRetired (s : State) (f : State → State) : State :=
  let old := (List.range 8).filter fun k => s.bit (pgDdrc k) 0x110 9
  old.foldl (fun s k => (s.setDstate k 8).setFld (pgDdrc k) 0x110 9 9 1) (f s)

/-- The links' LANEMASK after a reset keeps the spares that have joined (R312, R394). -/
def State.keepSpares (s : State) : State :=
  s.spares.foldl (fun s e =>
    let s := s.setLfld e.2 0x100 47 32 (setBitN (s.lfld e.2 0x100 47 32) e.1)
    (s.setLfld e.1 0x108 12 8 e.2).setLfld e.1 0x108 3 0 6) s

/-- Link-engine, lane and port state back to that of reset. -/
def State.ioLost (s : State) : State :=
  { s with
    lanes := [], links := [], lengines := [], vme := Vme.idle, cans := [], uarts := [], i2cs := []
    vmeIn := [] }

/-- The reaction banks and PGGEN of FCOL return to the built-in table (R285, R394). -/
def State.reactionLost (s : State) : State :=
  let s := s.resetPages fun k _ => match k with
    | .rta0 | .rta1 | .rti0 | .rti1 => true
    | _ => false
  { s with fcol := { s.fcol with gen := 0, checked := none, thr := [] } }

/-- TIME's tables, frames and switches are lost (R363, R394). -/
def State.tablesLost (s : State) : State :=
  let s : State := { s with timeB := { s.timeB with
    frameNo := 0, frameStart := 0, actGen := 0, active := [], inactive := [], checked := none, armed := false, firstFrame := 0 } }
  let s := ((s.setReg pgTime 0x148 0).setReg pgTime 0x150 0).setReg pgTime 0x158 0
  { s with notices := [] }

/-- Standby or Deep is reached: the domains are off and their state is lost (R363, R394). -/
def State.deviceAsleep (s : State) (t : Nat) : State :=
  let deep := s.dmode == 2
  let s := (List.range s.nTriads).foldl (fun s u => (s.triadOff u).setPowerState u 0) s
  let s := s.setFld pgPwr (tpwr t) 26 24 0
  let s : State := { s with savedWake := (List.range 32).filter fun l => s.fld (pgLane l) 0x100 21 20 != 0 }
  let s := (s.keepRetired fun s => s.resetPages fun k _ => sleepDrops k deep).keepSpares
  let s := (List.range s.nRegions).foldl (fun s n => s.regionLost n) s
  let s := if deep then (List.range 8).foldl (fun s k => s.channelLost k) s else s
  let s := s.ioLost.tablesLost
  let s : State := { s.setReg pgPwr 0x138 0 with
    fabio := false, fab := false, aoc := !deep, warned := if deep then [] else s.warned
    switching := [], heldSwitch := [], tags := [], resps := [], resv := [], flitRx := [], flitTx := [] }
  s.clampPairs

/-- The wake resumes the device (R366): WAKEWHY, the fabric domains, the saved domains. The start sequence goes on from step
4, by its own commands. -/
def State.resume (s : State) (src idx : Nat) : State :=
  let prev := s.dmode
  let s := s.setReg pgPwr 0x120 (BitVec.ofNat 64 (2 ^ 32 + prev * 2 ^ 24 + idx * 2 ^ 8 + src))
  let s := if s.aoc then s else s.unmask fun x => [0x1A2, 0x1A3, 0x1A6, 0x1A7].contains x
  let s : State := { s with fabio := true, fab := true, aoc := true, wakeLatch := none, savedWake := [] }
  let s := (s.setFld pgPwr 0x108 1 0 2).reactionLost
  let dom := s.savedDom
  let s := s.unmask fun x => [0x1A0, 0x1A1, 0x1A4, 0x1A5, 0x1A8, 0x1AE, 0x1EC, 0x1EE].contains x
  let s := (List.range s.nRegions).foldl (fun s n => if bitsOf dom n n = 1 then s.domAsk (64 + n) true else s) s
  let s := (List.range 8).foldl (fun s k => if bitsOf dom (16 + k) (16 + k) = 1 then s.domAsk (80 + k) true else s) s
  let s := (List.range 8).foldl (fun s q => if bitsOf dom (24 + q) (24 + q) = 1 then s.domAsk (88 + q) true else s) s
  let s := if bitsOf dom 32 32 = 1 then s.domAsk 96 true else s
  let s := (s.setFld pgWarden 0x108 3 0 0).setFld pgWarden 0x108 11 8 4
  { s with warden := { s.warden with startAt := s.now, part := 0, rec' := 0, failedAt := none } }

/-- The device sleeps: an entry is complete and no wake came yet. -/
def State.asleep (s : State) : Bool := s.fld pgPwr 0x108 1 0 == 1 && !s.fabio

/-- A stage of a low-power entry completes (R359, R363). -/
def State.entryStage (s : State) (t : Nat) : State :=
  let d := s.triad t
  let device := s.fld pgPwr 0x108 1 0 = 1 ∧ s.fld pgPwr 0x108 37 32 = t
  let go (e : Nat) : State := s.setTriad t { d with entry := e }
  match d.entry with
  | 0 => s
  | 1 => go 2
  | 2 =>
    if d.gate.isEmpty = false ∨ d.replay.isEmpty = false ∨ (s.tagsIn (24 * t) 24).isEmpty = false then s
    else if ¬ device ∧ s.fld pgPwr (tpwr t) 9 8 = 1 then (go 0).setPowerState t 5
    else go 3
  | 3 => (go 4).clampPairs
  | 4 =>
    if device then (if s.deviceMaySleep t then go 5 else s.abandonEntry t 2)
    else
      let s := ((go 0).setPowerState t 6).setFld pgPwr (tpwr t) 26 24 0
      if (s.running t).any fun c => s.stampAbove t c then s.wakeTriad t else s
  | 5 => go 6
  | 6 => (List.range 32).foldl (fun s l => s.laneIdle l) (go 7)
  | 7 =>
    let s := go 8
    let s : State := { s with savedDom := s.reg pgPwr 0x138 }
    let s := (s.setFld pgTime 0x100 1 0 0).setSrc 0 false false
    let s := (List.range 8).foldl (fun s k => s.drainDdr k) s
    let s := if s.dmode = 1 then
        (List.range 8).foldl (fun s k => if s.dstate k = 3 ∨ s.dstate k = 4 then s.setDstate k 10 else s) s
      else s
    s.showError
  | _ =>
    let s := s.deviceAsleep t
    match s.wakeLatch with
    | some (a, b) => s.resume a b
    | none => s

/-- A wake source fires (R365): sources 1 lane, 2 alarm, 3 GPIO, 4 UART0, enabled by WAKEEN and its own detector. -/
def State.wakeEnabled (s : State) (src idx : Nat) : Bool :=
  let en := s.reg pgPwr 0x118
  match src with
  | 1 => bitsOf en 0 0 == 1 && !s.quadOn (idx / 4) &&
    (if s.asleep then s.savedWake.contains idx else s.fld (pgLane idx) 0x100 21 20 != 0)
  | 2 => bitsOf en 1 1 == 1
  | 3 => bitsOf en 2 2 == 1 && bitAt (bitsOf en 11 8) idx && decide (idx < 4)
  | 4 => bitsOf en 3 3 == 1
  | _ => false

/-- A wake of the device (R360, R365, R366). -/
def State.wakeDevice (s : State) (src idx : Nat) : State :=
  if s.wakeEnabled src idx = false then s
  else if s.asleep then s.resume src idx
  else if s.fld pgPwr 0x108 1 0 = 1 then
    let t := s.fld pgPwr 0x108 37 32
    if (s.triad t).entry = 0 then s
    else if s.pastAbort t then
      (if s.wakeLatch.isSome then s else { s with wakeLatch := some (src, idx) })
    else (s.abandonEntry t 1).wakeWaits t
  else s

/-- A channel has left self-refresh (R239): it serves again, Mirrored where its partner was Mirrored too, else alone. -/
def State.selfRefreshOut (s : State) (k : Nat) : State :=
  let y := s.dstate (partner k)
  if s.dstate k = 10 ∧ s.ddrOn k = true then s.setDstate k (if s.mirrored k = true ∧ (y = 10 ∨ y = 4) then 4 else 3) else s

/-- One die's reading against the trip and the warning threshold (R357); `d` a compute die. -/
def State.dieTemp (s : State) (d temp : Nat) : State :=
  let thr := s.fld pgPwr 0x140 7 0
  let s := if 199 < temp then s.report (0x1A2 + 4 * d) 1 0xFF 0 else s
  if thr < temp ∧ s.warned.contains d = false then
    { s with warned := s.warned ++ [d] }.report (0x1A3 + 4 * d) 1 0xFF 0
  else if temp + 5 < thr then { s with warned := s.warned.filter fun x => x != d }
  else s

/-- The temperatures of a sample, in °C + 64 (R357). A die's sensors stand in its AOC domain, the I/O die's in AO0: in Deep the dies
report none (R12). Events of one sample arrive together, the lowest source first (R271). -/
def State.thermal (s : State) (t0 t1 tio : Nat) : State :=
  let t1 := if s.dies = 1 then 0 else t1
  let s := s.setFld pgPwr 0x140 39 32 tio
  if s.aoc = false then s
  else
    let s := ((s.setFld pgPwr 0x140 31 24 t1).setFld pgPwr 0x140 23 16 t0).dieTemp 0 t0
    if s.dies = 1 then s else s.dieTemp 1 t1

end Sys2Proof.Machine
end

