-- ==== Sys2Proof/Machine/Image.lean ====
section
/-! DEFINITION. The boot flash: directory, image headers, verification, candidate sets and the manifest check (R377 to R380,
R403 to R407, R415). -/

namespace Sys2Proof.Machine

/-- A byte of the flash, `n` bytes from an offset, and a little-endian number. -/
def State.flashByte (s : State) (a : Nat) : Byte := AMap.get s.flash (fun _ => 0xFF) a
def State.flashBytes (s : State) (a n : Nat) : List Byte := (List.range n).map fun j => s.flashByte (a + j)
def State.flashNum (s : State) (a n : Nat) : Nat := ofBytes (s.flashBytes a n)

/-- Write bytes to the flash (R401, R403). -/
def State.flashWrite (s : State) (a : Nat) (bs : List Byte) : State :=
  { s with flash := bs.zipIdx.foldl (fun m e => AMap.set m (fun _ => 0xFF) (a + e.2) e.1) s.flash }

/-- Erase a range to 0xFF. -/
def State.flashErase (s : State) (a n : Nat) : State :=
  { s with flash := s.flash.filter fun e => decide (e.1 < a) || decide (a + n ≤ e.1) }

/-- The two directory copies (R403). -/
def dirBase (c : Nat) : Nat := if c = 0 then 0 else 0x10000

/-- Bytes with those at `o` to `o + n - 1` zero. -/
def zeroAt (bs : List Byte) (o n : Nat) : List Byte := bs.take o ++ List.replicate n 0 ++ bs.drop (o + n)

/-- A directory copy is good: MAGIC, VERSION, NENT and CHECK (R403). -/
def State.dirGood (s : State) (c : Nat) : Bool :=
  let b := dirBase c
  let n := s.flashNum (b + 6) 2
  decide (s.flashNum b 4 = 0x5249445A) && decide (s.flashNum (b + 4) 2 = 1) && decide (1 ≤ n) && decide (n ≤ 32) &&
  decide (crcOf 3 ((zeroAt (s.flashBytes b (32 + 32 * n)) 0x18 8).map fun x => x.toNat) = s.flashNum (b + 0x18) 8)

/-- The copy in force: good, with the higher DGEN; copy 0 where they are equal (R403). -/
def State.dirCopy (s : State) : Option Nat :=
  let g (c : Nat) : Nat := s.flashNum (dirBase c + 8) 8
  match s.dirGood 0, s.dirGood 1 with
  | true, true => if g 0 < g 1 then some 1 else some 0
  | true, false => some 0
  | false, true => some 1
  | false, false => none

/-- A directory entry (R403). -/
structure FlashEnt where
  idx : Nat
  kind : Nat
  pref : Nat
  slotLen : Nat
  aoff : Nat
  boff : Nat
deriving DecidableEq, Repr

/-- The entries of the directory in force. -/
def State.dirEnts (s : State) : List FlashEnt :=
  match s.dirCopy with
  | none => []
  | some c =>
    let b := dirBase c
    (List.range (s.flashNum (b + 6) 2)).map fun i =>
      let o := b + 32 + 32 * i
      ⟨i, s.flashNum o 1, s.flashNum (o + 1) 1 % 2, s.flashNum (o + 4) 4, s.flashNum (o + 8) 8, s.flashNum (o + 16) 8⟩

/-- An entry by number. -/
def State.dirEnt? (s : State) (i : Nat) : Option FlashEnt := s.dirEnts.find? fun e => e.idx == i

/-- Where a slot begins: slot 0 A, 1 B. -/
def FlashEnt.at' (e : FlashEnt) (slot : Nat) : Nat := if slot = 0 then e.aoff else e.boff

/-- An image header's fields (R404), by the image's flash offset. -/
def State.imgKind (s : State) (a : Nat) : Nat := s.flashNum (a + 6) 1
def State.imgVersion (s : State) (a : Nat) : Nat := s.flashNum (a + 8) 4
def State.imgSecver (s : State) (a : Nat) : Nat := s.flashNum (a + 12) 4
def State.imgLen (s : State) (a : Nat) : Nat := s.flashNum (a + 16) 4
def State.imgAttr (s : State) (a : Nat) : Nat := s.flashNum (a + 24) 8
def State.imgPub (s : State) (a : Nat) : List Byte := s.flashBytes (a + 0x50) 97

/-- Where an image's body begins. -/
def bodyAt (a : Nat) : Nat := a + 512

/-- A segment of a triad image (R406): TCM offset, length, where its data lie. -/
def State.imgSegs (s : State) (a : Nat) : List (Nat × Nat × Nat) :=
  let b := bodyAt a
  (List.range (s.flashNum (b + 6) 2)).map fun i =>
    let o := b + 16 + 16 * i
    (s.flashNum o 4, s.flashNum (o + 4) 4, b + s.flashNum (o + 8) 4)

/-- The body of a triad or Umber image is well formed (R406). -/
def State.triadBodyOk (s : State) (a : Nat) : Bool :=
  let b := bodyAt a
  let n := s.flashNum (b + 6) 2
  let segs := s.imgSegs a
  decide (s.flashNum b 4 = 0x4D43545A) && decide (s.flashNum (b + 4) 2 = 1) && decide (1 ≤ n) && decide (n ≤ 64) &&
  decide (s.flashNum (b + 8) 8 = 0) &&
  segs.all (fun g => decide (g.2.1 % 8 = 0) && decide (g.1 + g.2.1 ≤ 0x20000) && decide (g.2.2 + g.2.1 ≤ b + s.imgLen a)) &&
  (List.range n).all (fun i => (List.range n).all fun j =>
    match segs[i]?, segs[j]? with
    | some x, some y => decide (j ≤ i) || decide (x.1 + x.2.1 ≤ y.1) || decide (y.1 + y.2.1 ≤ x.1)
    | _, _ => true) &&
  (List.range n).all (fun i => decide (s.flashNum (b + 16 + 16 * i + 12) 4 = 0))

/-- Zero bytes. -/
def State.flashZero (s : State) (a n : Nat) : Bool := (s.flashBytes a n).all fun x => x == 0

/-- The header is well formed and of the slot's kind: check 2 of R378 (R404, R406). -/
def State.headerOk (s : State) (e : FlashEnt) (a : Nat) : Bool :=
  let k := s.imgKind a
  decide (s.flashNum a 4 = 0x474D495A) && decide (s.flashNum (a + 4) 2 = 1) && decide (k = e.kind) && decide (1 ≤ k) &&
  decide (k ≤ 9) && decide (s.flashNum (a + 7) 1 ≤ 1) && decide (s.imgSecver a ≤ 64) &&
  decide (512 + s.imgLen a ≤ e.slotLen) && s.flashZero (a + 0x14) 4 && s.flashZero (a + 0xB1) 15 && s.flashZero (a + 0x190) 16 &&
  (match k with
    | 5 => s.triadBodyOk a
    | 9 => s.triadBodyOk a && decide (s.imgAttr a = 1)
    | 7 => decide (s.imgAttr a < 65536)
    | _ => decide (s.imgAttr a = 0)) &&
  (List.range 16).all fun i => s.flashZero (a + 0xD0 + 12 * i + 1) 3

/-- The anti-rollback counter of a kind. -/
def State.arcOf (s : State) (k : Nat) : Nat := AMap.get s.warden.arc (fun _ => 0) k

/-- The key slot whose unrevoked hash an image's public key has (R378 check 4). -/
def State.keySlot (s : State) (a : Nat) : Option Nat :=
  (List.range 8).find? fun k =>
    Config.otpProg k && !s.warden.revoked.contains k && Config.otpHash k == Config.sha384 (s.imgPub a)

/-- A page of the image that begins at `a` failed the double read of R345. -/
def State.imgUnread (s : State) (a : Nat) : Bool :=
  s.warden.unread.any fun p => decide (a / 256 ≤ p) && decide (p ≤ (a + 511 + s.imgLen a) / 256)

/-- An image is read: a page on which three attempts do not agree is reported (R345). -/
def State.readImage (s : State) (a : Nat) : State := if s.imgUnread a then s.report 0x1EC 3 0x20 0 else s

/-- Verification of a slot (R378): 0, or the number of the first check that fails. -/
def State.verifyAt (s : State) (e : FlashEnt) (slot : Nat) : Nat :=
  let a := e.at' slot
  if s.imgUnread a then 1
  else if s.headerOk e a = false then 2
  else if Config.sha384 (s.flashBytes (bodyAt a) (s.imgLen a)) ≠ s.flashNum (a + 0x20) 48 then 3
  else if (s.keySlot a).isNone then 4
  else if Config.ecdsaOk (s.imgPub a) (s.flashBytes (a + 0x1A0) 96) (s.flashBytes a 0x1A0) = false then 5
  else if s.imgSecver a < s.arcOf e.kind then 6
  else 0

/-- The image a slot holds. -/
def State.imageUse (s : State) (e : FlashEnt) (slot : Nat) : ImageUse :=
  let a := e.at' slot
  ⟨e.idx, slot, s.imgKind a, s.imgVersion a, s.imgSecver a, bitAt (s.flashNum (a + 7) 1) 0, BitVec.ofNat 64 (s.imgAttr a), false,
   BitVec.ofNat 64 (s.imgAttr a)⟩

/-- Where an image in use lies. -/
def State.useAt (s : State) (u : ImageUse) : Nat :=
  match s.dirEnt? u.entry with
  | some e => e.at' u.slot
  | none => 0

/-- The images of a kind in a set. -/
def ofKind (set : List ImageUse) (k : Nat) : List ImageUse := set.filter fun u => u.kind == k

/-- One image's own manifest entry holds in a set (R380 items 2 to 5). -/
def State.entryOk (s : State) (set : List ImageUse) (u : ImageUse) : Bool :=
  let a := s.useAt u
  let stepping := (List.range 8).any fun i => s.flashNum (a + 0xC0 + 2 * i) 2 == 0xA1
  let needs := (List.range 16).all fun i =>
    let o := a + 0xD0 + 12 * i
    let k := s.flashNum o 1
    decide (k = 0) ||
    set.any fun v => v.kind == k && decide (s.flashNum (o + 4) 4 ≤ v.version) && decide (v.version ≤ s.flashNum (o + 8) 4)
  let triads := u.kind != 5 ||
    ((List.range 64).all fun t =>
      !bitAt u.attr.toNat t ||
      (decide (t < s.nTriads) && set.all fun v => v == u || v.kind != 5 || !bitAt v.attr.toNat t))
  let body := bodyAt a
  let ident :=
    if u.kind = 3 then s.flashNum (body + 0x10) 1 == s.devid && s.flashNum (body + 0x11) 1 == s.dies
    else if u.kind = 4 then s.flashNum (body + 0x18) 1 == s.devid && s.flashNum (body + 0x19) 1 == s.dies
    else true
  stepping && needs && triads && ident

/-- The manifest check of a set (R380): none, or the kind of the first image whose entry fails. -/
def State.manifest (s : State) (set : List ImageUse) : Option Nat :=
  match [1, 2, 3, 4].find? fun k => (ofKind set k).length != 1 with
  | some k => some k
  | none =>
    match [6, 7, 8, 9].find? fun k => decide (1 < (ofKind set k).length) with
    | some k => some k
    | none => (set.find? fun u => !s.entryOk set u).map fun u => u.kind

/-- What image selection gives (R377): the set with its WSTAT.SET code, or a failed start: code, kind, slot, detail. -/
inductive SetChoice where
  | use (set : List ImageUse) (code : Nat)
  | fail (code kind slot detail : Nat)
deriving DecidableEq, Repr

/-- The slot of an entry that P takes: the preferred one, else the other (R377). -/
def State.pick (s : State) (e : FlashEnt) : Option Nat :=
  if s.verifyAt e e.pref = 0 then some e.pref
  else if s.verifyAt e (1 - e.pref) = 0 then some (1 - e.pref)
  else none

/-- The candidate set P (R377). -/
def State.setP (s : State) : List ImageUse := s.dirEnts.filterMap fun e => (s.pick e).map fun x => s.imageUse e x

/-- The set Q: the non-preferred slot of every entry P holds, where all pass (R377). -/
def State.setQ (s : State) : Option (List ImageUse) :=
  let es := s.dirEnts.filter fun e => (s.pick e).isSome
  if es.all fun e => s.verifyAt e (1 - e.pref) == 0 then some (es.map fun e => s.imageUse e (1 - e.pref)) else none

/-- Image selection (R377, R378, R403). -/
def State.chooseSet (s : State) : SetChoice :=
  if s.dirCopy.isNone then .fail 2 0xFF 0 0
  else
    match s.dirEnts.find? fun e => decide (1 ≤ e.kind) && decide (e.kind ≤ 4) && (s.pick e).isNone with
    | some e => .fail 2 e.kind (1 - e.pref) (s.verifyAt e (1 - e.pref))
    | none =>
      match s.manifest s.setP with
      | none => .use s.setP 1
      | some k =>
        match s.setQ with
        | some q => if (s.manifest q).isNone then .use q 2 else .fail 3 0xFF 0 k
        | none => .fail 3 0xFF 0 k

/-- The set formed with every preferred slot (R415, R416), and the first check that fails. -/
def State.prefSet (s : State) : List ImageUse := s.dirEnts.map fun e => s.imageUse e e.pref

/-- A TCM as a triad image fills it (R222, R406). -/
def State.tcmOfImage (s : State) (a : Nat) : Ram :=
  (s.imgSegs a).foldl (fun r g => (List.range g.2.1).foldl (fun r j => r.setByte (g.1 + j) (s.flashByte (g.2.2 + j))) r)
    (Ram.filled 0xFF)

/-- Load all three TCMs of a triad from an image (R222, R406, R409). -/
def State.loadTcms (s : State) (t a : Nat) : State :=
  let r := s.tcmOfImage a
  (List.range 3).foldl (fun s c =>
    let p := s.copy (3 * t + c)
    if p.st = .unpowered then s else s.setCopy (3 * t + c) { p with tcm := r, writeBack := [] }) s

/-- The mode in which a triad starts: Triple, or the Pair of the copies that are not Retired (R383); 5, Out, where fewer than
two remain. -/
def State.startMode (s : State) (t : Nat) : Nat :=
  match (List.range 3).filter fun c => !s.isRetired t c with
  | [_, _, _] => 1
  | [0, 1] => 2
  | [0, 2] => 3
  | [1, 2] => 4
  | _ => 5

/-- A directory rewrite goes to the copy not in use, with DGEN + 1 (R403): `f` gives the bytes of each entry. -/
def State.dirRewrite (s : State) (n : Nat) (f : Nat → List Byte) : State :=
  let cur := s.dirCopy.getD 1
  let gen := s.flashNum (dirBase cur + 8) 8 + 1
  let head := toBytes 0x5249445A 4 ++ toBytes 1 2 ++ toBytes n 2 ++ toBytes gen 8 ++ List.replicate 16 0
  let body := (List.range n).foldl (fun a i => a ++ f i) head
  let chk := crcOf 3 (body.map fun x => x.toNat)
  let b := dirBase (1 - cur)
  (s.flashErase b (32 + 32 * 32)).flashWrite b (body.take 0x18 ++ toBytes chk 8 ++ body.drop 0x20)

/-- The bytes of an entry as they stand. -/
def State.entBytes (s : State) (i : Nat) : List Byte :=
  match s.dirCopy with
  | some c => s.flashBytes (dirBase c + 32 + 32 * i) 32
  | none => List.replicate 32 0

end Sys2Proof.Machine
end

