-- ==== Sys2Proof/Machine/Safe.lean ====
section
/-! DEFINITION. What DEVICE-SAFE, failed starts and Umber mode do to the device (R275, R276, R281, R390 to R392). -/

namespace Sys2Proof.Machine

/-- NSAFE of the active reaction table (R279, R282); none under the built-in table (R285). -/
def State.nSafe (s : State) : Nat := if s.fcol.gen = 0 then 0 else s.fld 0x0004 0x910 31 16

/-- SAFE record `i` of the active table: group, index, state (R281). -/
def State.safeRec (s : State) (i : Nat) : Nat × Nat × Nat :=
  let w := (s.reg 0x0005 (0x900 + 4 * i / 8 * 8)).toNat / 2 ^ (32 * (i % 2)) % 2 ^ 32
  (w % 256, w / 256 % 256, w / 65536 % 256)

/-- The state that the SAFE records declare for a pin: 0 float where none names it (R275). -/
def State.safePin (s : State) (g i : Nat) : Nat :=
  match ((List.range s.nSafe).map s.safeRec).find? fun r => r.1 == g && r.2.1 == i with
  | some r => r.2.2
  | none => 0

/-- The output pins: the groups of R281, then the model's own 5 (the VME port's), 6 (I2C), 7 (MGMT) and 8 (SPIF), of which
the last two keep their function under DEVICE-SAFE (R275). -/
def pinCount (g : Nat) : Nat :=
  match g with
  | 0 => 32 | 1 => 8 | 2 => 8 | 3 => 4 | 4 => 1 | 5 => 1 | 6 => 2 | 7 => 2 | 8 => 1 | _ => 0

/-- A pin leaves its function and takes its SAFE state. -/
def State.pinSafe (s : State) (g i : Nat) : State := { s with pins := AMap.put (256 * g + i) (s.safePin g i) s.pins }

/-- Every pin of a group. -/
def State.pinsSafe (s : State) (g : Nat) : State := (List.range (pinCount g)).foldl (fun s i => s.pinSafe g i) s

/-- A pin follows its function again. -/
def State.pinFree (s : State) (g i : Nat) : State := { s with pins := AMap.drop (256 * g + i) s.pins }

/-- Every engine and triad stops; no stop source fires (R275 items 1 and 2). -/
def State.stopAll (s : State) : State :=
  let s := (List.range s.nRegions).foldl (fun s n => s.stopEngine n 2) s
  let s := (List.range 8).foldl (fun s q => s.stopLengine q 2) s
  (List.range s.nTriads).foldl (fun s t => if isRunMode (s.triad t).mode then s.stopTriad t 5 5 else s) s

/-- The outputs under DEVICE-SAFE: ports stop, pins take their SAFE state, rack lanes go idle, ERROUT shows error (R275). -/
def State.safeOutputs (s : State) : State :=
  let s := s.vmeStop.canStop
  let s := [0, 1, 2, 3, 4, 5, 6, 7, 11, 12].foldl (fun s n => s.fabPortStop n) s
  let s := (List.range 7).foldl (fun s g => s.pinsSafe g) s
  s.lanesSafe.showError

/-- A low-power entry of the device ends with the reaction (R360, PSTAT.CAUSE 3). -/
def State.entriesEnd (s : State) : State := (List.range s.nTriads).foldl (fun s t => s.abandonEntry t 3) s

/-- Service operations under way on triads, regions, dies and engines are abandoned (R25). -/
def State.abandonAll (s : State) : State :=
  let s := (List.range s.nTriads).foldl (fun s t => (s.abandonTriad t).1) s
  let s := (List.range s.nRegions).foldl (fun s n => (s.abandonRegion n).1) s
  let s := s.resets.foldl (fun s r => s.resetDropped r.1 r.2) s
  s.abandonLoad

/-- DEVICE-SAFE (R275). The join links announce it in their CAP frames (R309). -/
def State.deviceSafe (s : State) : State :=
  let s : State := { s with fcol := { s.fcol with dsafe := true } }
  let s := s.setFld pgFcol 0x108 6 6 1
  s.abandonAll.entriesEnd.stopAll.safeOutputs

/-- Umber mode (R392): everything but the warden, FCOL, the timebase, region 0, triad 0, MGMT0, UART0 and SPIF is off. -/
def State.enterUmber (s : State) : State :=
  let held := s.bit pgBist 0x130 0
  let was := s.regionOn 0
  let s := s.entriesEnd.stopAll.safeOutputs
  let s := s.reactionLost.tablesLost
  let s := (List.range s.nTriads).foldl (fun s t => (s.triadOff t).setPowerState t 0) s
  let s := (List.range s.nRegions).foldl (fun s n => if n = 0 ∧ held = false then s else s.regionLost n) s
  let s := (List.range 8).foldl (fun s k => s.channelLost k) s
  let s := (List.range 32).foldl (fun s l => s.laneOff l) s
  let s : State := { s with
    switching := [], heldSwitch := [], resps := [], tags := [], flitRx := [], flitTx := [], fabio := true, fab := true, aoc := true
    fcol := { s.fcol with resetDue := none } }
  let s := s.setReg pgPwr 0x138 (if held then 0 else 1)
  let s := ((s.setReg pgPwr 0x128 (if held then 0 else 1)).setReg pgPwr 0x130 0).clampPairs
  let s := if held ∨ was then s else s.domDone 64 true
  let s := (s.dropPage (pgMgmt 0) (fun _ => false)).setFld (pgMgmt 0) 0x100 0 0 1
  let s := (s.dropPage (pgUart 0) (fun _ => false)).setFld (pgUart 0) 0x100 0 0 1
  let s := ((s.setUart 0 ⟨[], [], false, false, false⟩).pinFree 1 0).pinFree 2 0
  let s := (s.setFld pgWarden 0x108 3 0 4).setFld pgWarden 0x108 11 8 0
  if held then s
  else
    let s := (s.triadOn 0).setPowerState 0 2
    let s := s.setFld pgPwr (tpwr 0) 26 24 (s.fld pgPwr (tpwr 0) 2 0)
    let m := s.startMode 0
    match ofKind s.warden.images 9 with
    | [u] => if m = 5 then s else (s.loadTcms 0 (s.useAt u)).startCopies 0 (if m = 1 then 2 else m)
    | _ => s

/-- A start is under way or unconfirmed: a further failure counts (R390). -/
def State.starting (s : State) : Bool := decide (s.fld pgWarden 0x108 3 0 ≤ 2) && s.warden.failedAt.isNone

/-- A failed start (R390, R391): BOOTWHY, FAILCNT, then the hold of code 0x01, the retry, or Umber mode. -/
def State.failStart (s : State) (code kind slot : Nat) (detail : Nat) : State :=
  if s.starting = false then s
  else
    let s := s.setReg pgWarden 0x110
      (BitVec.ofNat 64 (code + slot % 2 * 2 ^ 8 + kind * 2 ^ 16 + detail % 2 ^ 32 * 2 ^ 32))
    if code = 1 then
      let s := s.stopAll.safeOutputs
      { s.setFld pgWarden 0x108 3 0 5 with warden := { s.warden with failedAt := none } }
    else
      let n := s.fld pgWarden 0x108 17 16 + 1
      let s := s.setFld pgWarden 0x108 17 16 n
      if n < 3 then
        let s := s.entriesEnd.stopAll.safeOutputs
        { s with warden := { s.warden with failedAt := some s.now } }
      else s.enterUmber

end Sys2Proof.Machine
end

