-- ==== Sys2Proof/Machine/Bist.lean ====
section
/-! DEFINITION. Run-time self-test (R274, R384 to R389, R450) and the preconditions of live service that the active tables set
(R22). -/

namespace Sys2Proof.Machine

/-- A range names a register page of die `d`. -/
def pageOnDie (dies d a len : Nat) : Bool :=
  decide (len ≠ 0) &&
  match classify a with
  | .page p => targetDie dies (.page p) == d
  | _ => false

/-- Die reset and power: no slot on the die's engines, no record that names the die (R22). -/
def State.dieFree (s : State) (d : Nat) : Bool :=
  decide (s.timeB.actGen = 0) ||
  (((List.range 8).all fun j => secNslot (s.engine (8 * d + j)).active == 0) &&
   s.activeBanks.all fun b =>
     ((List.range (secNjob b)).all fun i =>
        let j := jobRec b i
        decide (j.triad / 32 ≠ d) && (decide (j.spare = 0xFF) || decide (j.spare / 32 ≠ d))) &&
     (bankRanges b).all fun r =>
        !pageOnDie s.dies d r.1 r.2 && (List.range 8).all fun j => !touchesRegion (8 * d + j) r.1 r.2)

/-- The precondition of a run-time run (R22, R384). -/
def State.bistPre (s : State) (r : BistRun) : Bool :=
  if r.kind = 0 then
    let st := (s.copy (3 * r.inst + r.copy)).st
    decide (r.inst < s.nTriads) && decide (r.copy < 3) && decide ((s.triad r.inst).mode ≠ 0) &&
    (decide (st = .out) || decide (st = .ejected)) && decide ((s.triad r.inst).entry = 0)
  else if r.kind = 1 then decide (r.inst < s.nRegions) && s.regionOn r.inst && s.regionFree r.inst
  else false

/-- A run starts: its number, no result yet, saving (R385, R386). -/
def State.bistStart (s : State) (r : BistRun) : State :=
  let s : State := { s with bist := { s.bist with run := some r } }
  let s := s.count pgBist 0x120
  (s.setFld pgBist 0x108 9 8 0).setFld pgBist 0x108 2 0 1

/-- The lowest triad of a queue. -/
def lowestQueued : List (Nat × Nat) → Option (Nat × Nat)
  | [] => none
  | e :: es => match lowestQueued es with
    | some f => if f.1 < e.1 then some f else some e
    | none => some e

/-- The next queued run starts; those whose precondition no longer holds are dropped (R450). -/
def State.bistNext (s : State) : State :=
  let q := s.bist.queue.filter fun e => s.bistPre ⟨0, e.1, e.2, 0, true⟩
  match lowestQueued q with
  | none => { s with bist := { s.bist with queue := [] } }
  | some e =>
    let s : State := { s with bist := { s.bist with queue := q.filter fun f => f != e } }
    s.bistStart ⟨0, e.1, e.2, 0, true⟩

/-- The run under way ends with a result (BSTAT.RESULT): 1 pass, 2 fail, 3 aborted. -/
def State.bistEnd (s : State) (result : Nat) : State :=
  let s : State := { s with bist := { s.bist with run := none } }
  (s.setFld pgBist 0x108 9 8 result).setFld pgBist 0x108 2 0 4

/-- The run under way is aborted; the target stays as it was (R387). -/
def State.bistAbort (s : State) : State := if s.bist.run.isNone then s else (s.bistEnd 3).bistNext

/-- What reaches triad `t` aborts its run and drops its queued one (R387, R450). -/
def State.bistTriad (s : State) (t : Nat) : State :=
  let s : State := { s with bist := { s.bist with queue := s.bist.queue.filter fun e => e.1 != t } }
  match s.bist.run with
  | some r => if r.kind = 0 ∧ r.inst = t then s.bistAbort else s
  | none => s

/-- What reaches region `n` aborts the run of one of its blocks (R387). -/
def State.bistRegion (s : State) (n : Nat) : State :=
  match s.bist.run with
  | some r => if r.kind = 1 ∧ r.inst = n then s.bistAbort else s
  | none => s

/-- A run whose target was reset, switched off, entered low power or left Out and Ejected is aborted (R387). -/
def State.bistSettle (s : State) : State :=
  let q := s.bist.queue.filter fun e => decide ((s.copy (3 * e.1 + e.2)).st = .ejected)
  let s : State := { s with bist := { s.bist with queue := q } }
  match s.bist.run with
  | some r => if s.bistPre r then s else s.bistAbort
  | none => s

/-- RETEST orders a run of the ejected copy: at once, or queued with at most one for each triad (R274, R450). -/
def State.bistRetest (s : State) (t c : Nat) : State :=
  if s.bistPre ⟨0, t, c, 0, true⟩ = false then s
  else if s.bist.run.isNone then s.bistStart ⟨0, t, c, 0, true⟩
  else { s with bist := { s.bist with queue := (s.bist.queue.filter fun e => e.1 != t) ++ [(t, c)] } }

/-- The warden's state is running (R387). -/
def State.wardenRuns (s : State) : Bool := s.fld pgWarden 0x108 3 0 == 2 || s.fld pgWarden 0x108 3 0 == 3

/-- GO (R387, R450). -/
def State.bistGo (s : State) (v : Word) : State × WOut :=
  let r : BistRun := ⟨bitsOf v 10 8, bitsOf v 21 16, bitsOf v 25 24, bitsOf v 40 32, false⟩
  if s.bist.run.isSome ∨ s.bist.queue.isEmpty = false ∨ s.wardenRuns = false ∨ s.bistPre r = false then
    (s.setFld pgBist 0x108 16 16 1, .refused)
  else (s.bistStart r, .accepted)

/-- BSIG and BTOKEN of the run: the patterns are stated by no rule (assumption 24). -/
def State.bistSign (s : State) : State :=
  match s.freeValue with
  | (s, a) => match s.freeValue with
    | (s, b) => (s.setReg pgBist 0x110 a).setReg pgBist 0x118 b

/-- The page that a run's report names (R389). -/
def BistRun.page (r : BistRun) : Nat :=
  if r.kind = 0 then pgCore (3 * r.inst + r.copy) else pgRegion r.inst * 0x1000 + r.block

/-- A failed run (R385, R389): reported; a copy is Retired and not restored. -/
def State.bistFail (s : State) (r : BistRun) : State :=
  let s := s.setFld pgBist 0x138 63 32 ((s.fld pgBist 0x138 63 32 + 1) % 2 ^ 32)
  let s := s.report 0x1F0 1 0xFF (BitVec.ofNat 64 r.page)
  if r.kind = 0 then
    let e := s.fresh
    let k := 3 * r.inst + r.copy
    let s : State := { s.setCopy k { s.copy k with tcm := Ram.unwritten (e + 1), writeBack := [] } with fresh := e + 1 }
    s.retireCopy r.inst r.copy
  else s

/-- A run ends with a pass or a fail (R386, R389, R450). -/
def State.bistDone (s : State) (pass : Bool) : State :=
  match s.bist.run with
  | none => s
  | some r =>
    let s := (s.bistEnd (if pass then 1 else 2)).bistSign
    let s := s.setFld pgBist 0x138 31 0 ((s.fld pgBist 0x138 31 0 + 1) % 2 ^ 32)
    let s :=
      if pass = false then s.bistFail r
      else if r.kind = 0 ∧ r.retest = true ∧ s.mordOk r.inst r.copy = true then s.mordStart r.inst r.copy
      else s
    s.bistNext

/-- A write of a BIST register. -/
def State.wBist (s : State) (row : RegRow) (w : Wr) (old new : Word) : State × WOut :=
  match w.off with
  | 0x100 => if w.sets 0 then s.bistGo (w.v &&& w.cover) else (s, .accepted)
  | _ => s.plainWrite .bist row w old new

end Sys2Proof.Machine
end

