-- ==== Sys2Proof/Machine/Fcol.lean ====
section
/-! DEFINITION. FCOL (R264 to R289): taking an event, the actions, the reaction table's load check and switch, sweeps, the
fault log's registers. -/

namespace Sys2Proof.Machine

/-- A reaction-table entry (R280). -/
structure REntry where
  cls : Nat
  action : Nat
  railact : Nat
  notify : Nat
  ntriad : Nat
  thresh : Nat
  rmask : Nat
deriving DecidableEq, Repr

/-- The fields of an entry's eight bytes. -/
def rentryOf (w : Word) : REntry :=
  ⟨bitsOf w 7 0, bitsOf w 15 8, bitsOf w 23 16, bitsOf w 31 24, bitsOf w 39 32, bitsOf w 47 40, bitsOf w 63 48⟩

/-- Where a bank of reaction pages (`p` its first page) holds the entry of a source (R282). -/
def rentryAt (p src : Nat) : Nat × Nat := (p + src / 256, 0x100 + 8 * (src % 256))

/-- The built-in table's action of a source (R285). -/
def builtinAction (src : Nat) : Nat :=
  match srcClass src with
  | 3 => if src < 0x140 then 4 else if src < 0x1A8 then 6 else 5
  | 4 => 7
  | _ => 0

/-- The entry in force for a source (R282, R285). -/
def State.rentry (s : State) (src : Nat) : REntry :=
  if s.fcol.gen = 0 then ⟨srcClass src, builtinAction src, builtinAction src, 0, 0, 0, 0⟩
  else rentryOf (s.reg (rentryAt 4 src).1 (rentryAt 4 src).2)

/-- The die of the initiator that waits for a response; 2 the I/O die. -/
def originDie : Origin → Nat
  | .tmi t _ => t / 32
  | .engine e _ _ _ => e / 8
  | .peer _ _ _ _ => 2

/-- A die bridge closes: what is in flight across it is answered with an error at its initiator (R19): requests on their way and in
queues, accesses that wait in the VME port's queue (posted ones were acknowledged before), accesses to peers. -/
def State.closeBridge (s : State) (d : Nat) : State :=
  if s.bridgeShut.contains d then s
  else
    let s : State := { s with bridgeShut := s.bridgeShut ++ [d] }
    let cut (r : FabReq) : Bool := s.bridgeCuts r.iid (classify r.addr)
    let gone := (s.port.flatMap fun e => e.2.filter cut) ++ (s.ddrQ.flatMap fun e => e.2.filter cut) ++ s.vmeIn.filter cut
    let keep (m : AMap (List FabReq)) : AMap (List FabReq) :=
      (m.map fun e => (e.1, e.2.filter fun r => !cut r)).filter fun e => !e.2.isEmpty
    let waits (e : VmeEntry) : Bool := match e.work with
      | .access r => !e.posted && cut r
      | _ => false
    let ended := (s.vme.queue.filter waits).filterMap fun e => match e.work with
      | .access r => some r.origin
      | _ => none
    let far := (List.range 16).flatMap fun i => ((s.link i).peerOut.filter fun p => originDie p.origin == d).map fun p => p.origin
    let s : State := { s with port := keep s.port, ddrQ := keep s.ddrQ, vmeIn := s.vmeIn.filter fun r => !cut r }
    let s := s.setVmeQueue (s.vme.queue.filter fun e => !waits e)
    let s := (List.range 16).foldl (fun s i =>
      let k := s.link i
      s.setLink i { k with peerOut := k.peerOut.filter fun p => originDie p.origin != d }) s
    ((gone.map fun r => r.origin) ++ ended ++ far).foldl (fun s o => s.respond o .err) s

/-- The compute die of a die source whose action closes its bridge first (R19, R277). -/
def bridgeDie (src act : Nat) : Option Nat :=
  if 0x1A0 ≤ src ∧ src < 0x1A8 ∧ (act = 6 ∨ act = 7 ∨ act = 8) then some ((src - 0x1A0) / 4) else none

/-- The triad stops unless it has stopped (R270 SWAP); a service operation on it is abandoned (R25): the state, and whether that was
an effect. -/
def State.swapTriad (s : State) (t : Nat) : State × Bool :=
  match s.abandonTriad t with
  | (s, was) =>
    if isRunMode (s.triad t).mode then (((s.abandonEntry t 3).stopTriad t 5 5).bistTriad t, true) else (s, was)

/-- REGION-SAFE on one region that is on (R18, R250, R277). -/
def State.regionSafe (s : State) (n : Nat) : State × Bool :=
  if s.regionOn n = false ∨ s.bit (pgFwall n) 0x108 0 then (s, false)
  else
    let s := (((s.setFld (pgFwall n) 0x108 0 0 1).abandonRegion n).1.abandonLoad).stopEngine n 2
    let s := (List.range 4).foldl (fun s j => ((s.swapTriad (4 * n + j)).1).bistTriad (4 * n + j)) s
    (s.bistRegion n, true)

/-- REGION-SAFE on a list of regions: an effect where it takes one on some region. -/
def State.regionsSafe (s : State) (ns : List Nat) : State × Bool :=
  ns.foldl (fun r n =>
    let x := r.1.regionSafe n
    (x.1, r.2 || x.2)) (s, false)

/-- The regions that REGION-SAFE of a source covers (R270). -/
def State.safeRegions (s : State) (src rmask : Nat) : List Nat :=
  if src < 0x140 then [src / 20]
  else if src < 0x1A0 then [(src - 0x140) / 6]
  else if src < 0x1A8 then (List.range 8).map fun j => 8 * ((src - 0x1A0) / 4) + j
  else (List.range s.nRegions).filter fun n => bitAt rmask n

/-- The port that UNIT names, in the order of ISOMASK1.PORT (R270, R286). -/
def fabPortOf (unit : Nat) : Option Nat :=
  if unit < 8 then some unit
  else if unit = 0x10 ∨ unit = 0x11 then some (unit - 8)
  else if 0x20 ≤ unit ∧ unit ≤ 0x22 then some (unit - 0x20 + 10)
  else if unit = 0x30 then some 13
  else none

/-- The pins of a FABIO port. -/
def fabPortPins (n : Nat) : List (Nat × Nat) :=
  if n < 8 then [(1, n), (2, n)]
  else if n < 10 then [(7, n - 8)]
  else if n = 10 then [(8, 0)]
  else if n < 13 then [(6, n - 11)]
  else (List.range 32).map fun i => (0, i)

/-- ISOLATE (R270). -/
def State.isolate (s : State) (src unit : Nat) : State × Bool :=
  if src < 0x140 then
    let t := src / 5
    let was := (s.triad t).isolated
    let x := s.swapTriad t
    let s := x.1
    (((s.setTriad t { s.triad t with isolated := true }).setFld pgFcol 0x1B8 t t 1).bistTriad t, x.2 || !was)
  else if 0x1B0 ≤ src ∧ src < 0x1D0 then
    let k := (src - 0x1B0) / 4
    if s.dstate k = 8 ∨ s.bit (pgDdrc k) 0x100 0 = false then (s, false) else (s.ddrRetire k, true)
  else if 0x1D0 ≤ src ∧ src < 0x1E8 then
    let q := (src - 0x1D0) / 3
    if s.quadIsolated q then (s, false) else (s.isolateQuad q, true)
  else if src = 0x1EC then
    match fabPortOf unit with
    | none => (s, false)
    | some n =>
      if s.bit pgFcol 0x1C0 (16 + n) then (s, false)
      else
        let s := (s.setFld pgFcol 0x1C0 (16 + n) (16 + n) 1).fabPortStop n
        ((fabPortPins n).foldl (fun s p => s.pinSafe p.1 p.2) s, true)
  else if s.bit pgFcol 0x1C0 8 then (s, false)
  else
    let s := (s.setFld pgFcol 0x1C0 8 8 1).vmeStop.canStop
    ((s.pinsSafe 3).pinsSafe 5, true)

/-- DEMOTE (R270): nothing on a divergence source; the ejection of the copy a health record names; else SWAP. -/
def State.demote (s : State) (e : FaultEv) : State × Bool :=
  let t := e.src / 5
  if e.src % 5 < 3 then (s, true)
  else if e.src % 5 = 4 ∧ e.unit < 3 ∧ (s.triad t).mode = 1 then
    (s.eject t e.unit (s.copy (3 * t + e.unit)).retcnt 3 e.injected, true)
  else s.swapTriad t

/-- DEVICE-SAFE as an action (R275, R390 code 0x0C). -/
def State.safeAction (s : State) (src : Nat) : State :=
  let s : State := { s.deviceSafe with bist := { s.bist with queue := [] } }
  s.bistAbort.failStart 0xC 0xFF 0 src

/-- RESET (R270): DEVICE-SAFE at once, the device reset 1 ms later; Umber mode is not left by it (R393). -/
def State.resetAction (s : State) (src : Nat) : State × Bool :=
  if s.fcol.resetDue.isSome then (s, false)
  else
    let had := s.dsafe
    let s := if had then s else s.safeAction src
    if s.fld pgWarden 0x108 3 0 = 4 then (s, !had)
    else
      let s : State := { s with fcol := { s.fcol with resetDue := some (s.now + 1000000), resetSrc := src } }
      (s.setFld pgFcol 0x108 7 7 1, true)

/-- An action takes effect (R270, R272): the state, and whether anything changed for it. -/
def State.react (s : State) (e : FaultEv) (act rmask : Nat) : State × Bool :=
  if s.dsafe ∧ 3 ≤ act ∧ act ≠ 8 then (s, false)
  else
    let s := match bridgeDie e.src act with
      | some d => s.closeBridge d
      | none => s
    match act with
    | 3 => s.demote e
    | 4 => s.swapTriad (e.src / 5)
    | 5 => s.isolate e.src e.unit
    | 6 => s.regionsSafe (s.safeRegions e.src rmask)
    | 7 => (s.safeAction e.src, true)
    | 8 => s.resetAction e.src
    | _ => (s, true)

/-- The vector of a notify (R270, R280): 0 none. -/
def notifyVec (act notify : Nat) : Nat :=
  match act with
  | 0 => 0
  | 1 => 24
  | 2 => if notify % 4 = 3 then 6 else 25
  | _ => match notify % 4 with
    | 0 => 0 | 1 => 24 | 2 => 25 | _ => 6

/-- What an event receives: its action, whether it is below the threshold, whether notify and RETEST act (R267, R273, R289). -/
structure Verdict where
  act : Nat
  below : Bool
  mute : Bool
deriving DecidableEq, Repr

/-- The threshold count of a source. -/
def State.thrOf (s : State) (src : Nat) : Nat := AMap.get s.fcol.thr (fun _ => 0) src
def State.setThr (s : State) (src n : Nat) : State :=
  { s with fcol := { s.fcol with thr := AMap.set s.fcol.thr (fun _ => 0) src n } }

/-- Judge an event by its entry (R267, R273, R289). -/
def State.judge (s : State) (e : FaultEv) (r : REntry) : State × Verdict :=
  if e.injected ∧ s.bit pgFcol 0x100 1 then (s, ⟨0, false, true⟩)
  else if e.rail then (s, ⟨r.railact, false, false⟩)
  else if r.cls ≤ 2 ∧ 2 ≤ r.thresh then
    if s.thrOf e.src + 1 < r.thresh then (s.setThr e.src (s.thrOf e.src + 1), ⟨0, true, false⟩)
    else (s.setThr e.src 0, ⟨r.action, false, false⟩)
  else (s, ⟨r.action, false, false⟩)

/-- The action stops triad `t` (R274). -/
def stopsTriad (act : Nat) : Bool := decide (4 ≤ act)

/-- RETEST of a divergence event (R273, R274). -/
def State.retest (s : State) (e : FaultEv) (r : REntry) (v : Verdict) : State :=
  if e.src < 0x140 ∧ e.src % 5 < 3 ∧ bitAt r.notify 2 = true ∧ v.mute = false ∧ e.rail = false ∧ stopsTriad v.act = false
      ∧ (s.copy (3 * (e.src / 5) + e.src % 5)).st = .ejected then
    s.bistRetest (e.src / 5) (e.src % 5)
  else s

/-- FCOL takes the event that waits first: action, notify, RETEST, record (R267, R271 to R274, R286). -/
def State.takeEvent (s : State) : State :=
  match s.fcol.waiting with
  | [] => s
  | e :: rest =>
    let r := s.rentry e.src
    let f := s.fcol
    let s : State := { s with fcol := { f with
      waiting := rest
      evcnt := AMap.set f.evcnt (fun _ => 0) e.src (min (AMap.get f.evcnt (fun _ => 0) e.src + 1) 0xFFFFFFFF)
      masked := if e.rail && !f.masked.contains e.src then f.masked ++ [e.src] else f.masked } }
    match s.judge e r with
    | (s, v) =>
      match s.react e v.act r.rmask with
      | (s, did) =>
        let vec := if v.below || v.mute then 0 else notifyVec v.act r.notify
        let drop := decide (vec ≠ 0) && (s.leader r.ntriad).isNone
        let s := if vec = 0 then s else s.irq r.ntriad vec
        let s := s.retest e r v
        let flags := b2n e.rail + 2 * b2n e.injected + 8 * b2n v.below + 16 * b2n e.merged + 32 * b2n drop + 64 * b2n (!did)
        s.writeRecord e.src (srcClass e.src) v.act flags e.unit e.code e.detail

/-- The running copy whose divergence source is `src`. -/
def State.copySource (s : State) (src : Nat) : Option (Nat × Nat) :=
  if src < 0x140 ∧ src % 5 < 3 ∧ (s.copy (3 * (src / 5) + src % 5)).st = .running then some (src / 5, src % 5) else none

/-- A check error or rail fault inside a running copy is a divergence at its index, KIND copy-local fault (R51). -/
def State.copyCheck (s : State) (t c : Nat) : State := s.copyFault t c (s.copy (3 * t + c)).retcnt 3 false

/-- A source reports an event (R264), with what its check does in the triad besides: a register-file or predicate-file check of a copy
diverges it (R51), an internal check of voter or TMI stops the triad (R68), an error on the transfer path ends mordanting (R77). -/
def State.faultEvent (s : State) (src code unit : Nat) (detail : Word) : State :=
  let t := src / 5
  match s.copySource src with
  | some (t, c) => if code = 4 then s.copyCheck t c else s.report src code unit detail
  | none =>
    if src < 0x140 ∧ src % 5 = 3 ∧ code = 5 ∧ isRunMode (s.triad t).mode = true then
      (s.stopTriad t 7 1).report src code unit detail
    else if src < 0x140 ∧ src % 5 = 4 ∧ code = 2 ∧ (s.triad t).mordBusy = true then s.mordError t
    else s.report src code unit detail

/-- A rail fault of a pair broken for more than 20 ns; `pair` its state afterwards (R264, R267). The pair of a running copy's
divergence source is a checker inside that copy: its rail fault diverges the copy too (R51; DEDUCED, assumption 53). -/
def State.railFault (s : State) (src pair : Nat) : State :=
  if s.fcol.masked.contains src ∨ s.srcLive src = false ∨ srcPresent s.dies src = false then s
  else
    let s : State := { s with fcol := { s.fcol with pairs := AMap.set s.fcol.pairs (fun _ => 1) src (pair % 4) } }
    let s := s.reportEv ⟨src, 0, 0xFF, 0, true, false, false⟩
    match s.copySource src with
    | some (t, c) => s.copyCheck t c
    | none => s

/-- A rail sweep (R266): the pairs that do not show both states are rail faults. TIME reaches the sweep's moment. -/
def State.railSweep (s : State) (bad : List Nat) : State :=
  if s.bit pgFcol 0x100 2 = false then s
  else
    let s := s.advance (s.fcol.lastSweep + s.fld pgFcol 0x1C8 15 0 * 1000000)
    let s : State := { s with fcol := { s.fcol with lastSweep := s.now } }
    bad.foldl (fun s src => s.railFault src 1) s

/-- LEAKMS of the active table (R279). -/
def State.leakMs (s : State) : Nat := if s.fcol.gen = 0 then 0 else s.fld 0x0004 0x910 47 32

/-- The leak clear (R273). -/
def State.leakClear (s : State) : State :=
  if s.leakMs = 0 then s
  else
    let s := s.advance (s.fcol.lastLeak + s.leakMs * 1000000)
    { s with fcol := { s.fcol with thr := [], lastLeak := s.now } }

/-- The healthy ERROUT pair is inverted (R276). -/
def State.erroutToggle (s : State) : State :=
  if s.fcol.errShown then s else { s with fcol := { s.fcol with errPhase := !s.fcol.errPhase } }

/-- RSWSTAT: STATE, and with a check its code and entry. -/
def State.setRsw (s : State) (st : Nat) : State := s.setFld pgFcol 0x118 2 0 st

/-- Actions that apply to a source (R270). -/
def actionApplies (src act : Nat) : Bool :=
  match act with
  | 0 => true | 1 => true | 2 => true | 7 => true | 8 => true
  | 3 => decide (src < 0x140)
  | 4 => decide (src < 0x140)
  | 5 => decide (src < 0x140) || (decide (0x1B0 ≤ src) && decide (src ≤ 0x1EC))
  | 6 => decide (src < 0x1A8) || decide (srcClass src = 2) || decide (srcClass src = 3)
  | _ => false

/-- Actions that a class permits (R269); `rail`: judged for RAILACT. -/
def actionPermitted (src act : Nat) (rail : Bool) : Bool :=
  match srcClass src with
  | 0 => if rail then true else decide (act ≤ 2)
  | 1 => if rail then true else decide (act ≤ 2)
  | 2 => true
  | 3 =>
    if src < 0x140 then decide (4 ≤ act)
    else if src < 0x1A8 then decide (6 ≤ act)
    else act == 5 || act == 7 || act == 8
  | _ => act == 7 || act == 8

/-- REGION-SAFE applies through RAILACT to a class 0 or 1 source as to a class 2 one (R269). -/
def railApplies (src act : Nat) : Bool := actionApplies src act || (decide (act = 6) && decide (srcClass src ≤ 1))

/-- The inactive bank's entry of a source, and its SAFE records (R282). -/
def State.newEntry (s : State) (src : Nat) : Word := s.reg (rentryAt 6 src).1 (rentryAt 6 src).2
def State.newSafe (s : State) (i : Nat) : Nat := (s.reg 0x0007 (0x900 + 4 * i / 8 * 8)).toNat / 2 ^ (32 * (i % 2)) % 2 ^ 32
/-- A header field of the inactive bank. -/
def State.newHdr (s : State) (o n : Nat) : Nat :=
  (s.reg 0x0006 (0x900 + o / 8 * 8)).toNat / 2 ^ (8 * (o % 8)) % 2 ^ (8 * n)
def State.newNsafe (s : State) : Nat := min (s.newHdr 0x12 2) 256

/-- The body's bytes with CHECK zero (R279, R282). -/
def State.newBody (s : State) : List Nat :=
  let word (w : Word) : List Nat := bytesOf w.toNat 8
  ((List.range 8).flatMap fun i => if i = 7 then List.replicate 8 0 else word (s.reg 0x0006 (0x900 + 8 * i))) ++
  ((List.range 512).flatMap fun i => word (s.newEntry i)) ++
  (List.range s.newNsafe).flatMap fun i => bytesOf (s.newSafe i) 4

/-- The first source, then SAFE record, that fails a check: CHKSRC. -/
def State.firstEntry (s : State) (f : Nat → REntry → Bool) : Option Nat :=
  (List.range 512).find? fun i => f i (rentryOf (s.newEntry i))

def State.firstSafe (s : State) (f : Nat → Nat → Bool) : Option Nat :=
  ((List.range s.newNsafe).find? fun i => f i (s.newSafe i)).map fun i => 0x8000 + i

/-- A check of the header alone. -/
def hdrFail (bad : Bool) : Option Nat := if bad then some 0xFFFF else none

/-- The present sources' entries only. -/
def State.firstPresent (s : State) (f : Nat → REntry → Bool) : Option Nat :=
  s.firstEntry fun i e => srcPresent s.dies i && f i e

/-- NOTIFY agrees with ACTION (R280). -/
def notifyOk (r : REntry) : Bool :=
  match r.action with
  | 0 => decide (r.notify % 4 = 0)
  | 1 => decide (r.notify % 4 = 1)
  | 2 => decide (2 ≤ r.notify % 4)
  | _ => true

/-- RMASK breaks code 0x08. -/
def State.rmaskBad (s : State) (i : Nat) (r : REntry) : Bool :=
  let wants := r.action == 6 || r.railact == 6
  if i < 0x1A8 then r.rmask != 0
  else (decide (r.rmask ≠ 0) && !wants) || (decide (r.rmask = 0) && wants) || decide (2 ^ s.nRegions ≤ r.rmask)

/-- A SAFE record breaks code 0x0A: an absent pin, a STATE above 2, a pin named before. -/
def State.safeBad (s : State) (i v : Nat) : Bool :=
  decide (pinCount (v % 256) ≤ v / 256 % 256) || decide (2 < v / 65536 % 256) ||
  (List.range i).any fun j => decide (s.newSafe j % 65536 = v % 65536)

/-- The load check of the inactive bank (R283): the first code that fails with its CHKSRC. -/
def State.reactionCheck (s : State) : Option (Nat × Nat) :=
  let h := s.newHdr
  let code (c : Nat) (o : Option Nat) : Option (Nat × Nat) := o.map fun x => (c, x)
  code 1 (hdrFail (decide (h 0 4 ≠ 0x4254525A) || decide (h 4 2 ≠ 1) || decide (h 0x18 4 ≠ 0x1040 + 4 * h 0x12 2) ||
    decide (crcOf 3 s.newBody ≠ h 0x38 8))) <|>
  code 2 (hdrFail (decide (h 8 8 ≤ s.fcol.gen.toNat))) <|>
  code 3 (hdrFail (decide (h 0x10 1 ≠ s.devid) || decide (h 0x11 1 ≠ s.dies)) <|>
    (List.range 512).find? fun i => !srcPresent s.dies i && s.newEntry i != 0) <|>
  code 4 (hdrFail (decide (h 6 2 ≠ 0) || decide (h 0x16 2 ≠ 0) || decide (h 0x1C 4 ≠ 0) ||
      [0x20, 0x28, 0x30].any fun o => decide (h o 8 ≠ 0)) <|>
    s.firstEntry (fun _ e => decide (8 ≤ e.notify) || decide (8 < e.action) || decide (8 < e.railact)) <|>
    s.firstSafe (fun _ v => decide (5 ≤ v % 256) || decide (v / 2 ^ 24 ≠ 0))) <|>
  code 5 (s.firstPresent fun i e => e.cls != srcClass i) <|>
  code 6 (s.firstPresent fun i e => !actionPermitted i e.action false || !actionApplies i e.action ||
    !actionPermitted i e.railact true || !railApplies i e.railact) <|>
  code 7 (s.firstPresent fun i e => !notifyOk e || decide (s.nTriads ≤ e.ntriad) ||
    (bitAt e.notify 2 && !(decide (i < 0x140) && decide (i % 5 < 3)))) <|>
  code 8 (s.firstPresent s.rmaskBad) <|>
  code 9 (s.firstPresent fun i e => decide (3 ≤ srcClass i) && decide (1 < e.thresh)) <|>
  code 0xA (hdrFail (decide (h 0x14 2 = 0) || decide (256 < h 0x12 2)) <|> s.firstSafe s.safeBad)

/-- RTBLCHK (R283). -/
def State.rtblChk (s : State) : State :=
  let armed := decide (s.fld pgFcol 0x118 2 0 = 2)
  match s.reactionCheck with
  | some (c, x) =>
    let s : State := { s with fcol := { s.fcol with checked := none } }
    let s := (s.setFld pgFcol 0x118 23 16 c).setFld pgFcol 0x118 47 32 x
    if armed then s else s.setRsw 0
  | none =>
    let s : State := { s with fcol := { s.fcol with checked := some (s.reg 0x0006 0x908) } }
    let s := (s.setFld pgFcol 0x118 23 16 0).setFld pgFcol 0x118 47 32 0
    if armed then s else s.setRsw 1

/-- RSWGEN (R284): arms the switch, or cancels one with a generation that was not checked. -/
def State.rswgenWrite (s : State) (v : Word) : State :=
  if s.fcol.checked = some v then s.setRsw 2 else s.setRsw 4

/-- A write to an inactive page clears the check result and cancels an armed switch (R282). -/
def State.reactionWritten (s : State) : State :=
  let st := s.fld pgFcol 0x118 2 0
  let s : State := { s with fcol := { s.fcol with checked := none } }
  let s := (s.setFld pgFcol 0x118 23 16 0).setFld pgFcol 0x118 47 32 0
  if st = 2 then s.setRsw 4 else if st = 1 then s.setRsw 0 else s

/-- The registers of a page from 0x100 on, moved to another page. -/
def movedPage (regs : AMap Word) (p q : Nat) : AMap Word :=
  (regs.filter fun e => e.1 / 0x1000 == p && decide (0x100 ≤ e.1 % 0x1000)).map fun e => (q * 0x1000 + e.1 % 0x1000, e.2)

/-- Two pages exchange their registers. -/
def State.swapPages (s : State) (p q : Nat) : State :=
  let a := movedPage s.regs p q
  let b := movedPage s.regs q p
  let rest := s.regs.filter fun e => !((e.1 / 0x1000 == p || e.1 / 0x1000 == q) && decide (0x100 ≤ e.1 % 0x1000))
  { s with regs := (a ++ b).foldl (fun m e => AMap.put e.1 e.2 m) rest }

/-- The reaction banks exchange (R284). -/
def State.reactionExchange (s : State) : State :=
  if s.fld pgFcol 0x118 2 0 ≠ 2 then s
  else if s.fcol.checked ≠ some (s.reg pgFcol 0x110) then s.setRsw 4
  else
    let s := (s.swapPages 4 6).swapPages 5 7
    let s : State := { s with fcol := { s.fcol with gen := s.reg pgFcol 0x110, checked := none, thr := [], lastLeak := s.now } }
    s.setRsw 3

/-- The exchange within 1 µs of arming, while no schedule table is active; else at a frame's start (R284). -/
def State.reactionDue (s : State) : State :=
  if s.timeB.actGen = 0 ∨ s.now = s.timeB.frameStart then s.reactionExchange else s

/-- A log record's four words. -/
def State.putRec (s : State) (o : Nat) (r : LogRec) : State :=
  (((s.setReg pgFcol o r.w0).setReg pgFcol (o + 8) r.w1).setReg pgFcol (o + 16) r.w2).setReg pgFcol (o + 24) r.w3

/-- The record in a slot of the ring; an empty slot reads 0. -/
def State.logSlot (s : State) (m : Nat) : LogRec := (AMap.find? s.fcol.log (m % 256)).getD ⟨0, 0, 0, 0⟩

/-- FLOGSEL (R287). -/
def State.flogSel (s : State) (m : Nat) : State := s.putRec 0x148 (s.logSlot m)

/-- CLRFIRST and CLRLOG (FCTL). -/
def State.clrFirst (s : State) : State := { s with fcol := { s.fcol with first := none } }
def State.clrLog (s : State) : State := { s with fcol := { s.fcol with log := [], head := 0 } }

/-- A write of an FCOL register. -/
def State.wFcol (s : State) (row : RegRow) (w : Wr) (old new : Word) : State × WOut :=
  match w.off with
  | 0x100 =>
    let s := s.storeReg .fcol row w old (withBits new 4 3 0)
    let s := if w.sets 3 then s.clrLog else s
    (if w.sets 4 then s.clrFirst else s, .accepted)
  | 0x110 => ((s.storeReg .fcol row w old new).rswgenWrite new, .accepted)
  | 0x120 => (if w.sets 0 then s.rtblChk else s, .accepted)
  | 0x140 => ((s.storeReg .fcol row w old new).flogSel (bitsOf new 7 0), .accepted)
  | 0x1C8 => if bitsOf new 15 0 = 0 then (s, .accepted) else s.plainWrite .fcol row w old new
  | _ => s.plainWrite .fcol row w old new

/-- A write of an inactive reaction page (R282). -/
def State.wReaction (s : State) (k : PageKind) (row : RegRow) (w : Wr) (old new : Word) : State × WOut :=
  match k with
  | .rti0 => ((s.storeReg k row w old new).reactionWritten, .accepted)
  | .rti1 => ((s.storeReg k row w old new).reactionWritten, .accepted)
  | _ => s.plainWrite k row w old new

/-- SRCSTAT of the source in SRCSEL. -/
def State.srcStat (s : State) : Word :=
  let src := s.fld pgFcol 0x128 8 0
  let f := s.fcol
  let pair := if f.waiting.any fun e => e.src == src && !e.rail then 2 else AMap.get f.pairs (fun _ => 1) src
  BitVec.ofNat 64 (pair + b2n (f.masked.contains src) * 4 + s.thrOf src % 256 * 2 ^ 8 +
    AMap.get f.evcnt (fun _ => 0) src * 2 ^ 32)

/-- A read of an FCOL register. -/
def State.rFcol (s : State) (off : Nat) (v : Word) : Word :=
  let f := s.fcol
  let r := f.first.getD ⟨0, 0, 0, 0⟩
  match off with
  | 0x108 =>
    withBits (withBits (withBits v 25 16 f.waiting.length) 6 6 (b2n f.dsafe)) 5 5 (b2n f.errShown)
  | 0x130 => s.srcStat
  | 0x138 => BitVec.ofNat 64 f.head
  | 0x170 => r.w0
  | 0x178 => r.w1
  | 0x180 => r.w2
  | 0x188 => r.w3
  | _ => v

end Sys2Proof.Machine
end

