-- ==== Sys2Proof/Machine/Reset.lean ====
section
/-! DEFINITION. Resets (R371 to R374, R393, R394): device, die, region and triad resets, their requests and records. -/

namespace Sys2Proof.Machine

/-- The registers that survive a device reset (R394): RWS fields, RADM, RETIRED, WAKEWHY, RSTWHY, FAILCNT and BOOTWHY. -/
def survives (k : PageKind) (off : Nat) : Bool :=
  match k with
  | .triad => off == 0x180
  | .device => off == 0x108
  | .warden => off == 0x110
  | .pwr => off == 0x120
  | _ => false


/-- Everything that a device reset returns to its reset state (R371, R394); the start sequence enters at step 2. -/
def State.deviceReset (s : State) (cause src : Nat) : State :=
  let count := s.fld pgDevice 0x108 31 16
  let fails := s.fld pgWarden 0x108 17 16
  let retired := (List.range 8).filter fun k => s.bit (pgDdrc k) 0x110 9
  let keep (key : Nat) : Bool := match pageKind s.dies (key / 0x1000) with
    | some (k, _) => survives k (key % 0x1000)
    | none => false
  let e := s.fresh
  let s : State := { s with
    fresh := e + 16 + 8
    regs := s.regs.filter fun x => keep x.1
    pggen := [], injMade := []
    copies := []
    triads := (s.triads.map fun x => (x.1, { Triad.off with readm := x.2.readm })).filter fun x => x.2 != Triad.off
    fcol := { s.fcol with
      waiting := [], masked := [], pairs := [], evcnt := [], thr := [], gen := 0, checked := none, dsafe := false
      resetDue := none, resetSrc := 0, errShown := true, errPhase := false, lastLeak := s.now, lastSweep := s.now }
    sram := (List.range 16).map fun n => (n, Ram.unwritten (e + 1 + n))
    ddr := (List.range 8).map fun k => (k, Ram.unwritten (e + 17 + k))
    port := [], sramWb := [], ddrQ := [], ddrWb := [], ddrDirty := [], resync := [], resv := [], resps := [], tags := []
    vmeIn := [], engines := [], notices := [], flitRx := [], flitTx := []
    timeB := { s.timeB with
      frameNo := 0, frameStart := 0, actGen := 0, active := [], inactive := [], checked := none, armed := false
      firstFrame := 0, pendSrc := none, ppsGain := 0, ppsLose := 0, ppsAcc := 0 }
    warden := { s.warden with startAt := s.now, firstAt := 0, failedAt := none, part := 0, rec' := 0, images := [] }
    svc := Svc.idle
    bist := ⟨none, []⟩
    resets := [], bridgeShut := [], savedDom := 0, wakeLatch := none, savedWake := [], bvlVers := [], warned := [], pins := []
    fabio := true, fab := false, aoc := false, switching := [], heldSwitch := [] }
  let s := s.ioLost
  let s := retired.foldl (fun s k => (s.setDstate k 8).setFld (pgDdrc k) 0x110 9 9 1) s
  let s := s.keepSpares
  let s := (s.setFld pgWarden 0x108 17 16 fails).setFld pgWarden 0x108 11 8 2
  s.setReg pgDevice 0x108 (BitVec.ofNat 64 (1 + cause * 2 ^ 8 + min (count + 1) 65535 * 2 ^ 16 + src * 2 ^ 32))

/-- A pending injection of a unit's pages and its masked pairs end with its reset (R267, R289). -/
def State.unitReset (s : State) (pages : PageKind → Nat → Bool) (srcs : Nat → Bool) : State :=
  (s.resetPages pages).unmask srcs

/-- A triad reset (R373, R394): the triad goes to Off, its ISOLATE ends. -/
def State.triadReset (s : State) (t : Nat) : State :=
  let s := (s.bistTriad t).engineTriadStop t
  let s := s.unitReset (fun k i => (k == .triad && i == t) || (k == .core && i / 3 == t)) (domSrc t)
  let s := (s.triadOff t).flitRestart t
  let s := s.setTriad t { s.triad t with isolated := false }
  let s := s.setFld pgFcol 0x1B8 t t 0
  let s : State := { s with
    switching := AMap.drop t s.switching, heldSwitch := s.heldSwitch.filter fun h => h.1 != t
    resv := s.resv.filter fun e => e.1 != t }
  (s.setPowerState t 0).setFld pgPwr (tpwr t) 26 24 0

/-- A region reset (R371, R373, R394): the region's pages, engine and SRAM, its triads; REGION-SAFE ends. The SRAM is zero
when the reset completes. -/
def State.regionReset (s : State) (n : Nat) : State :=
  let s := s.bistRegion n
  let s := (List.range 4).foldl (fun s j => s.triadReset (4 * n + j)) s
  let s := (s.portOf n).foldl (fun s r => s.respond r.origin .err) s
  let s := ((s.regionLost n).unmask (domSrc (64 + n))).flitRestart (64 + n)
  if s.regionOn n then s.setFld (pgRegion n) 0x100 1 1 1 else s

/-- A die reset (R371, R19): its regions, mesh and bridge. -/
def State.dieReset (s : State) (d : Nat) : State :=
  let s := (List.range 8).foldl (fun s j => s.regionReset (8 * d + j)) s
  let s := s.unmask fun src => decide (0x1A0 + 4 * d ≤ src) && decide (src < 0x1A4 + 4 * d)
  { s with bridgeShut := s.bridgeShut.filter fun x => x != d, warned := s.warned.filter fun x => x != d }

/-- Units of a reset: RSTCTL.KIND 2 die, 3 region, 4 triad. Whether `b` lies within `a`. -/
def resetCovers (a b : Nat × Nat) : Bool :=
  a == b ||
  (match a.1, b.1 with
    | 2, 3 => b.2 / 8 == a.2
    | 2, 4 => b.2 / 32 == a.2
    | 3, 4 => b.2 / 4 == a.2
    | _, _ => false)

/-- A die, region or triad reset may be taken (R373). -/
def State.resetOk (s : State) (kind inst : Nat) : Bool :=
  (match kind with
    | 2 => decide (inst < s.dies) && s.dieFree inst
    | 3 => decide (inst < s.nRegions) && s.regionFree inst
    | 4 => decide (inst < s.nTriads) && !s.tableUses inst
    | _ => false) &&
  !s.resets.any fun r => resetCovers r (kind, inst)

/-- The advisory record of a reset (R374). -/
def State.resetRecord (s : State) (kind inst : Nat) : State :=
  match kind with
  | 2 => s.advisory pgDevice 16 inst
  | 3 => s.advisory (pgRegion inst) 16 0xFF
  | _ => s.advisory (pgTriad inst) 16 0xFF

/-- A die, region or triad reset begins (R373): its units are in reset until RESET_COMPLETE. -/
def State.unitResetBegin (s : State) (kind inst : Nat) : State :=
  let s := match kind with
    | 2 => s.dieReset inst
    | 3 => s.regionReset inst
    | _ => s.triadReset inst
  let s := s.resetRecord kind inst
  { s.setFld pgDevice 0x110 1 1 1 with resets := s.resets ++ [(kind, inst)] }

/-- The SRAM of a reset region is zero and it accepts requests, where its domain is on (R225, R394); REGION-SAFE taken during the
reset abandoned it for the region (R25). -/
def State.sramZeroed (s : State) (n : Nat) : State :=
  if s.regionOn n = true ∧ s.bit (pgFwall n) 0x108 0 = false then
    ((s.setSram n (Ram.filled 0)).setFld (pgRegion n) 0x100 1 1 0).setFld (pgRegion n) 0x100 0 0 1
  else s

/-- A reset completes (R371). -/
def State.resetDone (s : State) (kind inst : Nat) : State :=
  if s.resets.contains (kind, inst) = false then s
  else
    let s : State := match kind with
      | 2 => (List.range 8).foldl (fun s j => s.sramZeroed (8 * inst + j)) s
      | 3 => s.sramZeroed inst
      | _ => s
    let s : State := { s with resets := s.resets.filter fun r => r != (kind, inst) }
    s.setFld pgDevice 0x110 1 1 (b2n (!s.resets.isEmpty))

/-- A device reset that software or the host asks for: before START_OK a failed start (R390 code 0x0D); the third leaves the
device in Umber mode, which no reset request ends (R393). -/
def State.askDeviceReset (s : State) (cause : Nat) : State × WOut :=
  let s := s.failStart 0xD 0xFF 0 cause
  let st := s.fld pgWarden 0x108 3 0
  if st = 4 ∨ st = 5 then (s.setFld pgDevice 0x110 0 0 1, .refused) else (s.deviceReset cause 0, .accepted)

/-- A reset request that the page has accepted (R373). -/
def State.askReset (s : State) (kind inst cause : Nat) : State × WOut :=
  if kind = 1 then s.askDeviceReset cause
  else if s.resetOk kind inst then (s.unitResetBegin kind inst, .accepted)
  else (s.setFld pgDevice 0x110 0 0 1, .refused)

/-- A write of RSTCTL (R373). -/
def State.rstctlWrite (s : State) (w : Wr) : State × WOut :=
  if (0x40 ≤ w.iid ∧ w.iid ≠ 0x0201) ∨ w.bits 63 48 ≠ 0x5A3C then (s.pageError w.page w.iid w.off 3, .rejected)
  else s.askReset (w.bits 2 0) (w.bits 13 8) 4

/-- A write of a DEVICE register. -/
def State.wDevice (s : State) (row : RegRow) (w : Wr) (old new : Word) : State × WOut :=
  match w.off with
  | 0x100 => s.rstctlWrite w
  | _ => s.plainWrite .device row w old new

/-- The RESET action's device reset (R270, R371). -/
def State.resetExpiry (s : State) : State :=
  match s.fcol.resetDue with
  | none => s
  | some due =>
    let s := s.advance due
    s.deviceReset 5 s.fcol.resetSrc

/-- The retry of a failed start (R391). -/
def State.retryExpiry (s : State) : State :=
  match s.warden.failedAt with
  | none => s
  | some t => (s.advance (t + 100000000)).deviceReset 7 0

end Sys2Proof.Machine
end

