-- ==== Sys2Proof/Machine/Svc.lean ====
section
/-! DEFINITION. The service channels (R395 to R400, R402, R417): messages, sequence numbers, answers and notices. -/

namespace Sys2Proof.Machine

/-- A channel: 0 to 3, and 8 + d for the requests that device `d` relays. -/
def State.chan (s : State) (c : Nat) : Chan := AMap.get s.svc.chans (fun _ => Chan.empty) c
def State.setChan (s : State) (c : Nat) (x : Chan) : State :=
  { s with svc := { s.svc with chans := AMap.set s.svc.chans (fun _ => Chan.empty) c x } }

/-- The device is in Umber mode (R392). -/
def State.umber (s : State) : Bool := s.fld pgWarden 0x108 3 0 == 4

/-- A channel carries messages (R363, R392, R395, R402). -/
def State.chanOn (s : State) (c : Nat) : Bool :=
  s.fabio && s.fld pgWarden 0x108 3 0 != 5 && !s.deviceEntering &&
  (if s.umber then c == 0 || c == 2
   else if c < 4 then s.bit pgSvc 0x100 c
   else decide (8 ≤ c) && decide (c < 16) && s.bit pgSvc 0x100 8)

/-- The up link to a device (R307, R402). -/
def State.linkTo (s : State) (dev : Nat) : Option Nat :=
  (List.range 16).find? fun i => s.linkUp i && s.lfld i 0x108 39 32 == dev

/-- A message's CHECK: CRC-32C over header and payload with the field zero (R396). -/
def msgCheck (bs : List Byte) : Nat := crcOf 1 ((zeroAt bs 0x1C 4).map fun x => x.toNat)

/-- A number in a message. -/
def msgNum (bs : List Byte) (o n : Nat) : Nat := ofBytes ((bs.drop o).take n)

/-- The padded length of a command's request payload, where the command is known and its length fixed by its fields (R401). -/
def payloadLen (cmd : Nat) (pl : List Byte) : Option Nat :=
  match cmd with
  | 0x0001 => some 0
  | 0x0002 => some 8
  | 0x0010 => some 8
  | 0x0011 => some 8
  | 0x0020 => some 16
  | 0x0021 => some 72
  | 0x0030 => some (8 + 256 * msgNum pl 2 1)
  | 0x0031 => some 8
  | 0x0032 => some 8
  | 0x0033 => some 8
  | 0x0034 => some 40
  | 0x0040 => some 16
  | 0x0041 => some 8
  | 0x0042 => some 8
  | 0x0043 => some 16
  | 0x0050 => some 8
  | 0x0060 => some 8
  | 0x0061 => some 0
  | 0x0070 => some 8
  | _ => none

/-- The zero fields of a command's payload: offset and length (R396, R401). -/
def payloadZeros (cmd : Nat) : List (Nat × Nat) :=
  match cmd with
  | 0x0002 => [(4, 4)]
  | 0x0010 => [(6, 2)]
  | 0x0011 => [(5, 3)]
  | 0x0020 => [(4, 4)]
  | 0x0021 => [(1, 7)]
  | 0x0030 => [(3, 1)]
  | 0x0031 => [(2, 6)]
  | 0x0032 => [(2, 6)]
  | 0x0033 => [(2, 6)]
  | 0x0034 => [(1, 7)]
  | 0x0040 => [(2, 6)]
  | 0x0041 => [(2, 6)]
  | 0x0042 => [(4, 4)]
  | 0x0043 => [(2, 6)]
  | 0x0050 => [(2, 6)]
  | 0x0060 => [(2, 6)]
  | 0x0070 => [(1, 7)]
  | _ => []

/-- A message passes the checks of R396. -/
def msgOk (bs : List Byte) : Bool :=
  let len := msgNum bs 4 2
  let typ := msgNum bs 0 1
  decide (32 ≤ bs.length) && decide (bs.length = 32 + len) && decide (len % 8 = 0) && decide (len ≤ 1024) &&
  decide (msgCheck bs = msgNum bs 0x1C 4) && decide (1 ≤ typ) && decide (typ ≤ 3) && decide (msgNum bs 0x13 9 = 0) &&
  (decide (typ ≠ 1) ||
    (decide (msgNum bs 6 2 = 0) && decide (msgNum bs 0x12 1 = 0) &&
     (match payloadLen (msgNum bs 2 2) (bs.drop 32) with
       | some n => decide (len = n)
       | none => true) &&
     (payloadZeros (msgNum bs 2 2)).all fun z => decide (msgNum bs (32 + z.1) z.2 = 0)))

/-- A message of the warden (R396). -/
def State.msgBytes (s : State) (typ cmd status hseq wseq ch : Nat) (pl : List Byte) : List Byte :=
  let pl := pl ++ List.replicate (up8 pl.length - pl.length) 0
  let epoch := s.fld pgDevice 0x108 31 16
  let b := toBytes typ 1 ++ toBytes s.devid 1 ++ toBytes cmd 2 ++ toBytes pl.length 2 ++ toBytes status 2 ++ toBytes hseq 4 ++
    toBytes wseq 4 ++ toBytes epoch 2 ++ toBytes ch 1 ++ List.replicate 13 0 ++ pl
  b.take 0x1C ++ toBytes (msgCheck b) 4 ++ b.drop 0x20

/-- A message leaves on a channel: to the mailbox, a join link, or the transport of channels 0 to 2 (R395, R402). -/
def State.svcSend (s : State) (ch : Nat) (bs : List Byte) : State :=
  if ch = 3 then { s with svc := { s.svc with mail := s.svc.mail ++ [bs] } }
  else if 8 ≤ ch then
    match s.linkTo (ch - 8) with
    | some i => s.sendFrame i 0 0 true (.svc 4 bs.length bs)
    | none => s
  else s.emit (.svc ch (if ch < 2 then AMap.get s.svc.mac (fun _ => 0) ch else 0) bs)

/-- An unnumbered response (R397). -/
def State.svcPlain (s : State) (ch cmd status hseq detail : Nat) (data : List Byte) : State :=
  s.svcSend ch (s.msgBytes 2 cmd status hseq 0 ch (toBytes detail 8 ++ data))

/-- A numbered message is issued and held until it is acknowledged (R398). -/
def State.svcNumbered (s : State) (ch typ cmd status hseq : Nat) (pl : List Byte) : State :=
  let c := s.chan ch
  let n := c.wseq + 1
  let bs := s.msgBytes typ cmd status hseq n ch pl
  (s.setChan ch { c with wseq := n, held := c.held ++ [(n, hseq, bs)] }).svcSend ch bs

/-- An unnumbered response whose DETAIL no rule states (assumption 25). -/
def State.svcPlainFree (s : State) (ch cmd status hseq : Nat) : State :=
  match s.freeValue with
  | (s, v) => s.svcPlain ch cmd status hseq v.toNat []

/-- Messages a channel holds, with the requests it has not completed (R398). -/
def Chan.load (c : Chan) : Nat := c.held.length + c.reqs.length

/-- A notice, dropped where it finds no place (R398, R417). -/
def State.svcNotice (s : State) (ch cmd : Nat) (pl : List Byte) : State :=
  if (s.chan ch).load < 16 then s.svcNumbered ch 3 cmd 0 0 pl else s.countSat pgSvc 0x138 47 32

/-- The request of a channel at its turn is complete: its answer is issued, and the turn passes on (R397, R400). -/
def State.svcAnswer (s : State) (ch status detail : Nat) (data : List Byte) : State :=
  let c := s.chan ch
  match c.reqs with
  | [] => s
  | r :: rest =>
    let s := s.setChan ch { c with lastExec := r.hseq, reqs := rest }
    let s : State := { s with svc := { s.svc with turn := ch } }
    s.svcNumbered ch 2 r.cmd status r.hseq (toBytes detail 8 ++ data)

/-- An answer whose DETAIL no rule states (assumption 25). -/
def State.svcDone (s : State) (ch status : Nat) (data : List Byte) : State :=
  match s.freeValue with
  | (s, v) => s.svcAnswer ch status v.toNat data

/-- The channels in the order of their numbers. -/
def allChans : List Nat := [0, 1, 2, 3, 8, 9, 10, 11, 12, 13, 14, 15]

/-- The channel whose request is executed next: ascending, one request from each channel that has one (R400). -/
def State.svcNext (s : State) : Option Nat :=
  if s.svc.op.isSome then none
  else
    let has := allChans.filter fun c => !(s.chan c).reqs.isEmpty
    match has.find? fun c => decide (s.svc.turn < c) with
    | some c => some c
    | none => has.head?

/-- The group of a command (R401). -/
def cmdGroup (cmd : Nat) : Option Nat :=
  if (payloadLen cmd []).isSome then some (cmd / 16) else none

/-- The command is permitted on the channel (R401, SALLOW). -/
def State.svcMay (s : State) (ch g : Nat) : Bool :=
  decide (g = 0) ||
  (if ch < 4 then bitAt (s.fld pgSvc 0x108 31 0) (8 * ch + g) else bitAt (s.fld pgSvc 0x108 39 32) g)

/-- Requests at their turn that no command row executes are answered: an unknown command, one that is not permitted, one
that Umber mode refuses (R401). -/
def State.svcRefuse (s : State) : State :=
  match s.svcNext with
  | none => s
  | some ch =>
    match (s.chan ch).reqs with
    | [] => s
    | r :: _ =>
      match cmdGroup r.cmd with
      | none => s.svcDone ch 9 []
      | some g =>
        if s.svcMay ch g = false then s.svcDone ch 4 []
        else if s.umber ∧ (g = 2 ∨ g = 4 ∨ g = 5) then s.svcDone ch 5 []
        else s

/-- As many of them as stand at their turn. -/
def State.svcSkip (s : State) : State := ((allChans.flatMap fun c => (s.chan c).reqs)).foldl (fun s _ => s.svcRefuse) s

/-- The payload of the request of channel `ch`, where it stands at its turn with the command named. -/
def State.svcTake (s : State) (ch cmd : Nat) : Option (List Byte) :=
  if s.svcNext = some ch then
    match (s.chan ch).reqs with
    | r :: _ => if r.cmd = cmd then some r.payload else none
    | [] => none
  else none

/-- The oldest held number; 0 if none. -/
def Chan.oldest (c : Chan) : Nat := match c.held with
  | e :: _ => e.1
  | [] => 0

/-- GETSEQ's data (R399). -/
def Chan.seqs (c : Chan) : List Byte :=
  toBytes c.lastAcc 4 ++ toBytes c.lastExec 4 ++ toBytes c.wseq 4 ++ toBytes c.hack 4 ++ toBytes c.oldest 4 ++ toBytes 0 4

/-- RESEND (R398): what it sends again, its status and DETAIL. -/
def State.svcResend (s : State) (ch frm : Nat) : State × Nat × Nat :=
  let c := s.chan ch
  if frm < c.oldest ∧ c.hack < frm then (s, 10, c.oldest)
  else
    let again := c.held.filter fun e => decide (frm ≤ e.1)
    (again.foldl (fun s e => s.svcSend ch e.2.2) s, 0, again.length)

/-- The number after a host number (R397). -/
def nextHseq (n : Nat) : Nat := if n = 0xFFFFFFFF then 1 else n + 1

/-- The ACKW of a request (R397). -/
def State.svcAck (s : State) (ch ackw : Nat) : State :=
  let c := s.chan ch
  if c.hack < ackw ∧ ackw ≤ c.wseq then
    s.setChan ch { c with hack := ackw, held := c.held.filter fun e => decide (ackw < e.1) }
  else s

/-- A request for this device with a valid CHECK is judged (R397, R398). -/
def State.svcRequest (s : State) (ch : Nat) (bs : List Byte) : State :=
  let cmd := msgNum bs 2 2
  let hseq := msgNum bs 8 4
  let pl := bs.drop 32
  let s := s.svcAck ch (msgNum bs 0xC 4)
  let c := s.chan ch
  if hseq = 0 then
    if cmd = 1 then s.svcPlain ch 1 0 0 0 c.seqs
    else if cmd = 2 then
      match s.svcResend ch (msgNum pl 0 4) with
      | (s, st, d) => s.svcPlain ch 2 st 0 d []
    else s.svcPlain ch cmd 1 0 (nextHseq c.lastAcc) []
  else if hseq = nextHseq c.lastAcc then
    if c.load < 16 then s.setChan ch { c with lastAcc := hseq, reqs := c.reqs ++ [⟨hseq, cmd, pl⟩] }
    else s.svcPlainFree ch cmd 2 hseq
  else if hseq = c.lastAcc then
    if c.reqs.any fun r => r.hseq == hseq then s
    else match c.held.find? fun e => e.2.1 == hseq with
      | some e => s.svcSend ch e.2.2
      | none => s.svcPlainFree ch cmd 10 hseq
  else s.svcPlain ch cmd 1 hseq (nextHseq c.lastAcc) []

/-- A message is discarded and counted (R396). -/
def State.svcBad (s : State) : State := s.countSat pgSvc 0x138 63 48

/-- A request for another device goes on its way (R402). -/
def State.svcRelay (s : State) (ch dev : Nat) (bs : List Byte) : State :=
  match s.linkTo dev with
  | some i =>
    let s : State := { s with svc := { s.svc with relay := AMap.put dev ch s.svc.relay } }
    s.sendFrame i 0 0 true (.svc 4 bs.length bs)
  | none => s.svcPlain ch (msgNum bs 2 2) 5 (msgNum bs 8 4) 0xFF []

/-- An answer or a notice of device `d` goes back to the host whose request went there (R402). -/
def State.svcReturn (s : State) (d : Nat) (bs : List Byte) : State :=
  match AMap.find? s.svc.relay d with
  | some ch => s.svcSend ch bs
  | none => s

/-- A message on a channel is taken (R396, R397, R402, R411). -/
def State.svcTakeMsg (s : State) (ch src : Nat) (bs : List Byte) : State :=
  if msgOk bs = false then s.svcBad
  else if msgNum bs 0 1 ≠ 1 then (if 8 ≤ ch then s.svcReturn (ch - 8) bs else s)
  else if msgNum bs 1 1 ≠ s.devid then
    if 8 ≤ ch then s
    else if 976 < msgNum bs 4 2 then s.svcBad
    else s.svcRelay ch (msgNum bs 1 1) bs
  else
    let before := (s.chan ch).lastAcc
    let s := s.svcRequest ch bs
    let s : State := if ch < 2 ∧ (s.chan ch).lastAcc ≠ before then
        { s with svc := { s.svc with mac := AMap.put ch src s.svc.mac } } else s
    s.svcSkip

/-- A handover of the warden's work is under way (R411). -/
def State.handover (s : State) : Bool :=
  match s.svc.op with
  | some (_, _, .swap _ _ _) => true
  | _ => false

/-- A message arrives; during a handover 16 of each channel are held (R411). -/
def State.svcMessage (s : State) (ch src : Nat) (bs : List Byte) : State :=
  if 8 ≤ ch ∧ msgNum bs 0 1 ≠ 1 ∧ s.fabio = true then s.svcTakeMsg ch src bs
  else if s.chanOn ch = false then s
  else if s.handover then
    if (s.svc.parked.filter fun p => p.1 == ch).length < 16 then
      { s with svc := { s.svc with parked := s.svc.parked ++ [(ch, src, bs)] } }
    else s.svcBad
  else s.svcTakeMsg ch src bs

/-- The messages held during a handover are taken (R411). -/
def State.svcUnpark (s : State) : State :=
  let p := s.svc.parked
  let s : State := { s with svc := { s.svc with parked := [] } }
  p.foldl (fun s e => s.svcTakeMsg e.1 e.2.1 e.2.2) s

/-- A SLIP character of UART0 (R395, RFC 1055): END 0xC0, ESC 0xDB. -/
def State.slipChar (s : State) (c : Nat) : State :=
  let v := s.svc
  let put (b : Nat) : State := { s with svc := { v with slip := v.slip ++ [BitVec.ofNat 8 b], slipEsc := false } }
  if c = 0xC0 then
    let s : State := { s with svc := { v with slip := [], slipEsc := false } }
    if v.slip.isEmpty then s else s.svcMessage 2 0 v.slip
  else if c = 0xDB then { s with svc := { v with slipEsc := true } }
  else if v.slipEsc then put (if c = 0xDC then 0xC0 else if c = 0xDD then 0xDB else c)
  else put c

/-- The mailbox (R395): a message is taken from the request area; one goes to the response area, where that is free. -/
def State.mailboxPoll (s : State) : State :=
  let a := s.reg pgSvc 0x118 &&& bitMask 47 13
  let a := a.toNat
  if s.chanOn 3 = false then s
  else
    let s := match s.memRead 0x0201 a 8 with
      | (s, none) => s
      | (s, some f) =>
        if ofBytes f = 0 then s
        else
          let (s, hd) := s.memRead 0x0201 (a + 8) 32
          let n := match hd with
            | some h => 32 + msgNum h 4 2
            | none => 0
          let (s, m) := s.memRead 0x0201 (a + 8) (min n 1056)
          let s := (s.memWrite 0x0201 a (toBytes 0 8)).1
          match m with
          | some bs => s.svcMessage 3 0 bs
          | none => s.svcBad
    match s.svc.mail with
    | [] => s
    | m :: rest =>
      match s.memRead 0x0201 (a + 4096) 8 with
      | (s, none) => s
      | (s, some f) =>
        if ofBytes f ≠ 0 then s
        else
          let s : State := { s with svc := { s.svc with mail := rest } }
          let s := (s.memWrite 0x0201 (a + 4104) m).1
          (s.memWrite 0x0201 (a + 4096) (toBytes 1 8)).1

/-- MSGCTL.SEND: MSGOUT goes as a notice to every channel that has EN set (R417). -/
def State.msgSend (s : State) : State :=
  let pl := (List.range 8).flatMap fun j => toBytes (s.reg pgSvc (0x1C0 + 8 * j)).toNat 8
  (List.range 4).foldl (fun s c => if s.chanOn c then s.svcNotice c 0x21 pl else s) s

/-- A read of MSGIN7 (R417). -/
def State.msgin7 (s : State) : State := s.setFld pgSvc 0x140 8 8 0

/-- The end of INSTALLSET (R416): FAILCNT is cleared and the device reset. -/
def State.installReset (s : State) : State :=
  let cause := if s.umber then 8 else 6
  (s.setFld pgWarden 0x108 17 16 0).deviceReset cause 0

/-- An image loaded live is the image in use from its entry (R405, R415). -/
def State.imageLoaded (s : State) (entry slot : Nat) : State :=
  match s.dirEnt? entry with
  | none => s
  | some e =>
    let u := { s.imageUse e slot with live := true }
    { s with warden := { s.warden with images := (s.warden.images.filter fun v => v.entry != entry) ++ [u] } }

/-- A triad image loaded live is in force for its triad; another one stays in use while it is in force for a triad (R405). -/
def State.triadLoaded (s : State) (entry slot t : Nat) : State :=
  match s.dirEnt? entry with
  | none => s
  | some e =>
    let bit : Word := BitVec.ofNat 64 (2 ^ t)
    let same (v : ImageUse) : Bool := v.entry == entry && v.slot == slot
    let old : Word := match s.warden.images.find? same with
      | some v => v.force
      | none => 0
    let rest := (s.warden.images.filter fun v => !same v).map fun v => if v.kind = 5 then { v with force := v.force &&& ~~~ bit } else v
    let u := { s.imageUse e slot with live := true, force := old ||| bit }
    { s with warden := { s.warden with images := u :: rest.filter fun v => v.kind != 5 || v.force != 0 } }

/-- A service command that ended by what happened since: a switch made or cancelled, an acknowledgement (R410, R416). -/
def State.svcSettle (s : State) : State :=
  match s.svc.op with
  | none => s
  | some (ch, r, op) =>
    let free : State := { s with svc := { s.svc with op := none } }
    let used := free.imageLoaded (msgNum r.payload 0 1) (msgNum r.payload 1 1)
    match op with
    | .loadTable =>
      match s.fld pgTime 0x158 2 0 with
      | 3 => (used.svcAnswer ch 0 s.timeB.actGen.toNat []).svcSkip
      | 2 => s
      | _ => (free.svcAnswer ch 5 (s.reg pgTime 0x158).toNat []).svcSkip
    | .loadReact =>
      match s.fld pgFcol 0x118 2 0 with
      | 3 => (used.svcAnswer ch 0 s.fcol.gen.toNat []).svcSkip
      | 2 => s
      | _ => (free.svcAnswer ch 5 (s.reg pgFcol 0x118).toNat []).svcSkip
    | .install wseq _ => if wseq ≤ (s.chan ch).hack then free.installReset else s
    | .swap _ _ _ => s
    | .dropped => (free.svcAnswer ch 11 1 []).svcSkip

/-- A write of an SVC register. -/
def State.wSvc (s : State) (row : RegRow) (w : Wr) (old new : Word) : State × WOut :=
  match w.off with
  | 0x100 =>
    let s := s.storeReg .svc row w old (withBits new 9 9 0)
    (if w.sets 9 then s.setFld pgSvc 0x138 63 32 0 else s, .accepted)
  | 0x140 => (if w.sets 0 then s.msgSend else s, .accepted)
  | _ => s.plainWrite .svc row w old new

/-- A read of an SVC register: what SCHSEL shows, the command under way. -/
def State.rSvc (s : State) (off : Nat) (v : Word) : Word :=
  let c := s.chan (s.fld pgSvc 0x120 3 0)
  match off with
  | 0x128 => BitVec.ofNat 64 (c.lastAcc + c.lastExec * 2 ^ 32)
  | 0x130 => BitVec.ofNat 64 (c.wseq + c.hack * 2 ^ 32)
  | 0x138 =>
    match s.svc.op with
    | some (_, r, _) => withBits (withBits v 31 16 r.cmd) 0 0 (b2n (decide (0x30 ≤ r.cmd)))
    | none => v
  | _ => v

end Sys2Proof.Machine
end

