-- ==== Sys2Proof/Machine/Warden.lean ====
section
/-! DEFINITION. The WARDEN and IMAGE pages: START_OK and the anti-rollback counters (R379, R391, R415), what IMSEL shows. -/

namespace Sys2Proof.Machine

/-- The counter of a kind advances for an image in use that asks for it (R379). -/
def State.arcAdvance (s : State) (u : ImageUse) : State :=
  let pref := match s.dirEnt? u.entry with
    | some e => e.pref == u.slot
    | none => false
  if u.advance = false ∨ (u.live = true ∧ pref = false) then s
  else if 64 < u.secver then s.advisory pgWarden 1 0xFF
  else
    { s with warden := { s.warden with
        arc := AMap.set s.warden.arc (fun _ => 0) u.kind (max (s.arcOf u.kind) u.secver) } }

/-- START_OK (R366, R379, R391): accepted while running unconfirmed, from a triad or the service rings. -/
def State.startOk (s : State) (iid : Nat) : State :=
  if s.fld pgWarden 0x108 3 0 ≠ 2 ∨ (0x40 ≤ iid ∧ iid ≠ 0x0201) ∨ s.warden.failedAt.isSome then s
  else
    let s := (s.setFld pgWarden 0x108 17 16 0).setFld pgWarden 0x108 3 0 3
    let s := if s.fld pgPwr 0x108 1 0 = 2 then s.setFld pgPwr 0x108 1 0 0 else s
    s.warden.images.foldl (fun s u => s.arcAdvance u) s

/-- A write of a WARDEN register. -/
def State.wWarden (s : State) (row : RegRow) (w : Wr) (old new : Word) : State × WOut :=
  match w.off with
  | 0x100 => (if w.sets 0 then s.startOk w.iid else s, .accepted)
  | 0x118 => if bitsOf new 15 0 = 0 then (s, .refused) else s.plainWrite .warden row w old new
  | _ => s.plainWrite .warden row w old new

/-- A read of a WARDEN register: before the power-on start's step 2 the step in progress is 1 (R375). -/
def State.rWarden (_s : State) (off : Nat) (v : Word) : Word :=
  match off with
  | 0x108 => if bitsOf v 11 8 = 0 ∧ bitsOf v 3 0 = 0 then withBits v 11 8 1 else v
  | _ => v

/-- The image in use from the entry in IMSEL. -/
def State.imgShown (s : State) : Option ImageUse :=
  s.warden.images.find? fun u => u.entry == s.fld pgImage 0x108 12 8

/-- A read of an IMAGE register. -/
def State.rImage (s : State) (off : Nat) (v : Word) : Word :=
  let key := s.fld pgImage 0x108 7 0
  match off with
  | 0x110 =>
    match s.imgShown with
    | some u =>
      let pref := match s.dirEnt? u.entry with
        | some e => e.pref
        | none => 0
      BitVec.ofNat 64 (1 + u.slot * 2 + pref * 4 + s.arcOf u.kind % 128 * 2 ^ 8 + u.secver % 128 * 2 ^ 16 + u.kind * 2 ^ 24 +
        u.version * 2 ^ 32)
    | none => 0
  | 0x118 => match s.imgShown with
    | some u => u.attr
    | none => 0
  | 0x120 =>
    if key < 8 then BitVec.ofNat 64 (b2n (Config.otpProg key) * 2 ^ 8 + b2n (s.warden.revoked.contains key) * 2 ^ 9) else 0
  | _ => v

end Sys2Proof.Machine
end

