-- ==== Sys2Proof/Machine/Bus.lean ====
section
/-! DEFINITION. Accesses to register pages by any initiator (R4 to R8, R27, R248, R345, R351, R408, R418 to R428, R453). -/

namespace Sys2Proof.Machine

/-- The domain that serves a page is on (R351, R429). -/
def State.pageServed (s : State) (k : PageKind) (i : Nat) : Bool :=
  match k with
  | .device | .warden | .svc | .fcol | .rta0 | .rta1 | .rti0 | .rti1 | .pwr | .timebase | .bist | .image => true
  | .triad => s.regionOn (i / 4)
  | .core =>
    let st := s.powerState (i / 3)
    decide (st ≠ 0) && decide (st ≠ 1) && decide (st ≠ 6) && decide (st ≠ 8)
  | .region | .sched | .crcu | .fwall => s.regionOn i
  | _ => s.fabio

/-- PGSTAT.DOMON: the block's own domain is on (R422). -/
def State.domOn (s : State) (k : PageKind) (i : Nat) : Bool :=
  match k with
  | .triad => s.powerState i != 0 && s.powerState i != 1 && s.powerState i != 8
  | .ddrc => s.ddrOn i
  | .lane => s.quadOn (i / 4)
  | .laneq => s.quadOn i
  | .lsched => s.quadOn i
  | .bvl => s.quadOn (i / 4)
  | .eth => s.quadOn ((16 + i) / 4)
  | .vme | .vmemap | .vmepart | .canfd => s.legacyOn
  | _ => true

/-- The header registers as they read (R419 to R425). -/
def State.rHeader (s : State) (k : PageKind) (i page off : Nat) (v : Word) : Word :=
  match off with
  | 0x00 =>
    let bt := match pageRow s.dies page with
      | some r => r.btype
      | none => 0
    BitVec.ofNat 64 (i + bt * 2 ^ 16 + 2 ^ 32 + s.devid % 8 * 2 ^ 40 + 0xA1 * 2 ^ 48)
  | 0x08 =>
    BitVec.ofNat 64 (injKinds s.dies page + b2n (isSafety k) * 2 ^ 8 + (if k = .device then s.dies else 0) * 2 ^ 32)
  | 0x18 =>
    BitVec.ofNat 64 (b2n (s.domOn k i) + b2n (s.locked page) * 2 + b2n (s.bit page 0x28 0) * 4 +
      b2n (decide (s.fld page 0x20 4 0 ≠ 0)) * 8)
  | 0x38 =>
    match k with
    | .sched | .lsched => s.timeB.actGen
    | .fcol => s.fcol.gen
    | _ => AMap.get s.pggen (fun _ => 0) page
  | _ => v

/-- A register as it reads, without the effect that some reads have. -/
def State.regRead (s : State) (k : PageKind) (i page off : Nat) : Word :=
  match regRow k off with
  | none => 0
  | some _ =>
    let v := s.reg page off
    if off < 0x40 then s.rHeader k i page off v
    else match k with
      | .warden => s.rWarden off v
      | .svc => s.rSvc off v
      | .fcol => s.rFcol off v
      | .pwr => s.rPwr off v
      | .timebase => s.rTimebase off v
      | .image => s.rImage off v
      | .triad => s.rTriad i off v
      | .core => s.rCore i off v
      | .sched => s.rSched i off v
      | .lsched => s.rLsched i off v
      | .crcu => s.rCrcu i off v
      | .fwall => s.rFwall i off v
      | .ddrc => s.rDdrc i off v
      | .gpio => s.rGpio off v
      | .vme => s.rVme off v
      | _ => v

/-- A read of a register with its effect: UDATA, IRES, VINTPOP, MSGIN7 (R333, R343, R346, R417). -/
def State.pageRead (s : State) (k : PageKind) (i page off : Nat) : State × Word :=
  match k, off with
  | .uart, 0x108 => s.udataRead i
  | .i2c, 0x110 => s.iresRead i
  | .vme, 0x128 => s.vintPop
  | .svc, 0x1B8 => (s.msgin7, s.regRead k i page off)
  | _, _ => (s, s.regRead k i page off)

/-- TMODE written: an accepted change reaches a self-test run of the triad (R68, R387). -/
def State.tmodeReg (s : State) (t v : Nat) : State × WOut :=
  let was := (s.triad t).mode
  match s.tmodeWrite t v with
  | (s, .accepted) => (if v = was then s else s.bistTriad t, .accepted)
  | r => r

/-- What a write does to a block register beyond the checks that every page makes. -/
def State.blockWrite (s : State) (k : PageKind) (i : Nat) (row : RegRow) (w : Wr) (old new : Word) : State × WOut :=
  match k with
  | .device => s.wDevice row w old new
  | .warden => s.wWarden row w old new
  | .svc => s.wSvc row w old new
  | .fcol => s.wFcol row w old new
  | .rta0 | .rta1 | .rti0 | .rti1 => s.wReaction k row w old new
  | .pwr => s.wPwr row w old new
  | .timebase => s.wTimebase row w old new
  | .bist => s.wBist row w old new
  | .image => s.plainWrite k row w old new
  | .triad => if w.off = 0x100 ∧ w.covers 2 0 then s.tmodeReg i (w.bits 2 0) else s.wTriad i row w old new
  | .core => s.wCore i row w old new
  | .region => s.wRegion i row w old new
  | .sched => s.wSched i row w old new
  | .crcu => s.wCrcu i row w old new
  | .fwall => s.wFwall i row w old new
  | .ddrc => s.wDdrc i row w old new
  | .lane => s.wLane i row w old new
  | .laneq => s.wLaneq i row w old new
  | .bvl => s.wLink i w.off k row w old new
  | .eth => s.wEth i row w old new
  | .lsched => s.wLsched i row w old new
  | .vme => s.wVme row w old new
  | .vmemap => s.wVmemap row w old new
  | .vmepart => s.wVmepart row w old new
  | .canfd => s.wCan i row w old new
  | .uart => s.wUart i row w old new
  | .mgmt => s.wMgmt i row w old new
  | .spif => s.wSpif row w old new
  | .i2c => s.wI2c i row w old new
  | .gpio => s.wGpio row w old new

/-- While WARDENONLY is set the table banks and the inactive reaction pages accept writes of the warden alone (R408). -/
def wardenOnly (k : PageKind) (off : Nat) : Bool :=
  match k with
  | .sched | .lsched => off == 0x110 || off == 0x118
  | .timebase => off == 0x130 || off == 0x138 || off == 0x140
  | .rti0 | .rti1 => true
  | _ => false

/-- RW fields that a write changed without a plain store: TMODE and DCTL.MIRROR (R425). -/
def State.bump (s : State) (old : State) (k : PageKind) (i : Nat) (row : RegRow) (w : Wr) : State :=
  let special := (k == .triad && w.off == 0x100) || (k == .ddrc && w.off == 0x108)
  let a := old.regRead k i w.page w.off
  let b := s.regRead k i w.page w.off
  if special ∧ (a ^^^ b) &&& countedMask row ≠ 0 then
    { s with pggen := AMap.set s.pggen (fun _ => 0) w.page (AMap.get s.pggen (fun _ => 0) w.page + 1) }
  else s

/-- FWCTL.COMMIT while PGLOCK is set is ignored as R8 gives (R252). -/
def State.commitLocked (s : State) (k : PageKind) (w : Wr) : Bool :=
  k == .fwall && w.off == 0x100 && w.sets 1 && s.locked w.page

/-- A write reaches its page (R5 to R8, R408, R418, R453). -/
def State.pageWrite (s : State) (k : PageKind) (i : Nat) (w : Wr) : State × WOut :=
  if s.bit pgImage 0x100 0 = true ∧ wardenOnly k w.off = true ∧ w.iid ≠ 0x0200 then
    (s.pageError w.page w.iid w.off 3, .rejected)
  else
    match s.planWrite k w with
    | .absent => (s, .accepted)
    | .reserved => (s.pageError w.page w.iid w.off 0, .rejected)
    | .go row old new hit =>
      let bad := hit || s.commitLocked k w
      let s1 := if bad then s.pageError w.page w.iid w.off 1 else s
      match if w.off < 0x40 then s1.writeHeader k i row w old new else s1.blockWrite k i row w old new with
      | (s2, .accepted) => ((s2.bump s1 k i row w), if bad then .rejected else .accepted)
      | (s2, r) => (s2, if bad then .rejected else r)

/-- The page that an access reaches, or none: a bus error (R4, R16, R19, R27, R29, R248, R345, R351). The firewall of a region's
page judges every request that comes to it, before its size and kind matter (R248). CRCU's registers take their turn behind the
feeds that wait at the region's port (R259). -/
def State.pageFor (s : State) (iid a n : Nat) (kind : ReqKind) : State × Option (PageKind × Nat) :=
  match classify a with
  | .page p =>
    match pageKind s.dies p with
    | none => (s, none)
    | some (k, i) =>
      let fits := (n = 4 ∨ n = 8) ∧ a % n = 0 ∧ (kind = .load ∨ kind = .store) ∧ s.pageServed k i = true
      if s.openSlot iid = false then (s.starved iid, none)
      else if s.bridgeCuts iid (.page p) then (s, none)
      else match pageRegion k i with
        | none =>
          if fits ∧ (k ≠ .spif ∨ iid = 0x0200 ∨ iid = 0x0201) then (s, some (k, i)) else (s, none)
        | some r =>
          if s.regionOn r = false then (s, none)
          else match s.fwJudge r iid kind a n with
            | (s, true) => if fits then (if k = .crcu then s.drainPort r else s, some (k, i)) else (s, none)
            | (s, false) => (s, none)
  | _ => (s, none)

/-- A read of 4 or 8 bytes of register space. -/
def State.busRead (s : State) (iid a n : Nat) : State × Option Word :=
  match s.pageFor iid a n .load with
  | (s, none) => (s, none)
  | (s, some (k, i)) =>
    let page := (a - 0x40000000) / 0x1000
    let off := a % 0x1000 / 8 * 8
    match s.pageRead k i page off with
    | (s, v) => (s, some (if n = 8 then v else if a % 8 = 0 then v &&& 0xFFFFFFFF else v >>> 32))

/-- A request to switch on a triad whose region is off: its TRIAD page does not answer (R351), and PWR reports the refusal (R15, R350;
DEDUCED, assumption 80). -/
def State.darkSwitchOn (s : State) (iid a n : Nat) (v : Word) : State :=
  match classify a with
  | .page p =>
    match pageKind s.dies p with
    | some (.triad, t) =>
      if a % 0x1000 = 0x100 ∧ (n = 4 ∨ n = 8) ∧ bitsOf v 2 0 = 5 ∧ s.regionOn (t / 4) = false ∧ s.openSlot iid = true ∧
          s.bridgeCuts iid (.page p) = false then s.pwrRefused else s
    | _ => s
  | _ => s

/-- A write of 4 or 8 bytes of register space: none for a bus error, else what the acknowledgement states (R453). -/
def State.busWrite (s : State) (iid a n : Nat) (v : Word) : State × Option WOut :=
  match s.pageFor iid a n .store with
  | (s, none) => (s.darkSwitchOn iid a n v, none)
  | (s, some (k, i)) =>
    let page := (a - 0x40000000) / 0x1000
    match s.pageWrite k i (wrAt iid page (a % 0x1000) n v) with
    | (s, r) => (s, some r)

/-- The address of a register. -/
def regAddr (page off : Nat) : Nat := 0x40000000 + 0x1000 * page + off

/-- A 64-bit write of a register by an initiator: the command rows that write registers. -/
def State.writeReg (s : State) (iid page off : Nat) (v : Word) : State := (s.busWrite iid (regAddr page off) 8 v).1

end Sys2Proof.Machine
end

