-- ==== Sys2Proof/Machine/Engines.lean ====
section
/-! DEFINITION. The schedule engines' accesses, moves, re-run moves, votes and commits (R190 to R198, R452), the link schedule
engines' TX and RXCHK (R199, R200, R338), peer requests (R29, R307). -/

namespace Sys2Proof.Machine

/-- Bytes of a width code (R205). -/
def unitBytes (w : Nat) : Nat := 2 ^ (w % 4)

/-- Side-effect-free space that an engine reaches at once: region SRAM or DDR4 (R26). -/
def isPlain (a : Nat) : Bool :=
  match classify a with
  | .sram _ => true
  | .ddr _ => true
  | _ => false

/-- The link that accesses to a peer take (R307): the one Active or Degraded link whose partner it is, its PSTATE 0. -/
def State.peerLink (s : State) (dev : Nat) : Option Nat :=
  (List.range 16).find? fun i =>
    s.linkUp i && s.lfld i 0x108 39 32 == dev &&
    (s.activeLanes i).all fun l => s.fld (pgLane l) 0x110 51 48 == 0

/-- WIDTH of a REQ (R302). -/
def reqWidth (n : Nat) : Nat := if n = 1 then 0 else if n = 2 then 1 else if n = 4 then 2 else if n = 8 then 3 else 6

/-- A request to a peer window leaves as a REQ, or is answered at once with an error (R29, R307). -/
def State.peerIssue (s : State) (r : FabReq) (open' : Bool) : State :=
  let dev := (r.addr - 0x800000000000) / 0x100000000000
  let o := r.addr % 0x100000000000
  let load := decide (r.kind = .load)
  match s.peerLink dev with
  | none => s.respond r.origin .err
  | some i =>
    if dev = s.devid then s.respond r.origin .err
    else
      let k := s.link i
      let s := s.setLink i { k with peerOut := k.peerOut ++ [⟨r.tag, r.origin, r.size, load, s.now⟩] }
      let data := if load then [] else toBytes r.data.toNat (if r.size ≤ 8 then 8 else 64)
      s.sendFrame i 1 r.tag open' (.req o (if load then 1 else 2) (reqWidth r.size) data)

/-- What one access of an engine gives: done with the bytes read, failed, its response is on its way, or it waits for a tag. -/
inductive Unit' where
  | done (bytes : List Byte)
  | fail
  | away
  | stall
deriving DecidableEq, Repr

/-- Issue an access that is answered later, under a tag of the engine (R35, R36): with every tag out it stalls. -/
def State.engineAway (s : State) (n a len : Nat) (kind : ReqKind) (bs : List Byte) (o : Origin) : State × Unit' :=
  match s.freeTag (0x4000 + 1024 * n) 1024 with
  | none => (s, .stall)
  | some tag =>
    let s := s.takeTag tag o
    let r : FabReq := ⟨0x100 + n, kind, a, len, BitVec.ofNat 128 (ofBytes bs), false, o, tag, 0⟩
    match classify a with
    | .vme => (({ s with vmeIn := s.vmeIn ++ [r] } : State).outbound, .away)
    | .peer _ => (s.peerIssue r false, .away)
    | _ => (s.dropTag tag, .fail)

/-- An engine reads one unit (R190). -/
def State.unitRead (s : State) (n a len : Nat) (o : Origin) : State × Unit' :=
  match classify a with
  | .sram _ | .ddr _ =>
    match s.memRead (0x100 + n) a len with
    | (s, some b) => (s, .done b)
    | (s, none) => (s, .fail)
  | .page _ =>
    match s.busRead (0x100 + n) a len with
    | (s, some v) => (s, .done (toBytes v.toNat len))
    | (s, none) => (s, .fail)
  | _ => s.engineAway n a len .load [] o

/-- An engine writes one unit (R190). -/
def State.unitWrite (s : State) (n a : Nat) (bs : List Byte) (o : Origin) : State × Unit' :=
  match classify a with
  | .sram _ | .ddr _ =>
    match s.memWrite (0x100 + n) a bs with
    | (s, true) => (s, .done [])
    | (s, false) => (s, .fail)
  | .page _ =>
    match s.busWrite (0x100 + n) a bs.length (BitVec.ofNat 64 (ofBytes bs)) with
    | (s, some _) => (s, .done [])
    | (s, none) => (s, .fail)
  | _ => s.engineAway n a bs.length .store bs o

/-- The move or commit write under way at a record. -/
def Engine.work (e : Engine) (commit : Bool) (i : Nat) : Option MoveRun :=
  AMap.find? (if commit then e.commits else e.moves) i
def Engine.setWork (e : Engine) (commit : Bool) (i : Nat) (m : MoveRun) : Engine :=
  if commit then { e with commits := AMap.put i m e.commits } else { e with moves := AMap.put i m e.moves }

/-- Destination, length and width of a move or commit record. -/
def Engine.workTo (e : Engine) (commit : Bool) (i : Nat) : Nat × Nat × Nat :=
  if commit then
    let c := commitRec e.active i
    (c.dst, c.len, c.width)
  else
    let m := moveRec e.active i
    (m.dst, m.len, m.width)

/-- A move or commit write ends (R190, R193): a failure counts in CNTMOVEF, and a commit's reports the commit-failure
source. -/
def State.workEnd (s : State) (n i : Nat) (commit ok : Bool) : State :=
  let e := s.engine n
  match e.work commit i with
  | none => s
  | some m =>
    let s := s.setEngine n (e.setWork commit i { m with st := if ok then 1 else 2 })
    if ok then s
    else
      let s := s.count (pgSched n) 0x160
      if commit then s.report (0x140 + 6 * n + 3) 1 0xFF 0 else s

/-- The bytes of the fallback pool (R203). -/
def poolBytes (b : AMap Word) (o n : Nat) : List Byte :=
  (List.range n).map fun k => BitVec.ofNat 8 (bankByte b (poolAt b + o + k))

/-- The bytes of the next access of a move (R190). -/
def unitSize (m : MoveRun) (dst width rest : Nat) : Nat :=
  if (m.pool || isPlain m.src) && isPlain dst then min 64 rest else min (unitBytes width) rest

/-- An engine goes on with a move or commit write, unit by unit in ascending order, until it ends or waits for a response
(R190). Each source byte is read once: a unit whose write waits for a tag is kept. The offset of an origin is twice the position,
plus 1 for the write. -/
def State.workGo (s : State) (n i : Nat) (commit : Bool) : Nat → State
  | 0 => s
  | fuel + 1 =>
    let e := s.engine n
    match e.work commit i with
    | none => s
    | some m =>
      let (dst, len, width) := e.workTo commit i
      if m.st ≠ 0 ∨ s.engineRuns n = false then s
      else if len ≤ m.pos then s.workEnd n i commit true
      else
        let u := unitSize m dst width (len - m.pos)
        let got := if m.kept.isEmpty = false then (s, Unit'.done m.kept)
          else if m.pool then (s, Unit'.done (poolBytes e.active (m.src + m.pos) u))
          else s.unitRead n (m.src + m.pos) u (.engine n i (2 * m.pos) commit)
        let m : MoveRun := { m with kept := [] }
        match got with
        | (s, .away) => s
        | (s, .stall) => s
        | (s, .fail) => s.workEnd n i commit false
        | (s, .done bs) =>
          let keep (s : State) (m : MoveRun) : State := s.setEngine n ((s.engine n).setWork commit i m)
          match s.unitWrite n (dst + m.pos) bs (.engine n i (2 * m.pos + 1) commit) with
          | (s, .away) => keep s m
          | (s, .stall) => keep s { m with kept := bs }
          | (s, .fail) => s.workEnd n i commit false
          | (s, .done _) => (keep s { m with pos := m.pos + u }).workGo n i commit fuel

/-- The same with enough fuel for every byte left. -/
def State.workRun (s : State) (n i : Nat) (commit : Bool) : State :=
  s.workGo n i commit ((s.engine n).workTo commit i).2.1.succ

/-- A move or commit write of an engine has an access out. -/
def State.workOut (s : State) (n i : Nat) (commit : Bool) : Bool :=
  s.tags.any fun t => match t.origin with
    | .engine n' i' _ c' => n' == n && i' == i && c' == commit
    | _ => false

/-- Writes that stalled for want of a tag go on (R36). -/
def State.engineWake (s : State) (n : Nat) : State :=
  let go (commit : Bool) (s : State) (x : Nat × MoveRun) : State :=
    if x.2.st = 0 ∧ s.workOut n x.1 commit = false then s.workRun n x.1 commit else s
  let s := (s.engine n).moves.foldl (go false) s
  (s.engine n).commits.foldl (go true) s

/-- A response reaches an engine (R190): the unit just read is written, the unit just written is acknowledged. -/
def State.engineResp (s : State) (n i off : Nat) (commit : Bool) (r : Resp) : State :=
  let e := s.engine n
  let s := match e.work commit i with
    | none => s
    | some m =>
      let (dst, len, width) := e.workTo commit i
      let u := unitSize m dst width (len - m.pos)
      if m.st ≠ 0 ∨ off / 2 ≠ m.pos ∨ s.engineRuns n = false then s
      else match r with
        | .err => s.workEnd n i commit false
        | .ok q =>
          if off % 2 = 1 then
            (s.setEngine n (e.setWork commit i { m with pos := m.pos + u })).workRun n i commit
          else
            match s.unitWrite n (dst + m.pos) (toBytes q.toNat u) (.engine n i (2 * m.pos + 1) commit) with
            | (s, .away) => s
            | (s, .stall) => s.setEngine n ((s.engine n).setWork commit i { m with kept := toBytes q.toNat u })
            | (s, .fail) => s.workEnd n i commit false
            | (s, .done _) =>
              (s.setEngine n ((s.engine n).setWork commit i { m with pos := m.pos + u })).workRun n i commit
  s.engineWake n

/-- The source range of a move lies in a receive buffer marked stale (R190, R200). -/
def State.staleSource (s : State) (a len : Nat) : Bool :=
  (List.range 8).any fun q =>
    let e := s.lengine q
    e.stale.any fun k =>
      let r := laneRec e.active k
      decide (r.buf ≤ a) && decide (a + len ≤ r.buf + r.len)

/-- A move starts, with the end of its window in ns (R190, R191). -/
def State.moveStart (s : State) (n i windowEnd : Nat) (rerun : Option Nat) : State :=
  let e := s.engine n
  let m := moveRec e.active i
  let s := s.setEngine n (e.setWork false i ⟨s.timeB.frameNo, 0, 0, windowEnd, m.src, false, rerun, []⟩)
  if m.len ≠ 0 ∧ s.staleSource m.src m.len = true then s.workEnd n i false false else s.workRun n i false

/-- A MOVE slot (R190). -/
def State.moveSlot (s : State) (n i : Nat) : State :=
  match s.slotDue n i 1 with
  | none => s
  | some r => (s.slotTake n i r).moveStart n r.index (s.tickTime (r.time + r.dur)) none

/-- The end of the window of a move or commit write: unfinished, it fails (R190). -/
def State.workWindow (s : State) (n i : Nat) (commit : Bool) : State :=
  if s.engineRuns n = false then s
  else match (s.engine n).work commit i with
    | none => s
    | some m => if m.st ≠ 0 then s else (s.advance m.windowEnd).workEnd n i commit false

/-- Every re-run move of a run in Takeover has ended (R189, R195): the spare run is released, or lost. -/
def State.rerunRelease (s : State) (n j : Nat) : State :=
  let jr := jobRec (s.engine n).active j
  if jr.spareDl ≤ s.tickNow then s.loseRun n j 1
  else
    let c := s.releaseCause n jr.spare jr.job
    if c = 0 then s.goRun n j else s.loseRun n j c

/-- The re-run move of a run in Takeover that is its turn has ended (R195): a failed REQUIRED move loses the spare run; the next
move starts, or after the last the spare run is released or lost. -/
def State.rerunGo (s : State) (n j : Nat) : State :=
  let e := s.engine n
  let jr := jobRec e.active j
  let r := e.run j
  let i := jr.moveFirst + r.nextMove
  match e.work false i with
  | none => s
  | some m =>
    if s.engineRuns n = false ∨ r.state ≠ 7 ∨ m.rerun ≠ some j ∨ m.st = 0 then s
    else if m.st = 2 ∧ (moveRec e.active i).required = true then s.loseRun n j 6
    else
      let k := r.nextMove + 1
      let s := s.setEngine n (e.setRun j { r with nextMove := k })
      if k < jr.moveCnt then s.moveStart n (i + 1) (s.now + 10 * (moveRec e.active (i + 1)).rerunDur) (some j)
      else s.rerunRelease n j

/-- The first re-run move starts (R195). -/
def State.rerunStart (s : State) (n j : Nat) : State :=
  let e := s.engine n
  let jr := jobRec e.active j
  if (e.run j).state ≠ 7 then s
  else
    if jr.moveCnt = 0 then s.rerunRelease n j
    else s.moveStart n jr.moveFirst (s.now + 10 * (moveRec e.active jr.moveFirst).rerunDur) (some j)

/-- A re-run move ends (R195): where it is still under way, its window has ended. -/
def State.rerunEnd (s : State) (n j : Nat) : State :=
  let e := s.engine n
  let jr := jobRec e.active j
  let r := e.run j
  let i := jr.moveFirst + r.nextMove
  if s.engineRuns n = false ∨ r.state ≠ 7 then s
  else
    let s := match e.work false i with
      | some m => if m.st = 0 ∧ m.rerun = some j then s.workWindow n i false else s
      | none => s
    s.rerunGo n j

/-- A spare engine takes a run over and starts its re-run moves (R195). -/
def State.takeoverRun (s : State) (n j cause : Nat) : State := (s.takeover n j cause).rerunStart n j

/-- A loss notice (R194, R195). -/
def State.lossNotice (s : State) (n : Nat) : State :=
  match s.takeNotice .loss n with
  | none => s
  | some (x, s) =>
    match s.watching n x with
    | none => s
    | some j => s.takeoverRun n j 0

/-- Tick DEADLINE + 100 without a completion notice (R195). -/
def State.noticeTimeout (s : State) (n j : Nat) : State :=
  let e := s.engine n
  let jr := jobRec e.active j
  if s.engineRuns n = false ∨ (e.run j).state ≠ 6 then s
  else (s.advance (s.tickTime (jr.deadline + 100))).takeoverRun n j 7

/-- The run that governs a commit record at a tick (R193), by job record. -/
def State.governing (s : State) (n : Nat) (c : CommitRec) (tick : Nat) : Option (Nat × Run) :=
  let e := s.engine n
  match e.recOf c.job c.isCopy with
  | none => none
  | some j =>
    match AMap.find? e.runs j with
    | none => none
    | some r =>
      if r.frame = s.timeB.frameNo ∧ tick ≤ r.rel then (AMap.find? e.prev j).map fun p => (j, p) else some (j, r)

/-- This engine owns a commit (R196): the primary's unless handed over, the spare's after takeover. -/
def owns (c : CommitRec) (g : Option (Nat × Run)) : Bool :=
  match g with
  | some (_, r) => if c.isCopy then r.own else !r.handed
  | none => !c.isCopy

/-- What a commit's bytes are (R193): a window's address, an offset in the pool, or nothing. -/
inductive CommitSrc where
  | window (a : Nat)
  | pool (o : Nat)
  | nothing
deriving DecidableEq, Repr

/-- The fallback of a commit, or nothing (R193). -/
def CommitRec.fall (c : CommitRec) : CommitSrc := if c.noFallback || c.fallback == 0xFFFFFFFF then .nothing else .pool c.fallback

/-- The bytes that the governing run names (R193). -/
def State.commitSrc (s : State) (n : Nat) (c : CommitRec) (g : Option (Nat × Run)) : CommitSrc :=
  match g with
  | some (j, r) =>
    let jr := jobRec (s.engine n).active j
    if r.ok ∧ (r.state = 3 ∨ r.state = 9 ∨ 11 ≤ r.state) then
      .window ((if jr.isCopy then jr.spareOut else jr.outBase) + c.off)
    else c.fall
  | none => c.fall

/-- STATUS of a vote (R197). -/
def CommitSrc.status : CommitSrc → Nat
  | .window _ => 0
  | .pool _ => 1
  | .nothing => 2

/-- The digest of a vote (R197): CRC-64 over DST and the bytes. -/
def voteDigest (dst : Nat) (bs : List Byte) : Word := BitVec.ofNat 64 (crcOf 3 (bytesOf dst 8 ++ bs.map fun b => b.toNat))

/-- The vote of a commit's bytes: STATUS, digest, whether the staging bytes were uncorrectable (R197). -/
def State.voteOf (s : State) (n : Nat) (c : CommitRec) (src : CommitSrc) : State × Nat × Word × Bool :=
  let b := (s.engine n).active
  let fall : Nat × Word := match c.fall with
    | .pool o => (1, voteDigest c.dst (poolBytes b o c.len))
    | _ => (1, 0)
  match src with
  | .window a =>
    match s.memRead (0x100 + n) a c.len with
    | (s, some bs) => (s, 0, voteDigest c.dst bs, false)
    | (s, none) => (s, fall.1, fall.2, true)
  | .pool o => (s, 1, voteDigest c.dst (poolBytes b o c.len), false)
  | .nothing => (s, 2, 0, false)

/-- The up link to a device (R309). -/
def State.devLink (s : State) (dev : Nat) : Option Nat :=
  (List.range 16).find? fun i => s.linkUp i && s.lfld i 0x108 39 32 == dev

/-- A VOTE slot (R197): the owning engine forms its vote and sends it to the other devices of the group. -/
def State.voteSlot (s : State) (n i : Nat) : State :=
  match s.slotDue n i 3 with
  | none => s
  | some r =>
    let s := s.slotTake n i r
    let c := commitRec (s.engine n).active r.index
    let g := s.governing n c r.time
    if owns c g = false then s
    else
      let (s, status, digest, bad) := s.voteOf n c (s.commitSrc n c g)
      let e := s.engine n
      let s := s.setEngine n { e with
        ballots := AMap.put r.index ⟨s.timeB.frameNo, digest, s.tickTime (r.time + r.dur), false, false, bad⟩ e.ballots }
      let v : VoteRec := ⟨s.devid, status, c.key, c.group, s.timeB.actGen, s.timeB.frameNo, digest⟩
      match groupRec s.timeB.active c.group with
      | none => s
      | some (mask, _, vc) =>
        (List.range 8).foldl (fun s d =>
          if bitAt mask d = false ∨ d = s.devid then s
          else match s.devLink d with
            | some l => s.sendFrame l vc 0 false (.vote v)
            | none => s) s
/-- A vote that comes too late (R198): counted, with an advisory record. -/
def State.lateVote (s : State) (n : Nat) : State := (s.count (pgSched n) 0x168).advisory (pgSched n) 2 0xFF

/-- A vote reaches an engine that holds its commit (R198, R309, R452): one of an earlier frame, one after its window's end, and a
second one of its device for the commit and frame come too late. -/
def State.voteArrives (s : State) (n i : Nat) (v : VoteRec) : State :=
  let e := s.engine n
  if s.engineRuns n = false then s
  else
    let closed := decide (v.frame < s.timeB.frameNo) || match AMap.find? e.ballots i with
      | some b => decide (b.frame = s.timeB.frameNo) && (b.judged || decide (b.windowEnd < s.now))
      | none => false
    let twice := e.votes.any fun x => x.dev == v.dev && x.group == v.group && x.key == v.key && x.frame == v.frame
    if closed || twice then s.lateVote n else s.setEngine n { e with votes := e.votes ++ [v] }

/-- Every engine that holds the commit of a vote: the primary's and the spare's (R197, R309). -/
def State.voteHolders (s : State) (v : VoteRec) : List (Nat × Nat) :=
  (List.range s.nRegions).filterMap fun n =>
    let b := (s.engine n).active
    ((List.range (secNcommit b)).find? fun i =>
      let c := commitRec b i
      c.agree && c.group == v.group && c.key == v.key).map fun i => (n, i)

/-- The devices of the agreeing set (R198). -/
def State.agreeing (s : State) (n i mask : Nat) (b : Ballot) : List Nat :=
  let e := s.engine n
  let c := commitRec e.active i
  (List.range 8).filter fun d =>
    bitAt mask d &&
    (d == s.devid || e.votes.any fun v =>
      v.dev == d && v.group == c.group && v.key == c.key && v.gen == s.timeB.actGen && v.frame == s.timeB.frameNo &&
      v.digest == b.digest)

/-- The vote window of a commit record ends (R198): the agreeing set decides. -/
def State.voteWindow (s : State) (n i : Nat) : State :=
  if s.engineRuns n = false then s
  else match AMap.find? (s.engine n).ballots i with
    | none => s
    | some b =>
      if b.judged ∨ b.frame ≠ s.timeB.frameNo then s
      else
        let s := s.advance b.windowEnd
        let e := s.engine n
        let c := commitRec e.active i
        match groupRec s.timeB.active c.group with
        | none => s.setEngine n { e with ballots := AMap.put i { b with judged := true } e.ballots }
        | some (mask, qmin, _) =>
          let set := s.agreeing n i mask b
          let all := (List.range 8).all fun d => !bitAt mask d || set.contains d
          let ok := all || (c.quorum && decide (qmin ≤ set.length))
          s.setEngine n { e with ballots := AMap.put i { b with judged := true, agreed := ok } e.ballots }

/-- A commit with AGREE writes as R193 gives: an agreeing set formed in this frame by this engine, its staging bytes readable
(R197, R198). -/
def State.agreed (s : State) (n i : Nat) (c : CommitRec) : Bool :=
  if c.agree then
    match AMap.find? (s.engine n).ballots i with
    | some b => decide (b.frame = s.timeB.frameNo) && b.judged && b.agreed && !b.uncorr
    | none => false
  else true

/-- A run is committed (R189). -/
def State.markCommit (s : State) (n : Nat) (g : Option (Nat × Run)) (st : Nat) : State :=
  match g with
  | none => s
  | some (j, r) =>
    if r.state = 3 ∨ r.state = 4 ∨ r.state = 9 ∨ r.state = 10 then
      let e := s.engine n
      if e.run j = r then s.setEngine n (e.setRun j { r with state := st })
      else s.setEngine n { e with prev := AMap.put j { r with state := st } e.prev }
    else s

/-- A COMMIT slot (R193, R196, R198). -/
def State.commitSlot (s : State) (n i : Nat) : State :=
  match s.slotDue n i 4 with
  | none => s
  | some r =>
    let s := s.slotTake n i r
    let c := commitRec (s.engine n).active r.index
    let g := s.governing n c r.time
    if owns c g = false then s
    else
      let src := if s.agreed n r.index c then s.commitSrc n c g else c.fall
      let src := if c.voteOnly then .nothing else src
      let go (s : State) (a : Nat) (pool : Bool) : State :=
        let e := s.engine n
        (s.setEngine n (e.setWork true r.index ⟨s.timeB.frameNo, 0, 0, s.tickTime (r.time + r.dur), a, pool, none, []⟩)).workRun n r.index true
      match src with
      | .window a => go (s.markCommit n g 11) a false
      | .pool o => go ((s.markCommit n g 12).count (pgSched n) 0x158) o true
      | .nothing => s.markCommit n g 13

/-- What an engine does at a tick of its own accord, in the classes of R188: the end of the window of a move or commit record, of a
vote, of a re-run move; the end of a run's deadline, tick DEADLINE + 100 of a watched run; a slot with its ACTION. -/
inductive TickEvent where
  | work (commit : Bool) (i : Nat)
  | ballot (i : Nat)
  | rerun (j : Nat)
  | deadline (copy : Bool) (j : Nat)
  | watch (j : Nat)
  | slot (action i : Nat)
deriving DecidableEq, Repr

/-- The place of an event in an engine's order: tick, class, record (R188). -/
def tickKey (tick cls i : Nat) : Nat := (tick * 8 + cls) * 65536 + i

/-- The tick in which a moment of this frame lies. -/
def State.tickOf (s : State) (ns : Nat) : Nat := (ns - s.timeB.frameStart) / 10

/-- The windows of an engine that have not ended. -/
def State.tickWindows (s : State) (n : Nat) : List (Nat × TickEvent) :=
  let e := s.engine n
  let own (j : Nat) : Bool := (e.run j).state == 7
  ((e.moves.filter fun x => x.2.st == 0).map fun x =>
    (tickKey (s.tickOf x.2.windowEnd) 2 x.1, match x.2.rerun with
      | some j => if own j then TickEvent.rerun j else .work false x.1
      | none => .work false x.1)) ++
  ((e.commits.filter fun x => x.2.st == 0).map fun x => (tickKey (s.tickOf x.2.windowEnd) 2 (2048 + x.1), TickEvent.work true x.1)) ++
  ((e.ballots.filter fun x => x.2.frame == s.timeB.frameNo && !x.2.judged).map fun x =>
    (tickKey (s.tickOf x.2.windowEnd) 2 (4096 + x.1), TickEvent.ballot x.1))

/-- The deadlines of an engine's runs that have not ended. -/
def State.tickDeadlines (s : State) (n : Nat) : List (Nat × TickEvent) :=
  let e := s.engine n
  e.runs.filterMap fun x =>
    let jr := jobRec e.active x.1
    match x.2.state with
    | 2 => if jr.isCopy then none else some (tickKey jr.deadline 3 x.1, .deadline false x.1)
    | 8 => if jr.isCopy then some (tickKey jr.spareDl 3 x.1, .deadline true x.1) else none
    | 6 => some (tickKey (jr.deadline + 100) 3 x.1, .watch x.1)
    | _ => none

/-- The slots of an engine that the frame selects and that have not acted. -/
def State.tickSlots (s : State) (n : Nat) : List (Nat × TickEvent) :=
  let e := s.engine n
  ((slots e.active).zipIdx.filter fun x => s.slotOn x.1 && !e.acted.contains x.2 && decide (1 ≤ x.1.action) && decide (x.1.action ≤ 4)).map fun x =>
    (tickKey x.1.time 4 x.2, TickEvent.slot x.1.action x.2)

/-- Everything that an engine has still to do in this frame; the slots where `all`. -/
def State.tickEvents (s : State) (n : Nat) (all : Bool) : List (Nat × TickEvent) :=
  if s.engineRuns n = false then []
  else s.tickWindows n ++ s.tickDeadlines n ++ (if all then s.tickSlots n else [])

/-- The first of them. -/
def firstEvent : List (Nat × TickEvent) → Option (Nat × TickEvent)
  | [] => none
  | e :: es => match firstEvent es with
    | some f => if f.1 < e.1 then some f else some e
    | none => some e

/-- The engine does it. -/
def State.tickDo (s : State) (n : Nat) (e : TickEvent) : State :=
  match e with
  | .work c i => s.workWindow n i c
  | .ballot i => s.voteWindow n i
  | .rerun j => s.rerunEnd n j
  | .deadline c j => s.deadlineEnd n j c
  | .watch j => s.noticeTimeout n j
  | .slot 1 i => s.moveSlot n i
  | .slot 2 i => s.releaseSlot n i
  | .slot 3 i => s.voteSlot n i
  | .slot 4 i => s.commitSlot n i
  | .slot _ _ => s

/-- An engine does everything that comes before a place in its order (R188). -/
def State.tickUpTo (s : State) (n key : Nat) (all : Bool) : Nat → State
  | 0 => s
  | fuel + 1 =>
    match firstEvent (s.tickEvents n all) with
    | none => s
    | some e => if e.1 < key then (s.tickDo n e.2).tickUpTo n key all fuel else s

/-- What an engine does before an event that is commanded: everything that its order puts first (R188). -/
def State.tickFirst (s : State) (n : Nat) (e : TickEvent) : State :=
  match (s.tickEvents n true).find? fun x => x.2 == e with
  | some x => s.tickUpTo n x.1 true 65536
  | none => s

/-- The slot `i` of link engine `q` acts now (R203). -/
def State.lslotDue (s : State) (q i a : Nat) : Option SlotRec :=
  let e := s.lengine q
  let r := slotRec e.active i
  if e.state = 1 ∧ i < secNslot e.active ∧ r.action = a ∧ s.slotOn r = true ∧ e.acted.contains i = false then some r else none

/-- Mark it. -/
def State.lslotTake (s : State) (q i : Nat) (r : SlotRec) : State :=
  let s := s.advance (s.tickTime r.time)
  let e := s.lengine q
  s.setLengine q { e with acted := e.acted ++ [i] }

/-- CNTSKIP of a tandem channel. -/
def State.tandemSkip (s : State) (c : Nat) : State := s.countSat pgVmemap (0x408 + 0x10 * c) 31 16

/-- The bridge's work at an RXCHK for one channel (R337): a fresh buffer goes to the outbound window as one entry that is not
posted; a stale one, or one whose channel still has a write in the queue, is skipped, as is one that finds the queue full. -/
def State.tandemOne (s : State) (q k c : Nat) (fresh : Bool) : State :=
  let mine (e : VmeEntry) : Bool := match e.work with
    | .bridge c' _ => c' == c
    | _ => false
  if fresh = false ∨ s.vme.queue.any mine = true ∨ 24 ≤ s.vme.queue.length then s.tandemSkip c
  else
    let r := laneRec (s.lengine q).active k
    let cfg := s.reg pgVmemap (0x400 + 0x10 * c)
    let a := (s.reg pgVmemap (owReg (bitsOf cfg 11 8) 0)).toNat + bitsOf cfg 63 32
    match s.memRead 0x250 r.buf r.len with
    | (s, none) => s.report 0x1E8 1 0xFF 0
    | (s, some bs) =>
      match s.owTranslate a with
      | none => s.report 0x1E8 1 0xFF 0
      | some (va, sp, part, sup, prog) => s.setVmeQueue (s.vme.queue ++ [⟨.bridge c bs, va, sp, part, sup, prog, false, s.now, false⟩])

/-- Every enabled channel with DIR 0 on the record (R337); none where the port has stopped (R339). -/
def State.tandemPass (s : State) (q k : Nat) (fresh : Bool) : State :=
  if s.vmeOn = false then s
  else (List.range 8).foldl (fun s c =>
    let cfg := s.reg pgVmemap (0x400 + 0x10 * c)
    if bitsOf cfg 0 0 = 1 ∧ bitsOf cfg 1 1 = 0 ∧ s.tandemRec c = (q, k) then s.tandemOne q k c fresh else s) s

/-- At a TX slot a tandem channel whose image is not exactly the record's buffer applies no hold (R338). -/
def State.tandemCheck (s : State) (q k : Nat) : State :=
  (List.range 8).foldl (fun s c =>
    let cfg := s.reg pgVmemap (0x400 + 0x10 * c)
    if bitsOf cfg 0 0 = 1 ∧ bitsOf cfg 1 1 = 1 ∧ s.tandemRec c = (q, k) ∧ s.tandemRange c (bitsOf cfg 11 8) = false then
      s.tandemSkip c
    else s) s

/-- DATA frames of a TX record: `m` bytes each, the last zero-padded to a multiple of 8 (R310). -/
def dataFrames (m : Nat) : Nat → List Byte → List (List Byte)
  | 0, _ => []
  | fuel + 1, bs =>
    if bs.isEmpty then []
    else if bs.length ≤ m then [pad8 bs]
    else bs.take m :: dataFrames m fuel (bs.drop m)

/-- The frames of a TX record with VC 0xFF: a 16-byte record header before each, padding to a multiple of 8 (R320). -/
def ethRecords : Nat → List Byte → List (List Byte)
  | 0, _ => []
  | fuel + 1, bs =>
    let n := ofBytes (bs.take 2)
    if bs.length < 16 ∨ n = 0 ∨ bs.length < 16 + n then []
    else (bs.drop 16).take n :: ethRecords fuel (bs.drop (16 + up8 n))

/-- The MAC of a rack lane sends the frames of a TX record of LSCHED (R320); one of a length that R319 does not have is not sent. -/
def State.lschedEth (s : State) (l : Nat) (bs : List Byte) : State :=
  (ethRecords (bs.length + 1) bs).foldl (fun s f =>
    if ethLength f.length then (s.emit (.eth (l - 16) (ethWire f) s.now)).count (pgEth (l - 16)) 0x140 else s) s

/-- The handover of a TX record's bytes to its lane is complete (R199): as DATA frames of 1,024 bytes, on an open VC of at most OPENMAX
(R303, R310, VCCFG; DEDUCED, assumption 68); counted, and a tandem channel's held cycles go on
(R338). A buffer that cannot be read, or a link that is not up, leaves the action to the end of its window. -/
def State.txDone (s : State) (q k : Nat) : State :=
  let e := s.lengine q
  let r := laneRec e.active k
  let l := 4 * q + r.lane
  match AMap.find? e.tx k with
  | none => s
  | some _ =>
    let fin (s : State) : State :=
      let e := s.lengine q
      ((s.setLengine q { e with tx := AMap.drop k e.tx }).count (pgLsched q) 0x128).inboundRelease q k
    if r.len = 0 then fin s
    else match s.memRead (0x120 + q) r.buf r.len with
      | (s, none) => s
      | (s, some bs) =>
        if r.vc = 0xFF then
          if s.laneState l = 5 ∧ s.laneProto l = 2 ∧ s.bit (pgEth (l - 16)) 0x100 0 = true then fin (s.lschedEth l bs) else s
        else
          let i := s.linkOfLane l
          if s.vcOpen i r.vc = false then s
          else
            let sched := s.lfld i 0x110 7 0 / 2 ^ r.vc % 2 == 1
            let m := if sched then 1024 else s.lfld i 0x110 47 32
            fin (((dataFrames m (bs.length + 1) bs).foldl (fun s b => s.queueFrame i r.vc 0 (!sched) (.data b)) s).pumpLink i)

/-- A TX slot (R191, R199). -/
def State.txSlot (s : State) (q i : Nat) : State :=
  match s.lslotDue q i 8 with
  | none => s
  | some r =>
    let s := s.lslotTake q i r
    let e := s.lengine q
    let s := s.setLengine q { e with tx := AMap.put r.index ⟨s.tickTime (r.time + r.dur)⟩ e.tx }
    let s := s.tandemCheck q r.index
    if (laneRec e.active r.index).len = 0 then s.txDone q r.index else s

/-- The window of a TX action ends with the handover unfinished (R199): counted late, the rest dropped; the cycles that a tandem
channel withheld go on. -/
def State.txWindow (s : State) (q k : Nat) : State :=
  let e := s.lengine q
  match AMap.find? e.tx k with
  | none => s
  | some x =>
    let s := s.advance x.windowEnd
    ((s.setLengine q { e with tx := AMap.drop k e.tx }).count (pgLsched q) 0x130).inboundRelease q k

/-- Byte ranges cover all of [0, len). -/
def coversAll : Nat → List (Nat × Nat) → Nat → Nat → Bool
  | 0, _, at', len => decide (len ≤ at')
  | fuel + 1, rs, at', len =>
    if len ≤ at' then true
    else match rs.find? fun r => decide (r.1 ≤ at') && decide (at' < r.2) with
      | some r => coversAll fuel rs r.2 len
      | none => false

/-- An RXCHK slot (R191, R200). -/
def State.rxchkSlot (s : State) (q i : Nat) : State :=
  match s.lslotDue q i 9 with
  | none => s
  | some sl =>
    let s := s.lslotTake q i sl
    let k := sl.index
    let e := s.lengine q
    let r := laneRec e.active k
    let w := AMap.get e.written (fun _ => []) k
    let fresh := coversAll (w.length + 1) w 0 r.len
    let s := s.setLengine q { e with
      written := AMap.drop k e.written
      stale := if fresh then e.stale.filter fun x => x != k else if e.stale.contains k then e.stale else e.stale ++ [k] }
    let s := s.setFld (pgLsched q) 0x120 k k (b2n fresh)
    (if fresh then s else s.count (pgLsched q) 0x138).tandemPass q k fresh

/-- A link engine's TX windows that have not ended and its slots that have not acted, each with its place and whether it is a slot. -/
def State.ltickEvents (s : State) (q : Nat) (all : Bool) : List (Nat × Bool × Nat) :=
  let e := s.lengine q
  if e.state ≠ 1 then []
  else
    (e.tx.map fun x => (tickKey (s.tickOf x.2.windowEnd) 2 x.1, false, x.1)) ++
    (if all then
      ((slots e.active).zipIdx.filter fun x => s.slotOn x.1 && !e.acted.contains x.2 && (x.1.action == 8 || x.1.action == 9)).map
        fun x => (tickKey x.1.time 4 x.2, true, x.2)
     else [])

/-- The first of them. -/
def firstLink : List (Nat × Bool × Nat) → Option (Nat × Bool × Nat)
  | [] => none
  | e :: es => match firstLink es with
    | some f => if f.1 < e.1 then some f else some e
    | none => some e

/-- A slot of a link engine, by its ACTION. -/
def State.lslotDo (s : State) (q i : Nat) : State :=
  match (slotRec (s.lengine q).active i).action with
  | 8 => s.txSlot q i
  | 9 => s.rxchkSlot q i
  | _ => s

/-- A link engine does everything that comes before a place in its order (R188). -/
def State.ltickUpTo (s : State) (q key : Nat) (all : Bool) : Nat → State
  | 0 => s
  | fuel + 1 =>
    match firstLink (s.ltickEvents q all) with
    | none => s
    | some e =>
      if e.1 < key then (if e.2.1 then s.lslotDo q e.2.2 else s.txWindow q e.2.2).ltickUpTo q key all fuel else s

/-- What a link engine does before a slot (`true`) or a TX window's end that is commanded (R188). -/
def State.ltickFirst (s : State) (q : Nat) (slot : Bool) (i : Nat) : State :=
  match (s.ltickEvents q true).find? fun x => x.2 == (slot, i) with
  | some x => s.ltickUpTo q x.1 true 65536
  | none => s

/-- Before a frame starts, the windows and deadlines of the frame that ends have ended (R188, R212). -/
def State.frameEnds (s : State) : State :=
  if s.timeB.actGen = 0 then s
  else
    let last := tickKey (hdrFrameLen s.timeB.active) 4 0
    let s := (List.range s.nRegions).foldl (fun s n => s.tickUpTo n last false 65536) s
    (List.range 8).foldl (fun s q => s.ltickUpTo q last false 65536) s

end Sys2Proof.Machine
end

