-- ==== Sys2Proof/Machine/Tmi.lean ====
section
/-! DEFINITION. The triad memory interface and the voter (R47 to R60, R71, R88, R92): presenting requests, agreement, release,
responses, the continuation of the groups that wait, tints, lag. -/

namespace Sys2Proof.Machine

/-- A kind that the fabric does not carry to a target (R52): TAS to register pages and peers, LDRS and STC to device space. -/
def kindBarred (k : ReqKind) (t : Target) : Bool :=
  match k, t with
  | .tas, .page _ => true
  | .tas, .peer _ => true
  | .ldrs, .page _ => true
  | .ldrs, .vme => true
  | .ldrs, .peer _ => true
  | .stc, .page _ => true
  | .stc, .vme => true
  | .stc, .peer _ => true
  | _, _ => false

/-- A request goes to its target (R26, R29, R31, R52): its response comes back to its origin. -/
def State.route (s : State) (r : FabReq) (open' : Bool) : State :=
  let t := classify r.addr
  if r.kind = .crc then s.enqueueSram (r.iid / 4) r
  else if kindBarred r.kind t ∨ s.bridgeCuts r.iid t = true then s.respond r.origin .err
  else match t with
    | .sram n => s.enqueueSram n r
    | .ddr k => s.enqueueDdr k r
    | .page _ =>
      if r.kind = .load then
        match s.busRead r.iid r.addr r.size with
        | (s, some v) => s.respond r.origin (.ok (v.zeroExtend 128))
        | (s, none) => s.respond r.origin .err
      else if r.kind = .store then
        match s.busWrite r.iid r.addr r.size (r.data.truncate 64) with
        | (s, some _) => s.respond r.origin (.ok 0)
        | (s, none) => s.respond r.origin .err
      else s.respond r.origin .err
    | .vme => ({ s with vmeIn := s.vmeIn ++ [r] } : State).outbound
    | .peer _ => s.peerIssue r open'
    | _ => s.respond r.origin .err

/-- The region whose firewall judges an access (R248). -/
def targetRegion (dies a : Nat) : Option Nat :=
  match classify a with
  | .sram n => some n
  | .page p => (pageKind dies p).bind fun k => pageRegion k.1 k.2
  | _ => none

/-- The MPU generation that copy `c` checks its requests under (R247). -/
def State.mpuGen (s : State) (t c : Nat) : Nat := bitsOf ((s.copy (3 * t + c)).crv 0x71) 31 0

/-- Issue part `h` of a triad's request under a tag (R59, R88). -/
def State.tmiIssue (s : State) (t tag h : Nat) (r : MemReq) : State :=
  match (reqParts r)[h]? with
  | none => s
  | some p =>
    let s := match targetRegion s.dies p.1 with
      | some n => s.takeTagFw tag (.tmi t tag) n
      | none => s.takeTag tag (.tmi t tag)
    s.route ⟨t, r.kind, p.1, p.2.1, r.data >>> (8 * p.2.2), r.flag, .tmi t tag, tag, 0⟩ false

/-- A free tag of copy `c` (R88). -/
def State.copyTag (s : State) (t c : Nat) : Option Nat := s.freeTag (8 * (3 * t + c)) 8

/-- The load overlaps a store in the output gate that has not been written (R54). -/
def Triad.loadBlocked (d : Triad) (r : MemReq) : Bool :=
  d.gate.any fun g =>
    g.resp.isNone &&
    match g.reqs with
    | (_, q) :: _ =>
      (q.kind == .store || q.kind == .stc || q.kind == .tas || q.kind == .frame) && rangesMeet q.addr q.size r.addr r.size
    | [] => false

/-- Replace a replay entry, or a gate entry, of its index and access. -/
def Triad.putReplay (d : Triad) (e : Replay) : Triad :=
  { d with replay := d.replay.map fun x => if x.index = e.index ∧ x.ord = e.ord then e else x }
def Triad.putGate (d : Triad) (e : Gate) : Triad :=
  { d with gate := d.gate.map fun x => if x.index = e.index ∧ x.ord = e.ord then e else x }

/-- The high-water marks of TMISTAT. -/
def State.tmiMarks (s : State) (t : Nat) : State :=
  let p := pgTriad t
  let d := s.triad t
  let s := if s.fld p 0x158 29 24 < d.gate.length then s.setFld p 0x158 29 24 d.gate.length else s
  if s.fld p 0x158 14 8 < d.replay.length then s.setFld p 0x158 14 8 d.replay.length else s

/-- The request of copy `c` counts as presented. -/
def State.markPresented (s : State) (t c : Nat) : State :=
  let p := s.copy (3 * t + c)
  match p.hold with
  | .mem r w _ => s.setCopy (3 * t + c) { p with hold := .mem r w true }
  | _ => s

/-- Copy `c` presents a side-effect-free load at its index (R53, R71 step 5). With the buffer full it stalls. -/
def State.presentReplay (s : State) (t c : Nat) (r : MemReq) (k o : Nat) : State :=
  let d := s.triad t
  match d.replayAt k o with
  | none =>
    if 64 ≤ d.replay.length then s
    else ((s.setTriad t { d with replay := d.replay ++ [newReplay k o r [c] (s.mpuGen t c)] }).markPresented t c).tmiMarks t
  | some e =>
    let s := s.markPresented t c
    let put (s : State) (e : Replay) : State := s.setTriad t ((s.triad t).putReplay e)
    if e.req = r then
      let s := put s { e with same := e.same ++ [c] }
      match e.dissent with
      | some (x, _) => s.eject t x k 2 false
      | none => s
    else if e.orphan then
      if e.same.isEmpty then put s (newReplay k o r [c] (s.mpuGen t c)) else s.disagree t k 2 false
    else match s.running t with
      | [_, _, _] =>
        match e.dissent with
        | none => if 2 ≤ e.same.length then s.eject t c k 2 false else put s { e with dissent := some (c, r) }
        | some (x, q) =>
          if q = r then
            let s := s.eject t e.issuer k 2 false
            if (s.triad t).mode = 5 then s else put s (newReplay k o r [x, c] (s.mpuGen t c))
          else s.noMajority t k 2 false
      | _ => s.disagree t k 2 false

/-- The request that two of a gate entry's copies agree on (R52). -/
def Gate.agreed (e : Gate) : Option MemReq :=
  (e.reqs.find? fun a => e.reqs.any fun b => b.1 != a.1 && b.2 == a.2).map fun a => a.2

/-- Copy `c` presents a gated request at its index (R55, R71). With the gate full it stalls. -/
def State.presentGate (s : State) (t c : Nat) (r : MemReq) (k o : Nat) : State :=
  let d := s.triad t
  match d.gateAt k o with
  | none =>
    if 32 ≤ d.gate.length then s
    else
      let e : Gate :=
        { index := k, ord := o, reqs := [(c, r)], released := false, by' := 3, todo := [], tag := none, acc := 0, bad := none
          resp := none, got := [], gen := s.mpuGen t c }
      ((s.setTriad t { d with gate := d.gate ++ [e] }).markPresented t c).tmiMarks t
  | some e =>
    let s := s.markPresented t c
    let e' : Gate := { e with reqs := e.reqs ++ [(c, r)] }
    let s := s.setTriad t ((s.triad t).putGate e')
    let three := (s.running t).length = 3
    if e.released then
      match e.agreed with
      | some q => if q = r then s else if three then s.eject t c k 1 false else s.disagree t k 1 false
      | none => s
    else match e'.agreed with
      | some q =>
        match e'.reqs.find? fun x => x.2 != q with
        | some x => if three then s.eject t x.1 k 1 false else s
        | none => s
      | none =>
        if three then (if 3 ≤ e'.reqs.length then s.noMajority t k 1 false else s)
        else if 2 ≤ e'.reqs.length then s.disagree t k 1 false
        else s

/-- Entries that every running copy has consumed are freed (R53, R56). -/
def State.tmiFree (s : State) (t : Nat) : State :=
  let d := s.triad t
  let run := s.running t
  let all (got : List Nat) : Bool := run.all fun c => got.contains c
  let d' : Triad := { d with
    replay := d.replay.filter fun e => !all e.got
    gate := d.gate.filter fun e => !(e.resp.isSome && all e.got) }
  if d' = d then s else s.setTriad t d'

/-- The gate entry that may be released next: agreed by the running copies, no unreleased one of a lower index before it (R55). -/
def State.gateNext (s : State) (t : Nat) : Option Gate :=
  let d := s.triad t
  d.gate.find? fun e =>
    !e.released && e.agreed.isSome &&
    d.gate.all fun x => x.released || decide (e.index < x.index) || (x.index == e.index && decide (e.ord ≤ x.ord))

/-- Release the next gate entry (R55, R88). -/
def State.gateRelease (s : State) (t : Nat) : Option State :=
  match s.gateNext t with
  | none => none
  | some e =>
    match e.agreed with
    | none => none
    | some q =>
      let who := (e.reqs.filter fun x => x.2 == q).map fun x => x.1
      let by' := who.foldl min 3
      some (s.setTriad t ((s.triad t).putGate { e with released := true, by' := by', todo := List.range (reqParts q).length }))

/-- A released entry issues its next part, one after another (R59). -/
def State.gateIssue (s : State) (t : Nat) : Option State :=
  let d := s.triad t
  match d.gate.find? fun e => e.released && e.tag.isNone && e.resp.isNone && !e.todo.isEmpty && (s.copyTag t e.by').isSome with
  | none => none
  | some e =>
    match e.todo, e.agreed, s.copyTag t e.by' with
    | h :: rest, some q, some tag =>
      some ((s.setTriad t (d.putGate { e with todo := rest, tag := some (tag, h) })).tmiIssue t tag h q)
    | _, _, _ => none

/-- A replay entry issues a part of its load (R53, R54, R59). -/
def State.replayIssue (s : State) (t : Nat) : Option State :=
  let d := s.triad t
  match d.replay.find? fun e => !e.todo.isEmpty && !d.loadBlocked e.req && (s.copyTag t e.issuer).isSome with
  | none => none
  | some e =>
    match e.todo, s.copyTag t e.issuer with
    | h :: rest, some tag =>
      some ((s.setTriad t (d.putReplay { e with todo := rest, tags := e.tags ++ [(tag, h)] })).tmiIssue t tag h e.req)
    | _, _ => none

/-- The entry for vector `v` would push its frame outside the TCM: it waits at the TMI, and the copy retires nothing (R160, R170). -/
def Copy.pushLeaves (p : Copy) (v : Nat) : Bool :=
  let q := p.endShadows fun _ => false
  let tg := faultTarget q v
  let f := q.gAt (spBank tg) - 16
  !p.emerg && decide (classify f.toNat ≠ .tcm) && (accFault q tg ⟨.frame, f, 16, false, .lit 0, true⟩).isNone

/-- A held copy retires nothing (R44, R45, R74), but its group goes on where a further access of it, or the frame of the bus error that
it takes, goes to the TMI (R56, R60). -/
def Copy.goesOnHeld (p : Copy) (w : Work) (x : Resp) : Bool :=
  match w, x with
  | .instr _ _ _ rest _, .ok _ => rest.any isFabric
  | .instr _ _ _ _ _, .err => p.pushLeaves 3
  | .entry _, _ => false

/-- The result that waits for copy `c` at its head, with the part that failed. -/
def State.readyFor (s : State) (t c : Nat) : Option (Resp × Nat × MemReq × Work) :=
  let p := s.copy (3 * t + c)
  let d := s.triad t
  let free (x : Resp) (w : Work) : Bool := !s.held t c || p.goesOnHeld w x
  match p.hold with
  | .mem r w true =>
    if p.st ≠ .running then none
    else if reqIsReplay r then
      match d.replayAt p.retcnt w.ord with
      | some e =>
        if e.got.contains c ∨ e.same.contains c = false ∨ e.req ≠ r then none
        else match e.result with
          | some x => if free x w then some (x, e.bad.getD 0, r, w) else none
          | none => none
      | none => none
    else match d.gateAt p.retcnt w.ord with
      | some e =>
        if e.got.contains c ∨ e.reqs.contains (c, r) = false then none
        else match e.resp with
          | some x => if free x w then some (x, e.bad.getD 0, r, w) else none
          | none => none
      | none => none
  | _ => none

/-- Copy `c` has its result. -/
def State.tmiGot (s : State) (t c k o : Nat) (replay : Bool) : State :=
  let d := s.triad t
  if replay then
    match d.replayAt k o with
    | some e => s.setTriad t (d.putReplay { e with got := e.got ++ [c] })
    | none => s
  else
    match d.gateAt k o with
    | some e => s.setTriad t (d.putGate { e with got := e.got ++ [c] })
    | none => s

/-- A copy consumes its result: its group goes on, retires or takes a bus error; an entry's frame stands, or the emergency
follows (R56, R143, R160, R172). -/
def State.tmiDeliver (s : State) (t c : Nat) : Option State :=
  match s.readyFor t c with
  | none => none
  | some (x, half, r, w) =>
    let k := 3 * t + c
    let s := s.tmiGot t c (s.copy k).retcnt w.ord (reqIsReplay r)
    some <| match w, x with
    | .instr y i rep rest vals, .ok q => s.runAccs y i rep rest (vals ++ [q])
    | .instr y _ _ _ _, .err => s.accessError y (s.held t c) r half
    | .entry e, .ok _ => (s.setCopy k ((s.copy k).finishEntry s.now e)).afterGroup t
    | .entry e, .err =>
      let p := s.copy k
      s.emergencyEntry t c { p with hold := .none } e.vec e.target 5 e.oldSp e.adr e.inf e.arithPc

/-- A FENCE that may retire does (R151, R253). -/
def State.fenceDone (s : State) (t c : Nat) : Option State :=
  let p := s.copy (3 * t + c)
  match p.hold with
  | .fence rule len =>
    if p.st = .running ∧ s.held t c = false ∧ s.fenceOpen t c rule = true then
      some ((s.setCopy (3 * t + c) { p with hold := .none }).emptyGroup t c len)
    else none
  | _ => none

/-- One step of the TMI of triad `t`: compare the tints that are due, release, issue, or let a copy go on. -/
def State.tmiStep (s : State) (t : Nat) : Option State :=
  firstStep s
    [fun s => if (s.tintsDue t).isEmpty then none else some (s.voteDue t), fun s => s.gateRelease t, fun s => s.gateIssue t, fun s => s.replayIssue t,
     fun s => s.tmiDeliver t 0, fun s => s.tmiDeliver t 1, fun s => s.tmiDeliver t 2,
     fun s => s.fenceDone t 0, fun s => s.fenceDone t 1, fun s => s.fenceDone t 2,
     fun s => s.popGroup t 0, fun s => s.popGroup t 1, fun s => s.popGroup t 2]

/-- The TMI does everything it can now. -/
def State.tmiPump (s : State) (t : Nat) : Nat → State
  | 0 => s
  | fuel + 1 =>
    match (s.tmiFree t).tmiStep t with
    | none => s.tmiFree t
    | some s' => s'.tmiPump t fuel

/-- The steps that a TMI can take before its copies must present again: every entry is released, issued in two parts, consumed
by three copies, every copy retires a FENCE and the groups it has issued ahead; three times over. -/
def tmiFuel : Nat := 1024

/-- A copy presents the request at its head, through the replay buffer or the output gate. -/
def State.present (s : State) (t c : Nat) (replay : Bool) : State :=
  if c < 3 ∧ t < s.nTriads then
    let p := s.copy (3 * t + c)
    match p.hold with
    | .mem r w false =>
      if p.st ≠ .running ∨ reqIsReplay r ≠ replay then s
      else
        let s := if replay then s.presentReplay t c r p.retcnt w.ord else s.presentGate t c r p.retcnt w.ord
        s.tmiPump t tmiFuel
    | _ => s
  else s

/-- The tag of a response comes free; a response under a tag that is not outstanding is a protocol fault and is discarded
(R37, R256). -/
def State.retireTag (s : State) (tag : Nat) (o : Origin) : State × Bool :=
  if s.tags.any fun e => e.tag == tag && e.origin == o then (s.dropTag tag, true) else (s.report 0x1EE 1 0xFF 0, false)

/-- A part of a gated access has ended (R56, R59): the first error ends it; after the last the response is recorded. -/
def Gate.take (e : Gate) (h off n : Nat) (r : Resp) : Gate :=
  match r with
  | .err => { e with tag := none, bad := some h, resp := some .err }
  | .ok q =>
    let acc := e.acc ||| (lowBytes q n <<< (8 * off))
    { e with tag := none, acc := acc, resp := if e.todo.isEmpty then some (.ok acc) else none }

/-- A part of a replay load has ended (R53, R59). -/
def Replay.take (e : Replay) (tag h off n : Nat) (r : Resp) : Replay :=
  let tags := e.tags.filter fun x => x.1 != tag
  let e := match r with
    | .err => { e with bad := some (match e.bad with | some b => min b h | none => h) }
    | .ok q => { e with acc := e.acc ||| (lowBytes q n <<< (8 * off)) }
  let done := e.todo.isEmpty && tags.isEmpty
  { e with tags := tags, result := if done then some (if e.bad.isSome then .err else .ok e.acc) else none }

/-- A response reaches the TMI (R56): it goes to the entry that holds its tag; with none, it is dropped (R69). -/
def State.tmiTake (s : State) (t tag : Nat) (r : Resp) : State :=
  let d := s.triad t
  match d.gate.find? fun e => match e.tag with | some x => x.1 == tag | none => false with
  | some e =>
    let h := (e.tag.map fun x => x.2).getD 0
    match e.agreed.bind fun q => (reqParts q)[h]? with
    | some p => s.setTriad t (d.putGate (e.take h p.2.2 p.2.1 r))
    | none => s
  | none =>
    match d.replay.find? fun e => e.tags.any fun x => x.1 == tag with
    | some e =>
      let h := ((e.tags.find? fun x => x.1 == tag).map fun x => x.2).getD 0
      match (reqParts e.req)[h]? with
      | some p => s.setTriad t (d.putReplay (e.take tag h p.2.2 p.2.1 r))
      | none => s
    | none => s

/-- Whether a response is for the TMI of triad `t`. -/
def forTmi (t : Nat) (e : Origin × Resp) : Bool :=
  match e.1 with
  | .tmi u _ => u == t
  | _ => false

/-- TMI_RESPONSE: the next response on its way to triad `t` arrives, and everything that waited for it goes on; with none, what
waited for the stagger or the skew window alone goes on. -/
def State.tmiResponse (s : State) (t : Nat) : State :=
  if t < s.nTriads then
    let s := match s.resps.find? (forTmi t) with
      | none => s
      | some e =>
        let s : State := { s with resps := s.resps.erase e }
        match e.1 with
        | .tmi _ tag =>
          match s.retireTag tag e.1 with
          | (s, true) => s.tmiTake t tag e.2
          | (s, false) => s
        | _ => s
    s.tmiPump t tmiFuel
  else s

/-- TINT_ARRIVAL: the oldest tint of a copy reaches the voter (R49, R50). -/
def State.tintArrival (s : State) (t c : Nat) : State :=
  if c < 3 ∧ t < s.nTriads then (s.tintComes t c).tmiPump t tmiFuel else s

/-- Running copy `y` is stalled, waiting for copy `c` (R47). -/
def State.waitsFor (s : State) (t y c : Nat) : Bool :=
  let p := s.copy (3 * t + y)
  let k := (s.copy (3 * t + c)).retcnt
  let d := s.triad t
  let stag := decide (s.predecessor t y = some c) && s.staggerHeld t y
  let skew := decide (s.skew t ≤ p.retcnt) && decide (k ≤ p.retcnt - s.skew t)
  let tmi := match p.hold with
    | .mem r w shown =>
      if reqIsReplay r then
        match d.replayAt p.retcnt w.ord with
        | some e => e.dissent.isSome && !e.same.contains c && decide (e.dissent.map (fun x => x.1) ≠ some c)
        | none => !shown && decide (64 ≤ d.replay.length) && d.replay.any fun e => !e.got.contains c
      else match d.gateAt p.retcnt w.ord with
        | some e => !e.released && !(e.reqs.any fun x => x.1 == c)
        | none => !shown && decide (32 ≤ d.gate.length) && d.gate.any fun e => !e.got.contains c
    | _ => false
  stag || skew || tmi

/-- LAG_LIMIT: a copy that has retired nothing for LAGLIM while another waits for it diverges (R47, R51). -/
def State.lagLimitHit (s : State) (t c : Nat) : State :=
  if c < 3 ∧ t < s.nTriads then
    let p := s.copy (3 * t + c)
    if p.st ≠ .running ∨ ((s.running t).any fun y => y != c && s.waitsFor t y c) = false then s
    else
      let s := s.advance (p.lastRetire + 1000 * s.lagLimit t)
      (s.copyFault t c p.retcnt 4 false).tmiPump t tmiFuel
  else s

end Sys2Proof.Machine
end

