-- ==== Sys2Proof/Machine/Negotiate.lean ====
section
/-! DEFINITION. Negotiation of lanes (R293 to R298, R311 to R313): signal, capability exchange, rate change, training, confirmation,
spares. -/

namespace Sys2Proof.Machine

/-- The rate codes of BVL by CAP RATEMASK bit: 8, 5, 3, 1 (R295). -/
def capRates : List Nat := [8, 5, 3, 1]

/-- CAP RATEMASK of a set of permitted rate codes (R291, R295). -/
def capRateMask (lctl : Nat) : Nat :=
  (capRates.zipIdx).foldl (fun m e => if bitAt lctl (e.1 - 1) then m + 2 ^ e.2 else m) 0

/-- The versions that a quad supports: 1 and 2 with the first BVL microcode, else those of the code loaded (R296, R404, R413). -/
def State.ownVersions (s : State) (q : Nat) : Nat := AMap.get s.bvlVers (fun _ => 0x06) q

/-- STATE that the device shows in its CAP frames: 1 DEVICE-SAFE, 2 start (R295, R309). -/
def State.capState (s : State) : Nat := if s.dsafe then 1 else if s.fld pgWarden 0x108 3 0 ≤ 1 then 2 else 0

/-- DEVICE.PGID (R419, R429). -/
def State.ownId (s : State) : Word := s.rHeader .device 0 pgDevice 0x00 0

/-- The CAP frame that a lane sends (R295): what it supports and its registers permit. -/
def State.ownCap (s : State) (l : Nat) : Cap :=
  let i := s.linkOfLane l
  { vermask := Nat.land (s.ownVersions (l / 4)) (s.lfld i 0x100 15 8)
    ratemask := capRateMask (s.fld (pgLane l) 0x100 8 0)
    maxlanes := s.lfld i 0x100 2 0, srcdev := s.devid, link := i, state := s.capState, ready := (s.lane l).ready
    master := decide (s.lfld i 0x118 1 0 ≠ 0) && decide (i < 16), partid := s.ownId }

/-- Signal is detected on a lane for 10 us (R293, R294). A lane that a link has asked for or is to train as a spare makes no capability
exchange (R312). -/
def State.signalDetect (s : State) (l : Nat) : State :=
  if 32 ≤ l ∨ s.laneState l = 0 ∨ s.laneState l = 10 then s
  else
    let lost := s.bit (pgLane l) 0x108 8 = false
    let s := s.setFld (pgLane l) 0x108 8 8 1
    let st := s.laneState l
    if st = 1 ∧ s.laneBvl l = true then
      if (s.lane l).spareFor.isSome then s else (s.setLane l LaneSt.idle).setLaneState l 2 8
    else if (st = 8 ∨ st = 6) ∧ lost then s.setLaneState l 1 0
    else s

/-- The highest common Ethernet ability: codes 2, 4, 6, 7, 9 from the fastest down (R291, R294). -/
def ethAbility (own partner : Nat) : Option Nat := [2, 4, 6, 7, 9].find? fun r => bitAt own (r - 1) && bitAt partner (r - 1)

/-- Clause 73 auto-negotiation ends (R294): the partner's abilities by rate code, whether both sides use RS-FEC at 25G, the
partner's base page. -/
def State.autoNegotiate (s : State) (l abilities : Nat) (fec : Bool) (page : Nat) : State :=
  if s.laneState l ≠ 1 ∨ s.laneProto l ≠ 2 ∨ s.bit (pgLane l) 0x108 8 = false then s
  else match ethAbility (s.fld (pgLane l) 0x100 8 0) abilities with
    | none =>
      let x := s.lane l
      if x.noAbility then s else (s.setLane l { x with noAbility := true }).report (quadSrc l 1) 4 (l % 4) 0
    | some r =>
      let f := if r = 2 ∨ r = 4 then 1 else if r = 6 ∧ fec = true then 2 else 0
      let s := s.setLane l { LaneSt.idle with rate := r, version := f, lanes := page % 2 ^ 48 }
      s.setLaneState l 3 r

/-- The partner entry of an Ethernet lane (R298, PARTNER0, PARTNER1). -/
def State.ethPartner (s : State) (l : Nat) : State :=
  let x := s.lane l
  let w := 2 + x.rate * 16 + x.version * 2 ^ 8 + 2 ^ 24 + 0xFF * 2 ^ 40
  ((s.setReg (pgLane l) 0x110 (BitVec.ofNat 64 w)).setReg (pgLane l) 0x118 (BitVec.ofNat 64 x.lanes)).advisory (pgLane l) 1 0xFF

/-- A lane sends a CAP frame (R295, R297, R309): in exchange, confirmation or quarantine, or under DEVICE-SAFE on a join link. -/
def State.capSend (s : State) (l : Nat) : State :=
  let st := s.laneState l
  if s.laneBvl l = true ∧ (st = 2 ∨ st = 4 ∨ st = 6 ∨ (st = 5 ∧ s.dsafe = true ∧ l < 16)) then s.emit (.cap l (s.ownCap l)) else s

/-- A device is already the partner of another link (R297 code 3). -/
def State.partnerElsewhere (s : State) (i dev : Nat) : Bool :=
  dev != 0xFF && (List.range 32).any fun y =>
    s.linkOfLane y != i && s.fld (pgLane y) 0x110 1 0 == 1 && s.fld (pgLane y) 0x110 47 40 == dev &&
    s.fld (pgLane y) 0x110 55 52 == 0

/-- The lane's partner differs from those of the lanes already in its link (R297 code 6). -/
def State.partnerDiffers (s : State) (i l : Nat) (c : Cap) : Bool :=
  (s.linkLanes i).any fun y =>
    y != l && s.fld (pgLane y) 0x110 1 0 == 1 && s.fld (pgLane y) 0x110 55 52 == 0 &&
    (s.fld (pgLane y) 0x110 47 40 != c.srcdev || s.fld (pgLane y) 0x110 36 32 != c.link % 32)

/-- The version chosen (R296): the highest in both masks and in BLCFG. -/
def chosenVersion (own partner : Nat) : Nat := topBit (Nat.land own partner) 15

/-- The rate chosen (R296): the highest common; version 1 has codes 5 and 8 only. -/
def chosenRate (own partner version : Nat) : Option Nat :=
  ([1, 3, 5, 8].filter fun r => decide (version ≠ 1) || decide (5 ≤ r)).find? fun r =>
    match indexFrom r 0 capRates with
    | some b => bitAt own b && bitAt partner b
    | none => false

/-- The quarantine code that a CAP brings (R297), the lowest that holds; 0 for none. -/
def State.quarantineCode (s : State) (l : Nat) (c : Cap) : Nat :=
  let i := s.linkOfLane l
  let own := s.ownCap l
  let v := chosenVersion own.vermask c.vermask
  if v = 0 then 1
  else if c.srcdev = s.devid then 2
  else if s.partnerElsewhere i c.srcdev then 3
  else if l < 16 ∧ c.srcdev = 0xFF then 4
  else if (chosenRate own.ratemask c.ratemask v).isNone then 5
  else if s.partnerDiffers i l c then 6
  else 0

/-- Equal but for READY. -/
def sameCap (a b : Cap) : Bool := { a with ready := false } == { b with ready := false }

/-- A CAP of the exchange (R295, R296, R297). -/
def State.capExchange (s : State) (l : Nat) (c : Cap) : State :=
  let x := s.lane l
  let n := match x.cap with
    | some p => if sameCap p c then x.count + 1 else 1
    | none => 1
  let x : LaneSt := { x with cap := some c, count := n, ready := x.ready || decide (3 ≤ n), partnerReady := c.ready }
  let s := s.setLane l x
  if n < 3 then s
  else
    let q := s.quarantineCode l c
    if q ≠ 0 then
      let i := s.linkOfLane l
      let was := s.linkState i
      let s := s.laneQuarantine l q
      if was ≠ 4 ∧ s.linkState i = 4 then s.report (quadSrc l 1) 2 (l % 4) 0 else s
    else
      let own := s.ownCap l
      let v := chosenVersion own.vermask c.vermask
      let r := (chosenRate own.ratemask c.ratemask v).getD 8
      s.setLane l { x with version := v, rate := r, lanes := min own.maxlanes c.maxlanes }

/-- Both sides have shown READY: the lane changes to the chosen rate (R295). -/
def State.rateChange (s : State) (l : Nat) : State :=
  let x := s.lane l
  if s.laneState l = 2 ∧ x.ready = true ∧ x.partnerReady = true ∧ x.rate ≠ 0 then s.setLaneState l 3 x.rate else s

/-- The equaliser converges (R293, R313). -/
def State.converged (s : State) (l : Nat) : State :=
  if s.laneState l = 3 then
    if s.laneBvl l = true then s.setLaneState l 4 (s.lane l).rate
    else ((s.ethPartner l).setLaneState l 5 (s.lane l).rate).laneMac l
  else if s.laneState l = 9 then ((s.setLaneState l 5 (s.fld (pgLane l) 0x108 15 12)).laneMac l).advisory (pgLane l) 2 0xFF
  else s

/-- Training exceeds its limit (R293). -/
def State.trainingLimit (s : State) (l : Nat) : State :=
  if s.laneState l = 3 ∨ s.laneState l = 9 then s.laneFail l 5 else s

/-- No CAP within 100 us of Confirm (R293). -/
def State.confirmTimeout (s : State) (l : Nat) : State := if s.laneState l = 4 then s.setLaneState l 1 0 else s

/-- A lane fails, or a failed or quarantined one loses its signal (R293, R311). -/
def State.laneFailure (s : State) (l why : Nat) : State :=
  if s.laneState l = 5 ∧ 1 ≤ why ∧ why ≤ 4 then s.laneFail l why
  else if why = 1 ∧ (s.laneState l = 8 ∨ s.laneState l = 6) then s.setFld (pgLane l) 0x108 8 8 0
  else s

/-- A spare lane is trained at the link's rate without capability exchange (R312). -/
def State.spareTrain (s : State) (i l : Nat) : State :=
  let k := (s.activeLanes i).headD i
  let x := s.lane k
  let s := s.setLane l { LaneSt.idle with version := x.version, rate := s.fld (pgLane k) 0x108 15 12, lanes := x.lanes, spareFor := some i }
  s.setLaneState l 3 (s.fld (pgLane k) 0x108 15 12)

/-- A spare has not joined within 30 ms (R312). -/
def State.spareTimeout (s : State) (l : Nat) : State :=
  let x := s.lane l
  match x.spareFor with
  | none => s
  | some i =>
    let s := s.setLane l { x with spareFor := none }
    let s := s.setLink i { s.link i with spareAsked := none }
    s.laneFail l 6

/-- The partner's STATE reaches the entries of the link's lanes that have this partner (R298, R309). -/
def State.partnerState (s : State) (i : Nat) (c : Cap) : State :=
  (s.linkLanes i).foldl (fun s y =>
    if s.fld (pgLane y) 0x110 1 0 = 1 ∧ s.fld (pgLane y) 0x110 47 40 = c.srcdev ∧ s.fld (pgLane y) 0x110 36 32 = c.link % 32 then
      s.setFld (pgLane y) 0x110 51 48 c.state
    else s) s

/-- A CAP in Confirm (R293): equal to the chosen mode, the lane joins; any other returns it to Detect. A spare's is held against
the link's partner (R312). -/
def State.capConfirm (s : State) (l : Nat) (c : Cap) : State :=
  let x := s.lane l
  match x.spareFor with
  | some i =>
    let k := (s.activeLanes i).headD i
    if s.fld (pgLane k) 0x110 47 40 = c.srcdev ∧ s.fld (pgLane k) 0x110 36 32 = c.link % 32 then
      (s.setLane l { x with cap := some c }).laneJoin l
    else s.setLaneState l 1 0
  | none =>
    match x.cap with
    | some p =>
      if sameCap { p with state := c.state } c then (s.setLane l { x with cap := some c }).laneJoin l else s.setLaneState l 1 0
    | none => s.setLaneState l 1 0

/-- A good CAP frame on a lane (R293, R295, R298). -/
def State.capTake (s : State) (l : Nat) (c : Cap) : State :=
  match s.laneState l with
  | 2 => s.capExchange l c
  | 4 => s.capConfirm l c
  | 5 => s.partnerState (s.linkOfLane l) c
  | 6 => s.partnerState (s.linkOfLane l) c
  | 7 => s.partnerState (s.linkOfLane l) c
  | _ => s

end Sys2Proof.Machine
end

