-- ==== Sys2Proof/Machine/LinkRecv.lean ====
section
/-! DEFINITION. Receiving on BVL links (R301 to R310, R315 to R317): frame checks, sequence numbers, delivery, the serving side of
peer transactions, TIME, timeouts; responses to engines and peers. -/

namespace Sys2Proof.Machine

/-- A frame is discarded (CNTDISC). -/
def State.discFrames (s : State) (i n : Nat) : State := (List.range n).foldl (fun s _ => s.lcount i 0x140) s

/-- An RSP goes back under the peer's own tag (R38, R307). -/
def State.sendRsp (s : State) (i : Nat) (p : PeerIn) (ok : Bool) : State :=
  let n := if p.size ≤ 8 then 8 else p.size
  let data := if ok && p.load then p.bytes ++ List.replicate (n - p.bytes.length) 0 else []
  s.sendFrame i 1 p.tag p.plane (.rsp (if ok then 0 else 1) data)

/-- The serving transaction of a peer's tag. -/
def Link.serving (k : Link) (dev tag : Nat) : Option PeerIn := k.peerIn.find? fun p => p.dev == dev && p.tag == tag
def Link.dropServing (k : Link) (dev tag : Nat) : Link := { k with peerIn := k.peerIn.filter fun p => !(p.dev == dev && p.tag == tag) }

/-- A serving transaction ends (R307). -/
def State.peerEnd (s : State) (i : Nat) (p : PeerIn) (ok : Bool) : State :=
  (s.setLink i ((s.link i).dropServing p.dev p.tag)).sendRsp i p ok

/-- Issue the next piece of a serving transaction, at most 16 bytes, under a tag of the engine (R38, R249); with every tag out it
stalls (R36). -/
def State.peerPiece (s : State) (i : Nat) (p : PeerIn) : State :=
  let base := if i < 16 then 0x8000 + 1024 * i else 0x2000 + 512 * (i - 16)
  match s.freeTag base (if i < 16 then 1024 else 512) with
  | none => s
  | some tag =>
    let n := min 16 (p.size - p.pos)
    let o : Origin := .peer i p.dev p.tag p.pos
    let data := (p.bytes.drop p.pos).take n
    let r : FabReq :=
      ⟨0x0300 + p.dev, if p.load then .load else .store, p.addr + p.pos, n,
       if p.load then 0 else BitVec.ofNat 128 (ofBytes data), false, o, tag, 0⟩
    (s.takeTag tag o).route r p.plane

/-- The offsets of a peer window that reach something (R29). -/
def peerRange (o : Nat) : Bool :=
  match classify o with
  | .sram _ => true
  | .page _ => true
  | .ddr _ => true
  | _ => false

/-- A REQ is served (R29, R307). -/
def State.peerServe (s : State) (i : Nat) (h : BvlHdr) (addr kind width : Nat) (bytes : List Byte) : State :=
  let size := if width = 6 then 64 else 2 ^ (width % 4)
  let p : PeerIn := ⟨h.srcdev, h.tag, h.plane, kind == 1, addr, size, 0, if kind = 1 then [] else bytes.take size, s.now⟩
  let bad := (kind ≠ 1 ∧ kind ≠ 2) ∨ (3 < width ∧ width ≠ 6) ∨ peerRange addr = false
  if bad then s.sendRsp i p false
  else
    let k := s.link i
    (s.setLink i { k with peerIn := k.peerIn ++ [p] }).peerPiece i p

/-- A response for a serving transaction (R38). -/
def State.peerResp (s : State) (i dev tag part : Nat) (r : Resp) : State :=
  match (s.link i).serving dev tag with
  | none => s
  | some p =>
    if p.pos ≠ part then s
    else match r with
      | .err => s.peerEnd i p false
      | .ok q =>
        let n := min 16 (p.size - p.pos)
        let p' : PeerIn := { p with pos := p.pos + n, bytes := if p.load then p.bytes ++ toBytes q.toNat n else p.bytes }
        if p'.size ≤ p'.pos then s.peerEnd i p' true
        else
          let k := (s.link i).dropServing dev tag
          (s.setLink i { k with peerIn := k.peerIn ++ [p'] }).peerPiece i p'

/-- Serving transactions that stalled for want of a tag go on (R36). -/
def State.peerWake (s : State) (i : Nat) : State :=
  (s.link i).peerIn.foldl (fun s p =>
    let o : Origin := .peer i p.dev p.tag p.pos
    if (s.tags.any fun t => t.origin == o) ∨ (s.link i).peerIn.contains p = false then s else s.peerPiece i p) s

/-- An RSP reaches the requesting side (R307). -/
def State.peerAnswer (s : State) (i : Nat) (h : BvlHdr) (status : Nat) (bytes : List Byte) : State :=
  let k := s.link i
  match k.peerOut.find? fun p => p.tag == h.tag with
  | none => s
  | some p =>
    let s := s.setLink i { k with peerOut := k.peerOut.erase p }
    s.respond p.origin (if status = 0 then .ok (if p.load then BitVec.ofNat 128 (ofBytes (bytes.take p.size)) else 0) else .err)

/-- The response that a peer transaction lost or held too long gets (R307). -/
def State.peerHold (s : State) (i tag : Nat) (serving : Bool) (dev : Nat) : State :=
  let k := s.link i
  if serving then
    match k.serving dev tag with
    | none => s
    | some p => (s.advance (p.since + 500000)).peerEnd i p false
  else
    match k.peerOut.find? fun p => p.tag == tag with
    | none => s
    | some p => ((s.advance (p.since + 500000)).setLink i { k with peerOut := k.peerOut.erase p }).respond p.origin .err

/-- The RX record of a link engine that takes frames of a link and channel (R199, R310). Where several match, the first in quad and
record order takes every frame: R199 does not say which (DESIGN CHOICE, assumption 61). -/
def State.rxRecord (s : State) (i vc : Nat) : Option (Nat × Nat) :=
  (List.range 8).findSome? fun q =>
    let e := s.lengine q
    if e.state = 1 then
      ((List.range (secNjob e.active)).find? fun k =>
        let r := laneRec e.active k
        r.dir == 1 && r.vc == vc && (if vc = 0xFF then 4 * q + r.lane == i else s.linkOfLane (4 * q + r.lane) == i)).map fun k => (q, k)
    else none

/-- LSCHED writes received bytes piece by piece until one is refused; each piece in region SRAM feeds the region's lane-receive CRC
contexts (R258). The bytes that stand written. -/
def State.laneWrite (s : State) (q : Nat) (r : LaneRec) : List (Nat × Nat) → List Byte → Nat → State × Nat
  | [], _, n => (s, n)
  | p :: ps, bs, n =>
    match s.memWrite1 (0x120 + q) p.1 (bs.take p.2) with
    | (s, false) => (s, n)
    | (s, true) =>
      let s := match classify p.1 with
        | .sram m => if r.vc < 8 then s.crcLane m (4 * q + r.lane) r.vc ((bs.take p.2).map fun (b : Byte) => b.toNat) else s
        | _ => s
      s.laneWrite q r ps (bs.drop p.2) (n + p.2)

/-- Bytes are written at an RX record's pointer, which moves on (R310). `false`: they would pass BUF + LEN. -/
def State.rxWrite (s : State) (q k : Nat) (bs : List Byte) : State × Bool :=
  let e := s.lengine q
  let r := laneRec e.active k
  let at' := AMap.get e.rxPtr (fun _ => 0) k
  if r.len < at' + bs.length then (s, false)
  else
    match s.laneWrite q r (pieces (bs.length + 1) (r.buf + at') bs.length) bs 0 with
    | (s, n) =>
      let e := s.lengine q
      let w := AMap.get e.written (fun _ => []) k
      (s.setLengine q { e with
        rxPtr := AMap.set e.rxPtr (fun _ => 0) k (at' + bs.length)
        written := if n = 0 then e.written else AMap.put k (w ++ [(at', at' + n)]) e.written }, true)

/-- A DATA frame (R310). -/
def State.rxData (s : State) (i : Nat) (h : BvlHdr) (bs : List Byte) : State :=
  if i < 16 ∧ h.frameno ≠ s.timeB.frameNo % 65536 then s.discFrames i 1
  else match s.rxRecord i h.vc with
    | none => s
    | some (q, k) =>
      match s.rxWrite q k bs with
      | (s, true) => s
      | (s, false) => s.discFrames i 1

/-- A VOTE frame (R309). -/
def State.rxVote (s : State) (i : Nat) (v : VoteRec) : State :=
  match s.voteHolders v with
  | [] => if i < 16 then (s.discFrames i 1).advisory (pgBvl i) 2 0xFF else s.discFrames i 1
  | hs => hs.foldl (fun s x => s.voteArrives x.1 x.2 v) s

/-- An SVC frame (R302, R312, R402). -/
def State.rxSvc (s : State) (i code arg : Nat) (msg : List Byte) : State :=
  match code with
  | 1 =>
    match (s.linkLanes i)[arg]? with
    | some l =>
      let k := s.link i
      if s.laneState l = 5 ∧ k.away.contains l = false then (s.setLink i { k with away := k.away ++ [l] }).relink i else s
    | none => s
  | 2 =>
    match s.spareLane i with
    | some l => (s.sendFrame i 0 0 true (.svc 3 arg [])).spareTrain i l
    | none => s
  | 3 =>
    if (s.link i).spareAsked.isNone then s
    else
      let s := s.setLink i { s.link i with spareAsked := none }
      match (List.range 16).find? fun l => (s.lane l).spareFor == some i && decide (s.laneState l ≤ 1) with
      | some l => s.spareTrain i l
      | none => s
  | 4 => if i < 16 then s.svcMessage (8 + s.lfld i 0x108 39 32) 0 (msg.take arg) else s
  | _ => s

/-- A sequenced frame is delivered (R302, R304). -/
def State.deliver (s : State) (i : Nat) (h : BvlHdr) (b : BvlBody) : State :=
  match b with
  | .data bs => s.rxData i h bs
  | .req a k w bs => if i < 16 then s.peerServe i h a k w bs else s
  | .rsp st bs => if i < 16 then s.peerAnswer i h st bs else s
  | .vote v => s.rxVote i v
  | .svc c a m => s.rxSvc i c a m
  | _ => s

/-- A frame is accepted: the next number is expected, an acknowledgement goes out, the frame is delivered (R304, R305). -/
def State.acceptFrame (s : State) (i : Nat) (h : BvlHdr) (b : BvlBody) : State :=
  let k := s.link i
  let s := s.setLink i { k with rxSeq := AMap.set k.rxSeq (fun _ => 0) h.vc ((h.seq + 1) % 65536) }
  let s := s.lcount i 0x128
  let s := s.sendCtl i h.vc 0 (some (h.vc, h.seq)) .ack
  s.deliver i h b

/-- Held frames that now follow in order are accepted (R304). -/
def State.acceptHeld (s : State) (i vc : Nat) : Nat → State
  | 0 => s
  | fuel + 1 =>
    let k := s.link i
    match k.held.find? fun e => e.hdr.vc == vc && e.hdr.seq == k.expect vc with
    | none => s
    | some e => ((s.setLink i { k with held := k.held.erase e }).acceptFrame i e.hdr e.body).acceptHeld i vc fuel

/-- The held frames of a VC are discarded and a NAK is sent (R304). -/
def State.dropHeld (s : State) (i vc : Nat) : State :=
  let k := s.link i
  let n := (k.held.filter fun e => e.hdr.vc == vc).length
  ((s.setLink i { k with held := k.held.filter fun e => e.hdr.vc != vc }).discFrames i n).sendNak i vc

/-- A sequenced frame that passed its checks (R304). -/
def State.rxSequenced (s : State) (i : Nat) (h : BvlHdr) (b : BvlBody) : State :=
  let k := s.link i
  let want := k.expect h.vc
  if h.seq = want then (s.acceptFrame i h b).acceptHeld i h.vc 17
  else if seqLe want h.seq then
    if k.held.any fun e => e.hdr.vc == h.vc && e.hdr.seq == h.seq then s
    else if 16 ≤ k.held.length then (s.discFrames i 1).dropHeld i h.vc
    else s.setLink i { k with held := k.held ++ [⟨h, b, s.now⟩] }
  else (s.discFrames i 1).sendCtl i h.vc 0 (some (h.vc, (want + 65535) % 65536)) .ack

/-- A reorder gap is not filled in 200 ns (R304). -/
def State.reorderTimeout (s : State) (i vc : Nat) : State :=
  match (s.link i).held.find? fun e => e.hdr.vc == vc with
  | none => s
  | some e => (s.advance (e.since + 200)).dropHeld i vc

/-- A frame waits RTO without acknowledgement (R305). -/
def State.retryTimeout (s : State) (i vc : Nat) : State :=
  match (s.link i).retry.find? fun e => e.hdr.vc == vc with
  | none => s
  | some e =>
    if s.linkState i = 0 ∨ s.linkState i = 5 then s
    else (s.advance (e.since + 100 * s.lfld i 0x100 23 16)).retransmit i vc e.hdr.seq

/-- A frame fails its check (R301, R304, R288): discarded, counted, a NAK where the VC can be trusted. -/
def State.rxBad (s : State) (i : Nat) (rx : BvlRx) (inj : Bool) : State :=
  let l := rx.lane
  let s := s.countSat (pgLane l) 0x120 63 48
  let s := s.discFrames i 1
  let s := s.reportInj (quadSrc l 0) 1 (l % 4) 0 inj
  if rx.vcOk then s.sendNak i rx.hdr.vc else s

/-- The frame kinds of a quarantined lane (R297). -/
def quarantineOk (b : BvlBody) : Bool :=
  match b with
  | .svc _ _ _ => true
  | .ack => true
  | .nak => true
  | _ => false

/-- The frame kinds of a rack endpoint, besides CAP (R299). -/
def rackOk (b : BvlBody) : Bool :=
  match b with
  | .data _ => true
  | b => quarantineOk b

/-- The lane takes frames of a kind now: Active, or in Quarantine on VC 0 (R293, R297). -/
def State.laneTakes (s : State) (l vc : Nat) (b : BvlBody) : Bool :=
  decide (l < 32) && s.laneBvl l && (decide (l < 16) || rackOk b) &&
  (s.laneState l == 5 || (s.laneState l == 6 && vc == 0 && quarantineOk b))

/-- A frame is checked (R301): one that fails, or that an injection spoils (R288), is discarded; the acknowledgement of a good one is
taken (R305), then `f`. -/
def State.rxChecked (s : State) (rx : BvlRx) (b : BvlBody) (f : State → State) : State :=
  let l := rx.lane
  let i := s.linkOfLane l
  let pg := pgLaneq (l / 4)
  let inj := s.injArmed pg 4 (l % 4)
  if frameGood rx b = false ∨ inj = true then (if inj then s.injUse pg 1 else s).rxBad i rx inj
  else
    f (match rx.hdr.ack with
      | some (vc, n) => s.ackVc i vc n
      | none => s)

/-- A frame arrives on a lane (R301, R304, R305): `f` is what a good one does. A link that is Down takes none (R306; DEDUCED, assumption 36). -/
def State.rxFrame (s : State) (rx : BvlRx) (b : BvlBody) (f : State → Nat → State) : State :=
  let l := rx.lane
  let i := s.linkOfLane l
  if s.laneTakes l rx.hdr.vc b = false ∨ s.linkState i = 5 then s else s.rxChecked rx b fun s => f s i

/-- The partner shows that it may be master (R295, R315). -/
def State.partnerMaster (s : State) (i : Nat) : Bool :=
  (s.activeLanes i).any fun l => match (s.lane l).cap with
    | some c => c.master
    | none => false

/-- The master is the partner of the one link with ROLE follower; a partner that does not show that it may be master is none (R315;
DEDUCED, assumption 27). -/
def State.followLink (s : State) : Option Nat :=
  match (List.range 16).filter fun i => s.lfld i 0x118 1 0 == 2 with
  | [i] => if s.partnerMaster i then some i else none
  | _ => none

/-- What a follower makes of a TIME frame (R315, R316): when it arrived, the measured delay, the master's TIME then, the row of R316
(0 behind, 1 ahead, 2 otherwise), TIME after its rate has corrected it, what is left of the rate's allowance. -/
structure Follow where
  arrived : Nat
  delay : Nat
  target : Nat
  row : Nat
  time : Nat
  slew : Nat
deriving DecidableEq, Repr

/-- TIME after a TIME frame, and what is left of the rate's allowance in 10^-6 ns (R316): TIME ran from the last frame, at `from'` with
`d` ns of the master's TIME passed since, to `arrived` at the master's rate; its own rate has moved it towards `target` within the
limits of its row. -/
def steer (row from' d arrived target slew : Nat) : Nat × Nat :=
  match row with
  | 0 => (max arrived (min (target - 1000) (from' + 1048576 * d)), 0)
  | 1 => (max target (from' + d / 2), 0)
  | _ =>
    let have' := slew + 500 * d
    let most := have' / 1000000
    let off := if arrived ≤ target then target - arrived else arrived - target
    let n := min most off
    (if arrived ≤ target then arrived + n else arrived - n, if n < most then 0 else have' - 1000000 * n)

/-- The sum of R315 and R316 over a TIME frame of the link followed. TIME runs at the master's rate between two frames (DESIGN CHOICE,
assumption 27). -/
def State.follow (s : State) (i tx rxlast txlast : Nat) : Follow :=
  let k := s.link i
  let d := match k.timeLast with
    | some x => tx - x.2
    | none => 0
  let from' := match k.timeLast with
    | some _ => k.timeAt
    | none => s.now
  let arrived := max s.now (from' + d)
  let delay := if txlast = 0 then 0 else ((arrived - txlast) - (tx - rxlast)) / 2
  let target := tx + delay
  let free := s.timeB.actGen == 0
  let row := if free && !s.timeB.everLocked && decide (arrived + 1000 < target) then 0
    else if free && decide (target + 2 < arrived) then 1
    else 2
  let (t, slew) := steer row from' d arrived target k.slew
  ⟨arrived, delay, target, row, max s.now t, slew⟩

/-- A TIME frame on the follower's link (R315, R316): delay, TIME moved by its rate, offset, acquisition, lock. -/
def State.timeFollow (s : State) (i tx rxlast txlast : Nat) : State :=
  let f := s.follow i tx rxlast txlast
  let off : Int := (f.time : Int) - f.target
  let near : Bool := decide (f.time ≤ f.target + 2) && decide (f.target ≤ f.time + 2)
  let cnt := if near then (s.link i).lockCount + 1 else 0
  let was := s.bit (linkPage i) (linkOff i 0x118) 2
  let lock := (was && near) || decide (100 ≤ cnt)
  let s := s.advance f.time
  let s := s.setLfld i 0x118 63 32 ((off * 1000) % 4294967296).toNat
  let s := s.setLfld i 0x118 31 16 (f.delay * 100 % 65536)
  let s := s.setLfld i 0x118 3 3 (b2n (decide (f.row < 2)))
  let s := s.setLink i { s.link i with timeLast := some (f.arrived, tx), timeAt := f.time, slew := f.slew, lockCount := cnt }
  let s : State := { s with timeB := { s.timeB with everLocked := s.timeB.everLocked || lock } }
  let s := s.setLfld i 0x118 2 2 (b2n lock)
  let s := if lock ∧ was = false then s.advisory (pgBvl i) 1 0xFF else s
  let s := s.setFld pgTime 0x108 4 4 0
  if lock ∧ s.timeB.pendSrc = some 3 then s.sourceLock
  else if s.fld pgTime 0x108 1 0 = 3 ∧ lock ≠ was then s.setFld pgTime 0x108 2 2 (b2n lock)
  else s

/-- A TIME frame (R302, R315): a follower takes it; either side keeps its stamps to return them. -/
def State.rxTime (s : State) (i tx rxlast txlast : Nat) : State :=
  if 16 ≤ i ∨ s.lfld i 0x108 27 24 = 1 then s
  else if s.followLink = some i ∧ s.fld pgTime 0x100 1 0 = 3 then s.timeFollow i tx rxlast txlast
  else s.setLink i { s.link i with timeLast := some (s.now, tx) }

/-- TIME_SEND (R315): the master's frames, and the follower's, which carry back the stamps of the last one received. -/
def State.timeSend (s : State) (i : Nat) : State :=
  let role := s.lfld i 0x118 1 0
  let src := s.fld pgTime 0x100 1 0
  let may := (role = 1 ∧ src ≠ 3) ∨ (role = 2 ∧ src = 3)
  if 16 ≤ i ∨ s.vcOpen i 0 = false ∨ ¬ may ∨ s.partnerMaster i = false ∨ s.lfld i 0x108 27 24 = 1 then s
  else
    let last := (s.link i).timeLast.getD (0, 0)
    s.sendFrame i 0 0 false (.time s.now last.1 last.2)

/-- No TIME frame for 10 us puts a locked follower into holdover (R317). -/
def State.holdover (s : State) : State :=
  match s.followLink with
  | none => s
  | some i =>
    match (s.link i).timeLast with
    | none => s
    | some x =>
      if s.bit (linkPage i) (linkOff i 0x118) 2 = false ∨ s.fld pgTime 0x108 1 0 ≠ 3 ∨ s.bit pgTime 0x108 4 = true then s
      else ((s.advance (x.1 + 10000)).setFld pgTime 0x108 4 4 1).report 0x1ED 2 0xFF 0

/-- After 1 s of holdover the master is treated as failed (R181, R317). -/
def State.holdoverExpiry (s : State) : State :=
  if s.bit pgTime 0x108 4 = false then s
  else
    let due := match s.followLink with
      | some i => match (s.link i).timeLast with
        | some x => x.1 + 10000 + 1000000000
        | none => s.now
      | none => s.now
    (s.advance due).sourceFail

/-- The next response that is not for a TMI is taken by its engine or peer transaction (R37, R38, R190). -/
def State.settleOne (s : State) : Option State :=
  match s.resps.find? fun e => match e.1 with | .tmi _ _ => false | _ => true with
  | none => none
  | some e =>
    let s : State := { s with resps := s.resps.erase e }
    match s.tags.find? fun t => t.origin == e.1 with
    | none => some (s.report 0x1EE 1 0xFF 0)
    | some t =>
      let s := s.dropTag t.tag
      some (match e.1 with
        | .engine n i off c => s.engineResp n i off c e.2
        | .peer l dev tag part => (s.peerResp l dev tag part e.2).peerWake l
        | .tmi _ _ => s)

/-- Every such response. -/
def State.settleN (s : State) : Nat → State
  | 0 => s
  | fuel + 1 =>
    match s.settleOne with
    | none => s
    | some s' => s'.settleN fuel

/-- Responses to engines and peers are taken as they come (R190, R307). -/
def State.settle (s : State) : State := s.settleN 65536

end Sys2Proof.Machine
end

