-- ==== Sys2Proof/Machine/Fabric.lean ====
section
/-! DEFINITION. The fabric's own checks: flit CRC and sequence numbers (R254, R255), tag time-outs (R256); the end of a region's
zero fill (R225). -/

namespace Sys2Proof.Machine

/-- The flit-CRC source of a place and its event code (R254, R268). -/
def flitCrcSource (die : Nat) : Nat × Nat := if die < 2 then (0x1A1 + 4 * die, 1) else (0x1EE, 4)
/-- The sequence source of an endpoint and its event code (R255, R268). -/
def flitSeqSource (die : Nat) : Nat × Nat := if die < 2 then (0x1A1 + 4 * die, 2) else (0x1EE, 5)

/-- A flit is discarded: what it carried goes no further, and its transaction runs into R256. -/
def State.dropFlit (s : State) (tag : Nat) : State :=
  let keep (m : AMap (List FabReq)) : AMap (List FabReq) :=
    (m.map fun e => (e.1, e.2.filter fun r => r.tag != tag)).filter fun e => !e.2.isEmpty
  let gone (o : Origin) : Bool := s.tags.any fun t => t.tag == tag && t.origin == o
  { s with
    port := keep s.port, ddrQ := keep s.ddrQ, vmeIn := s.vmeIn.filter fun r => r.tag != tag
    resps := s.resps.filter fun r => !gone r.1 }

/-- The page of an armed CRC injection that this flit meets (R288). -/
def State.flitInject (s : State) (f : FlitIn) : Option Nat :=
  match f.region with
  | none => none
  | some n => [pgSched n, pgFwall n].find? fun p => s.injArmed p 4 0

/-- A flit breaks the tags' rule (R37): a reserved or untracked tag, a request's outside its source's range, a response's that is not
outstanding. -/
def State.tagFault (s : State) (f : FlitIn) : Bool :=
  match f.load with
  | .request iid => tagReserved f.tag || (match tagRange iid with
    | some (b, n) => decide (f.tag < b) || decide (b + n ≤ f.tag)
    | none => true)
  | .response => tagReserved f.tag || !s.tags.any fun e => e.tag == f.tag
  | _ => false

/-- A flit that fails a check is discarded; the notice that one carries is lost and raises the fabric-protocol fault (R194). -/
def State.flitFails (s : State) (f : FlitIn) : State :=
  match f.load with
  | .notice k d j =>
    let s := s.report 0x1EE 3 0xFF 0
    match s.notices.find? fun x => x.kind == k && x.dst == d && x.job == j with
    | some x => { s with notices := s.notices.erase x }
    | none => s
  | .message => s
  | _ => s.dropFlit f.tag

/-- A flit reaches a hop or an endpoint (R37, R254, R255). -/
def State.flitArrive (s : State) (f : FlitIn) : State :=
  let s : State := { s with flitTx := AMap.set s.flitTx (fun _ => 0) f.path ((f.seq + 1) % 4096) }
  let inj := s.flitInject f
  let s := match inj with
    | some p => s.injUse p 1
    | none => s
  if f.good = false ∨ inj.isSome = true then
    let e := flitCrcSource f.die
    (s.reportInj e.1 e.2 0xFF (BitVec.ofNat 64 f.tag) inj.isSome).flitFails f
  else if f.endpoint = false then s
  else
    let want := AMap.get s.flitRx (fun _ => 0) f.path
    let ahead := (f.seq % 4096 + 4096 - want % 4096) % 4096
    let take (s : State) : State := { s with flitRx := AMap.set s.flitRx (fun _ => 0) f.path ((f.seq + 1) % 4096) }
    let e := flitSeqSource f.die
    let s' := s.report e.1 e.2 0xFF (BitVec.ofNat 64 f.tag)
    let judge (s : State) : State := if s.tagFault f then s.report 0x1EE 1 0xFF (BitVec.ofNat 64 f.tag) else s
    if f.resync = true ∨ ahead = 0 then judge (take s)
    else if ahead ≤ 2047 then judge (take s')
    else s'.flitFails f

/-- A tag outstanding for 1 ms is ended with an error (R256). -/
def State.tagTimeout (s : State) (tag : Nat) : State :=
  match s.tags.find? fun e => e.tag == tag with
  | none => s
  | some e =>
    let s := ((s.advance (e.since + 1000000)).dropTag tag).report 0x1EE 2 0xFF (BitVec.ofNat 64 tag)
    match e.origin with
    | .tmi t m => (s.tmiTake t m .err).tmiPump t tmiFuel
    | .engine n i off c => (s.engineResp n i off c .err).settle
    | .peer l dev m part => ((s.peerResp l dev m part .err).peerWake l).settle

/-- The zero fill of a region's SRAM ends (R225): READY, or a failed fill. -/
def State.zeroFilled (s : State) (n : Nat) (ok : Bool) : State :=
  if s.regionOn n = false ∨ s.bit (pgRegion n) 0x100 1 = false then s
  else if ok then s.sramZeroed n
  else (s.setFld (pgRegion n) 0x100 1 1 0).report (0x140 + 6 * n + 5) 3 0xFF 0

end Sys2Proof.Machine
end

