-- ==== Sys2Proof/Machine/Start.lean ====
section
/-! DEFINITION. The start sequence (R375 to R391): power-on reset, the steps, loading the tables and images, the first frame. -/

namespace Sys2Proof.Machine

/-- Power-on reset (R371, R375, R394, R434): everything but OTP, the flash and what stands outside the device returns to its
reset state; the memories' contents are lost. -/
def State.powerOn (s : State) (cause devid : Nat) (reset : State) : State :=
  let e := s.fresh
  let s : State := { reset with
    pending := s.pending, variant := s.variant, devid := devid, xtal := s.xtal, slot := s.slot, fresh := e + 24, out := s.out, flash := s.flash
    warden := { reset.warden with revoked := s.warden.revoked, arc := s.warden.arc }
    sram := (List.range 16).map fun n => (n, Ram.unwritten (e + 1 + n))
    ddr := (List.range 8).map fun k => (k, Ram.unwritten (e + 17 + k)) }
  s.setReg pgDevice 0x108 (BitVec.ofNat 64 (cause % 256 * 2 ^ 8))

/-- WSTAT.STEP; before step 2 of a power-on start the field holds 0 and reads 1. -/
def State.stepNo (s : State) : Nat := s.fld pgWarden 0x108 11 8
def State.toStep (s : State) (n : Nat) : State := s.setFld pgWarden 0x108 11 8 n

/-- Step 4 (R345, R377, R378): the set that will be used, or a failed start of code 0x02. A page that no two reads of three attempts
agree on is reported and fails its image. -/
def State.startSelect (s : State) (r : StartResult) : State :=
  let s : State := { s with warden := { s.warden with unread := r.unread } }
  let s := if r.unread.isEmpty then s else s.report 0x1EC 3 0x20 0
  match s.chooseSet with
  | .fail 2 kind slot detail => s.failStart 2 kind slot detail
  | _ => s.toStep 5

/-- Step 5 (R376, R377, R380): the set and the firmware's slot; or a failed start of code 0x03. -/
def State.startSet (s : State) : State :=
  match s.chooseSet with
  | .fail code kind slot detail => s.failStart code kind slot detail
  | .use set code =>
    let s : State := { s with warden := { s.warden with images := set } }
    let slot := match ofKind set 1 with
      | u :: _ => u.slot
      | [] => 0
    let s := (s.setFld pgWarden 0x108 5 4 code).setFld pgWarden 0x108 20 20 slot
    (s.setFld pgWarden 0x108 3 0 1).toStep 6

/-- A region domain comes on (R349, R375 step 6). -/
def State.startRegion (s : State) (n : Nat) : State :=
  let s : State := { s with
    switching := AMap.drop (64 + n) s.switching, heldSwitch := s.heldSwitch.filter fun h => h.1 != 64 + n }
  let s := s.setFld pgPwr 0x128 n n 1
  if s.regionOn n then s else (s.domDone (64 + n) true).pwrEvent 0

/-- Step 6 (R375): the I/O die passed or failed; the fabric, AOC0, AOC1 and every present region come on. -/
def State.startIo (s : State) (r : StartResult) : State :=
  if r.pass = false then s.failStart 4 0xFF 0 r.page
  else
    let s := if s.aoc then s else s.unmask fun x => [0x1A2, 0x1A3, 0x1A6, 0x1A7].contains x
    let s : State := { s with fab := true, aoc := true }
    ((List.range s.nRegions).foldl (fun s n => s.startRegion n) s).domBusy.toStep 7

/-- A triad is held (R388). -/
def State.holdTriad (s : State) (t : Nat) : State := s.setFld pgBist 0x128 t t 1

/-- A region is held: its domain goes off, its triads are held (R388). -/
def State.holdRegion (s : State) (n : Nat) : State :=
  if s.nRegions ≤ n then s
  else
    let s := (List.range 4).foldl (fun s j => s.holdTriad (4 * n + j)) s
    let s := (s.setFld pgBist 0x130 n n 1).setFld pgPwr 0x128 n n 0
    if s.regionOn n then ((s.domStop (64 + n)).domDone (64 + n) false).pwrEvent 0 else s

/-- A die is held with all its regions (R388). -/
def State.holdDie (s : State) (d : Nat) : State :=
  if s.dies ≤ d then s
  else (List.range 8).foldl (fun s j => s.holdRegion (8 * d + j)) (s.setFld pgBist 0x130 (16 + d) (16 + d) 1)

/-- The Retired copies of a triad. -/
def State.retiredOf (s : State) (t : Nat) : Nat := ((List.range 3).filter fun c => s.isRetired t c).length

/-- Where the schedule image in use lies in the flash. -/
def State.bodyOfKind (s : State) (k : Nat) : Option Nat :=
  match ofKind s.warden.images k with
  | u :: _ => some (bodyAt (s.useAt u))
  | [] => none

/-- The directory of a schedule body in the flash: kind, instance, offset, length (R201). -/
def State.bodyDir (s : State) (b : Nat) : List (Nat × Nat × Nat × Nat) :=
  (List.range (s.flashNum (b + 0x1A) 2)).map fun i =>
    let o := b + 0x40 + 16 * i
    (s.flashNum o 2, s.flashNum (o + 2) 2, s.flashNum (o + 4) 4, s.flashNum (o + 8) 4)

/-- The page of a held unit that the table needs (R388), where there is one. -/
def State.heldNeeded (s : State) : Option Nat :=
  match s.bodyOfKind 4 with
  | none => none
  | some b =>
    let dir := s.bodyDir b
    let sect := dir.find? fun e => decide (e.1 = 0x10) && decide (e.2.1 < 16) && s.bit pgBist 0x130 e.2.1
    let strict := match s.bodyOfKind 2 with
      | some c => bitAt (s.flashNum (c + 6) 2) 0
      | none => false
    match sect with
    | some e => some (pgRegion e.2.1)
    | none =>
      match dir.find? fun e => e.1 == 1 with
      | none => none
      | some e =>
        if strict then
          ((List.range 64).find? fun t => s.bit pgBist 0x128 t && s.flashNum (b + e.2.2.1 + 4 * t) 1 != 0).map pgTriad
        else none

/-- Step 7 (R388): what failed is Retired or held. -/
def State.startTest (s : State) (r : StartResult) : State :=
  let s := r.copies.foldl (fun s e => if e.1 < s.nTriads ∧ e.2 < 3 then s.setFld (pgTriad e.1) 0x180 (48 + e.2) (48 + e.2) 1 else s) s
  let s := (List.range s.nTriads).foldl (fun s t => if 2 ≤ s.retiredOf t then s.holdTriad t else s) s
  let s := r.regions.foldl (fun s n => s.holdRegion n) s
  let s := r.dies.foldl (fun s d => s.holdDie d) s
  match s.heldNeeded with
  | some p => s.failStart 5 0xFF 0 p
  | none => s.toStep 8

/-- Words of eight bytes from the flash, zero bytes after `len`. -/
def State.flashWords (s : State) (a len : Nat) : List Word :=
  (List.range ((len + 7) / 8)).map fun k => BitVec.ofNat 64 (s.flashNum (a + 8 * k) (min 8 (len - 8 * k)))

/-- The reaction body goes into the inactive pages (R282). -/
def State.loadReaction (s : State) (b : Nat) : State :=
  let put (s : State) (page off : Nat) (v : Word) : State := s.setReg page off v
  let s := ((s.flashWords b 64).zipIdx).foldl (fun s e => put s 0x0006 (0x900 + 8 * e.2) e.1) s
  let s := ((s.flashWords (b + 64) 4096).zipIdx).foldl (fun s e => put s (0x0006 + e.2 / 256) (0x100 + 8 * (e.2 % 256)) e.1) s
  let n := min 256 (s.flashNum (b + 0x12) 2)
  let s := ((s.flashWords (b + 4160) (4 * n)).zipIdx).foldl (fun s e => put s 0x0007 (0x900 + 8 * e.2) e.1) s
  s.reactionWritten

/-- The GEN of the reaction table in the inactive bank. -/
def State.reactionGen (s : State) : Word := s.reg 0x0006 0x908

/-- Step 8, part 1 (R383): the reaction table is loaded, checked, armed and exchanged; code 0x08 where the check fails. -/
def State.startReaction (s : State) : State :=
  match s.bodyOfKind 3 with
  | none => s
  | some b =>
    let s := (s.loadReaction b).rtblChk
    let err := s.fld pgFcol 0x118 23 16
    if err ≠ 0 then s.failStart 8 0xFF 0 (err * 0x10000 + s.fld pgFcol 0x118 47 32)
    else
      let g := s.reactionGen
      ((s.setReg pgFcol 0x110 g).rswgenWrite g).reactionExchange

/-- The microcode versions that the quads show, and the BVL versions their code supports (R296, R404). -/
def State.startMcode (s : State) : State :=
  let ver (k : Nat) : Nat := match ofKind s.warden.images k with
    | u :: _ => u.version % 65536
    | [] => 0
  let vers := match ofKind s.warden.images 7 with
    | u :: _ => u.attr.toNat
    | [] => 0x06
  (List.range 8).foldl (fun s q =>
    ((s.setBvlVers q vers).setFld (pgLaneq q) 0x108 47 32 (ver 6)).setFld (pgLaneq q) 0x108 31 16 (ver 7)) s

/-- STARTCFG from the configuration header (R383). -/
def State.startCfg (s : State) : State :=
  match s.bodyOfKind 2 with
  | none => s
  | some b => s.setReg pgWarden 0x118 (BitVec.ofNat 64 (s.flashNum (b + 0xE) 2 + s.flashNum (b + 6) 2 % 2 * 2 ^ 16))

/-- A record of the configuration (R381). -/
structure CfgRec where
  kind : Nat
  page : Nat
  off : Nat
  tmo : Nat
  value : Word
  mask : Word
deriving DecidableEq, Repr

def State.cfgRec (s : State) (b i : Nat) : CfgRec :=
  let o := b + 32 + 24 * i
  ⟨s.flashNum o 1, s.flashNum (o + 2) 2, s.flashNum (o + 4) 2, s.flashNum (o + 6) 2, BitVec.ofNat 64 (s.flashNum (o + 8) 8),
   BitVec.ofNat 64 (s.flashNum (o + 16) 8)⟩

/-- The record fails outright (R382). -/
def State.cfgBad (s : State) (r : CfgRec) : Bool :=
  decide (r.kind = 0) || decide (4 < r.kind) || (decide (1 ≤ r.page) && decide (r.page ≤ 7)) || decide (r.page = 0xA) ||
  decide (r.page = 0xB) ||
  match pageKind s.dies r.page with
  | none => true
  | some (k, _) => k == .triad || k == .core

/-- What a record leads to: done, failed, or a WAIT that still waits. -/
inductive CfgEnd where
  | done (s : State)
  | failed (s : State)
  | waits (s : State)

/-- Perform a record as the warden, on the open plane (R382). -/
def State.cfgStep (s : State) (r : CfgRec) : CfgEnd :=
  if s.cfgBad r then .failed s
  else if r.kind = 1 then
    match s.busWrite 0x0200 (regAddr r.page r.off) 8 r.value with
    | (s, some .accepted) => .done s
    | (s, _) => .failed s
  else if r.kind = 2 then
    match s.busRead 0x0200 (regAddr r.page r.off) 8 with
    | (s, some v) => if v &&& r.mask = r.value then .done s else .waits s
    | (s, none) => .waits s
  else if r.kind = 3 then
    match s.busWrite 0x0200 (regAddr r.page 0x30) 8 1 with
    | (s, some .accepted) => .done s
    | (s, _) => .failed s
  else .done (s.advance (s.now + r.value.toNat * 1000))

/-- The records from the one the warden stands at, `fuel` of them at most; `timeout`: the time limit of the WAIT it stands at
has passed. -/
def State.cfgRun (s : State) (b nrec : Nat) (timeout : Bool) : Nat → State
  | 0 => s
  | fuel + 1 =>
    let i := s.warden.rec'
    if nrec ≤ i then { s with warden := { s.warden with part := 2 } }
    else
      match s.cfgStep (s.cfgRec b i) with
      | .done s => State.cfgRun { s with warden := { s.warden with rec' := i + 1 } } b nrec false fuel
      | .failed s => s.failStart 6 0xFF 0 i
      | .waits s => if timeout then s.failStart 7 0xFF 0 i else s

/-- Step 8, part 2: the configuration records (R381, R382). -/
def State.startRecords (s : State) (timeout : Bool) : State :=
  match s.bodyOfKind 2 with
  | none => { s with warden := { s.warden with part := 2 } }
  | some b =>
    let n := s.flashNum (b + 8) 4
    s.cfgRun b n timeout (n + 1)

/-- Part 3: a triad that an image names is powered, loaded and started, unless it is held (R383, R388). -/
def State.startTriad (s : State) (t a : Nat) : State :=
  if s.bit pgBist 0x128 t ∨ s.nTriads ≤ t ∨ s.regionOn (t / 4) = false ∨ (s.triad t).isolated = true then s
  else
    let s := if (s.triad t).mode = 0 then (s.domDone t true).pwrEvent 0 else s
    let s := s.loadTcms t a
    let m := s.startMode t
    if m = 5 then s else s.startCopies t m

def State.startTriads (s : State) : State :=
  (ofKind s.warden.images 5).foldl (fun s u =>
    (List.range 64).foldl (fun s t => if bitAt u.attr.toNat t then s.startTriad t (s.useAt u) else s) s) s

/-- A schedule body goes from the flash into the inactive banks (R211, R451). -/
def State.loadTables (s : State) (b : Nat) : State :=
  let n := s.flashNum (b + 0x1A) 2
  let dev (s : State) (o : Nat) (ws : List Word) : State := ws.foldl (fun s w => s.tblDevice w) (s.setFld pgTime 0x130 15 3 (o / 8))
  let s := dev s 0 (s.flashWords b (0x40 + 16 * n))
  let s := (deviceOffsets (directory s.timeB.inactive) (up8 (0x40 + 16 * n))).foldl (fun s e =>
    dev s e.2 (s.flashWords (b + e.1.off) e.1.len)) s
  (s.bodyDir b).foldl (fun s e =>
    if e.1 = 0x10 ∧ s.regionOn e.2.1 = true then
      (s.flashWords (b + e.2.2.1) e.2.2.2).foldl (fun s w => s.tblSched e.2.1 w) (s.setFld (pgSched e.2.1) 0x110 15 3 0)
    else if e.1 = 0x20 ∧ e.2.1 < 8 then
      (s.flashWords (b + e.2.2.1) e.2.2.2).foldl (fun s w => s.tblLsched e.2.1 w) (s.setFld (pgLsched e.2.1) 0x110 13 3 0)
    else s) s

/-- The page of the first engine with a nonzero CHKERR (R383). -/
def State.chkPage (s : State) : Nat := ((s.enginePages.find? fun p => s.fld p 0x108 23 16 != 0).getD 0)

/-- EN of every engine that has a section (R383). -/
def State.startEngines (s : State) (b : Nat) : State :=
  (s.bodyDir b).foldl (fun s e =>
    if e.1 = 0x10 then s.writeReg 0x0200 (pgSched e.2.1) 0x100 (s.reg (pgSched e.2.1) 0x100 ||| 1)
    else if e.1 = 0x20 then s.writeReg 0x0200 (pgLsched e.2.1) 0x100 (s.reg (pgLsched e.2.1) 0x100 ||| 1)
    else s) s

/-- Part 4: the schedule tables are loaded and checked, the engines enabled, the first frame armed; code 0x09 where the check
fails (R383). No rule states the SWFRAME that the warden writes (assumption 3). -/
def State.startTables (s : State) : State :=
  match s.bodyOfKind 4 with
  | none => s
  | some b =>
    let s := (s.loadTables b).tblChk
    let err := s.fld pgTime 0x158 23 16
    if err ≠ 0 then s.failStart 9 0xFF 0 (err * 0x10000 + s.chkPage)
    else
      let s := s.startEngines b
      match s.freeValue with
      | (s, f) => (((s.setReg pgTime 0x148 (hdrGen s.timeB.inactive)).setReg pgTime 0x150 f).armSwitch).toStep 9

/-- Step 8 (R383): its parts in order; it stands at a WAIT record until a later end of the step finds it met. -/
def State.startLoad (s : State) (r : StartResult) : State :=
  let s := if s.warden.part = 0 then
      let s := s.startReaction
      if s.starting then
        let s := s.startMcode.startCfg
        { s with warden := { s.warden with part := 1, rec' := 0 } }
      else s
    else s
  let s := if s.starting = true ∧ s.warden.part = 1 then s.startRecords r.timeout else s
  if s.starting = true ∧ s.warden.part = 2 then s.startTriads.startTables else s

/-- A step of the start sequence completes (R375). -/
def State.startStep (s : State) (r : StartResult) : State :=
  if s.starting = false ∨ s.fld pgWarden 0x108 3 0 = 2 then s
  else
    match s.stepNo with
    | 0 => s.toStep 2
    | 1 => s.toStep 2
    | 2 =>
      let s : State := { s with fabio := true, warden := { s.warden with startAt := s.now } }
      s.toStep 3
    | 3 => if r.pass then s.toStep 4 else s.failStart 1 0xFF 0 0
    | 4 => s.startSelect r
    | 5 => s.startSet
    | 6 => s.startIo r
    | 7 => s.startTest r
    | 8 => s.startLoad r
    | _ => s

/-- What the first frame of a start does (R276, R383): running unconfirmed, ERROUT toggles, the confirmation time starts. -/
def State.firstFrameOf (s : State) (had : Bool) : State :=
  if had ∨ s.timeB.actGen = 0 ∨ s.stepNo ≠ 9 then s
  else
    let s := (s.setFld pgWarden 0x108 3 0 2).toStep 0
    let s : State := { s with warden := { s.warden with firstAt := s.now } }
    if s.dsafe then s
    else { s.setFld pgFcol 0x108 5 5 0 with fcol := { s.fcol with errShown := false } }

/-- A frame starts (R180, R214, R284, R410): the table switch, the first frame of a start, an armed exchange of the reaction
banks, a service command that waited for them. -/
def State.frameStart (s : State) : State :=
  let had := decide (s.timeB.actGen ≠ 0)
  let s := s.frameEnds.frameBegin
  let s := if s.timeB.actGen = 0 then s else s.reactionExchange
  (s.firstFrameOf had).svcSettle

/-- START_OK not accepted within STARTTMO of the first frame (R390). -/
def State.startTmo (s : State) : State :=
  if s.fld pgWarden 0x108 3 0 ≠ 2 ∨ s.warden.failedAt.isSome then s
  else (s.advance (s.warden.firstAt + s.fld pgWarden 0x118 15 0 * 100000000)).failStart 0xB 0xFF 0 0

/-- Step 9 not reached within 60 s of the start of step 3 (R390). -/
def State.step9Tmo (s : State) : State :=
  if 1 < s.fld pgWarden 0x108 3 0 ∨ s.warden.failedAt.isSome ∨ s.stepNo < 3 then s
  else (s.advance (s.warden.startAt + 60000000000)).failStart 0xA 0xFF 0 s.stepNo

end Sys2Proof.Machine
end

