-- ==== Sys2Proof/Machine/Service.lean ====
section
/-! DEFINITION. The service commands (R399 to R417): each is performed when its request stands at the channel's turn. -/

namespace Sys2Proof.Machine

/-- Perform the request of channel `ch` that stands at its turn with the command named; before and after, the requests at their
turn that no command row performs are answered (R400, R401). -/
def State.service (s : State) (ch cmd : Nat) (f : State → List Byte → State) : State :=
  let s := s.svcSkip
  match s.svcTake ch cmd with
  | none => s
  | some pl => (f s pl).svcSkip

/-- GETSEQ under a number of its own (R399). -/
def State.svcGetseq (s : State) (ch : Nat) : State := s.svcAnswer ch 0 0 (s.chan ch).seqs

/-- RESEND under a number of its own (R398). -/
def State.svcResendReq (s : State) (ch : Nat) (pl : List Byte) : State :=
  match s.svcResend ch (msgNum pl 0 4) with
  | (s, st, d) => s.svcAnswer ch st d []

/-- Read `n` registers in turn: the data, or the index of the one that gave a bus error (R401). -/
def State.readRegs (s : State) (page off i : Nat) (got : List Byte) : Nat → State × Except Nat (List Byte)
  | 0 => (s, .ok got)
  | n + 1 =>
    if 0x1000 ≤ off + 8 * i then (s, .error i)
    else match s.busRead 0x0201 (regAddr page (off + 8 * i)) 8 with
      | (s, none) => (s, .error i)
      | (s, some v) => s.readRegs page off (i + 1) (got ++ toBytes v.toNat 8) n

/-- READREG (R401). -/
def State.svcReadreg (s : State) (ch : Nat) (pl : List Byte) : State :=
  let n := msgNum pl 4 2
  if n = 0 ∨ 127 < n then s.svcDone ch 5 []
  else match s.readRegs (msgNum pl 0 2) (msgNum pl 2 2) 0 [] n with
    | (s, .ok bs) => s.svcDone ch 0 bs
    | (s, .error i) => s.svcAnswer ch 5 i []

/-- The records that the ring holds from SEQ `frm` on, oldest first (R287). -/
def State.logFrom (s : State) (frm : Nat) : List LogRec :=
  (List.range 256).filterMap fun i =>
    let seq := (s.fcol.head + 2 ^ 32 - 256 + i) % 2 ^ 32
    match AMap.find? s.fcol.log (seq % 256) with
    | some r => if bitsOf r.w3 31 0 = seq ∧ frm ≤ seq then some r else none
    | none => none

/-- The 32 bytes of a record. -/
def LogRec.bytes (r : LogRec) : List Byte := [r.w0, r.w1, r.w2, r.w3].flatMap fun w => toBytes w.toNat 8

/-- LOGREAD (R287, R401). -/
def State.svcLogread (s : State) (ch : Nat) (pl : List Byte) : State :=
  let n := msgNum pl 4 1
  if n = 0 ∨ 31 < n then s.svcDone ch 5 []
  else s.svcDone ch 0 (((s.logFrom (msgNum pl 0 4)).take n).flatMap LogRec.bytes)

/-- WRITEREG (R401). -/
def State.svcWritereg (s : State) (ch : Nat) (pl : List Byte) : State :=
  match s.busWrite 0x0201 (regAddr (msgNum pl 0 2) (msgNum pl 2 2)) 8 (BitVec.ofNat 64 (msgNum pl 8 8)) with
  | (s, some .accepted) => s.svcDone ch 0 []
  | (s, _) => s.svcDone ch 5 []

/-- MSG (R417). -/
def State.svcMsg (s : State) (ch : Nat) (pl : List Byte) : State :=
  let t := msgNum pl 0 1
  if s.bit pgSvc 0x140 8 = true ∨ s.nTriads ≤ t then s.svcDone ch 5 []
  else
    let s := (List.range 8).foldl (fun s j => s.setReg pgSvc (0x180 + 8 * j) (BitVec.ofNat 64 (msgNum pl (8 + 8 * j) 8))) s
    let s := (s.setFld pgSvc 0x140 21 16 t).setFld pgSvc 0x140 8 8 1
    (s.irq t 26).svcDone ch 0 []

/-- An image in use was taken from the slot, from any slot of the entry (R401, R405). -/
def State.slotInUse (s : State) (entry slot : Nat) : Bool := s.warden.images.any fun u => u.entry == entry && u.slot == slot
def State.entryInUse (s : State) (entry : Nat) : Bool := s.warden.images.any fun u => u.entry == entry

/-- The entry and slot that a payload names, where they exist and SPIF reaches them: an isolated SPIF makes a flash command refused
(assumption 64). -/
def State.namedSlot (s : State) (pl : List Byte) : Option (FlashEnt × Nat) :=
  if s.spifOn = false then none
  else match s.dirEnt? (msgNum pl 0 1) with
  | some e => if msgNum pl 1 1 ≤ 1 then some (e, msgNum pl 1 1) else none
  | none => none

/-- FLASHWRITE (R401). -/
def State.svcFlashwrite (s : State) (ch : Nat) (pl : List Byte) : State :=
  let n := 256 * msgNum pl 2 1
  let o := msgNum pl 4 4
  match s.namedSlot pl with
  | none => s.svcDone ch 5 []
  | some (e, slot) =>
    if n = 0 ∨ 768 < n ∨ e.slotLen < o + n ∨ s.slotInUse e.idx slot = true then s.svcDone ch 5 []
    else (s.flashWrite (e.at' slot + o) ((pl.drop 8).take n)).svcDone ch 0 []

/-- FLASHERASE (R401). -/
def State.svcFlasherase (s : State) (ch : Nat) (pl : List Byte) : State :=
  match s.namedSlot pl with
  | none => s.svcDone ch 5 []
  | some (e, slot) =>
    if s.slotInUse e.idx slot then s.svcDone ch 5 [] else (s.flashErase (e.at' slot) e.slotLen).svcDone ch 0 []

/-- The set in use: of each entry the image that was loaded last (R405, R407). -/
def State.setInUse (s : State) : List ImageUse :=
  s.warden.images.filter fun v => s.warden.images.find? (fun w => w.entry == v.entry) == some v

/-- The set in use with a slot's image put in the place of the one from the same entry or for the same triads (R407). -/
def State.setWith (s : State) (e : FlashEnt) (slot : Nat) : List ImageUse :=
  let u := s.imageUse e slot
  (s.setInUse.filter fun v => !(v.entry == e.idx || (decide (u.kind = 5) && v.kind == 5 && v.attr == u.attr))) ++ [u]

/-- The checks that VERIFY and every load command make (R407): status and DETAIL of the failure. -/
def State.loadCheck (s : State) (e : FlashEnt) (slot : Nat) : Option (Nat × Nat) :=
  let c := s.verifyAt e slot
  if c ≠ 0 then some (6, c) else (s.manifest (s.setWith e slot)).map fun k => (7, k)

/-- VERIFY (R407). -/
def State.svcVerify (s : State) (ch : Nat) (pl : List Byte) : State :=
  match s.namedSlot pl with
  | none => s.svcDone ch 5 []
  | some (e, slot) =>
    match s.loadCheck e slot with
    | some (st, d) => (s.readImage (e.at' slot)).svcAnswer ch st d []
    | none => s.svcDone ch 0 []

/-- The set of preferred slots with one entry's preference changed (R415). -/
def State.prefWith (s : State) (entry slot : Nat) : List ImageUse :=
  s.dirEnts.map fun e => s.imageUse e (if e.idx = entry then slot else e.pref)

/-- SETPREF (R403, R415). -/
def State.svcSetpref (s : State) (ch : Nat) (pl : List Byte) : State :=
  match s.namedSlot pl with
  | none => s.svcDone ch 5 []
  | some (e, slot) =>
    if (s.manifest (s.prefWith e.idx slot)).isSome then s.svcDone ch 7 []
    else
      let ent (i : Nat) : List Byte :=
        let b := s.entBytes i
        if i = e.idx then b.take 1 ++ toBytes slot 1 ++ b.drop 2 else b
      (s.dirRewrite s.dirEnts.length ent).svcDone ch 0 []

/-- DIRSET (R401, R403): an entry beyond the last makes the directory longer, with empty entries between. -/
def State.svcDirset (s : State) (ch : Nat) (pl : List Byte) : State :=
  let i := msgNum pl 0 1
  let n := s.dirEnts.length
  if 31 < i ∨ s.entryInUse i = true ∨ s.spifOn = false then s.svcDone ch 5 []
  else
    let ent (j : Nat) : List Byte :=
      if j = i then (pl.drop 8).take 32 else if j < n then s.entBytes j else List.replicate 32 0
    (s.dirRewrite (max n (i + 1)) ent).svcDone ch 0 []

/-- A load command's image: of the kind wanted, and verified; the load goes on, or the request is answered (R407). -/
def State.loadFrom (s : State) (ch : Nat) (pl : List Byte) (kinds : List Nat) (f : State → FlashEnt → Nat → State) : State :=
  match s.namedSlot pl with
  | none => s.svcDone ch 5 []
  | some (e, slot) =>
    if kinds.contains e.kind = false then s.svcDone ch 5 []
    else match s.loadCheck e slot with
      | some (st, d) => (s.readImage (e.at' slot)).svcAnswer ch st d []
      | none => f s e slot

/-- A service operation goes on after its command (R410, R411, R416). -/
def State.svcHold (s : State) (ch : Nat) (op : SvcOp) : State :=
  match (s.chan ch).reqs with
  | [] => s
  | r :: _ => { s with svc := { s.svc with op := some (ch, r, op) } }

/-- LOADTABLE (R410). -/
def State.svcLoadtable (s : State) (ch : Nat) (pl : List Byte) : State :=
  s.loadFrom ch pl [4] fun s e slot =>
    let s := (s.loadTables (bodyAt (e.at' slot))).tblChk
    if s.fld pgTime 0x158 23 16 ≠ 0 then s.svcAnswer ch 5 (s.reg pgTime 0x158).toNat []
    else
      let s := s.setReg pgTime 0x148 (hdrGen s.timeB.inactive)
      let s := (s.setReg pgTime 0x150 (BitVec.ofNat 64 (msgNum pl 8 8))).armSwitch
      (s.svcHold ch .loadTable).svcSettle

/-- LOADREACT (R410). -/
def State.svcLoadreact (s : State) (ch : Nat) (pl : List Byte) : State :=
  s.loadFrom ch pl [3] fun s e slot =>
    let s := (s.loadReaction (bodyAt (e.at' slot))).rtblChk
    if s.fld pgFcol 0x118 23 16 ≠ 0 then s.svcAnswer ch 5 (s.reg pgFcol 0x118).toNat []
    else
      let g := s.reactionGen
      (((s.setReg pgFcol 0x110 g).rswgenWrite g).svcHold ch .loadReact).svcSettle

/-- A triad may be loaded live into a mode (R409): R22 holds, it is neither held nor isolated nor in a REGION-SAFE region, and the
mode is Triple or the Pair of two copies, none of them Retired. -/
def State.loadOk (s : State) (t m : Nat) : Bool :=
  decide (t < s.nTriads) && !s.tableUses t && !s.bit pgBist 0x128 t && !(s.triad t).isolated &&
  !s.bit (pgFwall (t / 4)) 0x108 0 && s.regionOn (t / 4) && decide (1 ≤ m) && decide (m ≤ 4) &&
  (modeLetters m).all fun c => !s.isRetired t c

/-- The triad stands in Out, with power (R68, R409). -/
def State.bringOut (s : State) (t : Nat) : State :=
  let s := (s.tmodeReg t 5).1
  s.domComplete t false

/-- LOADTRIAD (R222, R409). -/
def State.svcLoadtriad (s : State) (ch : Nat) (pl : List Byte) : State :=
  let t := msgNum pl 2 1
  let m := msgNum pl 3 1
  s.loadFrom ch pl [5] fun s e slot =>
    let a := e.at' slot
    if bitAt (s.imgAttr a) t = false ∨ s.loadOk t m = false then s.svcDone ch 5 []
    else
      let s := s.bringOut t
      if (s.triad t).mode ≠ 5 then s.svcDone ch 5 []
      else
        let s := ((s.loadTcms t a).tmodeReg t m).1
        (s.triadLoaded e.idx slot t).svcDone ch 0 []

/-- The quads or channels that TARGET names. -/
def targets (pl : List Byte) : List Nat := (List.range 8).filter fun q => bitAt (msgNum pl 8 8) q

/-- The BVL version of each Active link on the quads that TARGET names is in ATTR (R413). -/
def State.bvlOk (s : State) (attr : Nat) (qs : List Nat) : Bool :=
  (List.range 32).all fun l =>
    !(qs.contains (l / 4) && decide (s.laneState l = 5) && decide (s.laneProto l = 1)) ||
      bitAt attr (s.lfld (s.linkOfLane l) 0x108 27 24)

/-- LOADMCODE (R412 to R414). -/
def State.svcLoadmcode (s : State) (ch : Nat) (pl : List Byte) : State :=
  s.loadFrom ch pl [6, 7, 8] fun s e slot =>
    let u := s.imageUse e slot
    let qs := targets pl
    let pend (s : State) (n : Nat) : State := s.setFld pgImage 0x128 n n 1
    let v := u.version % 65536
    if u.kind = 6 then
      let s := qs.foldl (fun s q =>
        (List.range 4).foldl (fun s j => pend s (4 * q + j)) (s.setFld (pgLaneq q) 0x108 47 32 v)) s
      (s.imageLoaded e.idx slot).svcDone ch 0 []
    else if u.kind = 7 then
      if s.bvlOk u.attr.toNat qs = false then s.svcDone ch 5 []
      else
        let s := qs.foldl (fun s q => (s.setBvlVers q u.attr.toNat).setFld (pgLaneq q) 0x108 31 16 v) s
        (s.imageLoaded e.idx slot).svcDone ch 0 []
    else ((qs.foldl (fun s k => pend s (40 + k)) s).imageLoaded e.idx slot).svcDone ch 0 []

/-- WARDENSWAP (R411): `takes` says whether the new firmware takes the record in time; where it does not, the swap waits for
HANDOVER_TIMEOUT. -/
def State.svcWardenswap (s : State) (ch : Nat) (takes : Bool) (pl : List Byte) : State :=
  s.loadFrom ch pl [1] fun s e slot =>
    if takes then ((s.setFld pgWarden 0x108 20 20 slot).imageLoaded e.idx slot).svcDone ch 0 []
    else s.svcHold ch (.swap e.idx slot s.now)

/-- 500 ms after the handover began the previous firmware runs again (R411). -/
def State.handoverTimeout (s : State) : State :=
  match s.svc.op with
  | some (ch, _, .swap _ _ since) =>
    let s := s.advance (since + 500000000)
    let s : State := { s with svc := { s.svc with op := none } }
    ((s.svcAnswer ch 11 4 []).svcUnpark).svcSkip
  | _ => s

/-- RESET (R373, R401): a device reset answers nothing, since it ends the channel's session. -/
def State.svcReset (s : State) (ch : Nat) (pl : List Byte) : State :=
  let k := msgNum pl 0 1
  match s.askReset k (msgNum pl 1 1) 6 with
  | (s, .accepted) => if k = 1 then s else s.svcDone ch 0 []
  | (s, _) => s.svcDone ch 5 []

/-- The first preferred slot that fails a check of R378. -/
def State.prefBad (s : State) : Option Nat :=
  (s.dirEnts.map fun e => s.verifyAt e e.pref).find? fun c => c != 0

/-- INSTALLSET (R416). -/
def State.svcInstallset (s : State) (ch : Nat) (_pl : List Byte) : State :=
  if s.spifOn = false then s.svcDone ch 5 []
  else match s.prefBad with
  | some c => (s.dirEnts.foldl (fun s e => s.readImage (e.at' e.pref)) s).svcAnswer ch 6 c []
  | none =>
    match s.manifest s.prefSet with
    | some k => s.svcAnswer ch 7 k []
    | none =>
      let r := (s.chan ch).reqs.head?
      let s := s.svcDone ch 0 []
      match r with
      | some r => { s with svc := { s.svc with op := some (ch, r, .install (s.chan ch).wseq s.now) } }
      | none => s

/-- 100 ms without the acknowledgement of INSTALLSET's response (R416). -/
def State.ackExpiry (s : State) : State :=
  match s.svc.op with
  | some (_, _, .install _ since) => (s.advance (since + 100000000)).installReset
  | _ => s

/-- An image in use or in a preferred slot was signed with the key of a slot (R415). -/
def State.keyUsed (s : State) (k : Nat) : Bool :=
  let signed (a : Nat) : Bool := Config.otpHash k == Config.sha384 (s.imgPub a)
  (s.warden.images.any fun u => signed (s.useAt u)) || s.dirEnts.any fun e => signed (e.at' e.pref)

/-- A key-hash slot that is programmed and not revoked. -/
def State.keyLive (s : State) (k : Nat) : Bool := Config.otpProg k && !s.warden.revoked.contains k

/-- REVOKEKEY (R415). -/
def State.svcRevokekey (s : State) (ch : Nat) (pl : List Byte) : State :=
  let k := msgNum pl 0 1
  if 7 < k ∨ s.keyUsed k = true ∨ ((List.range 8).any fun j => j != k && s.keyLive j) = false then s.svcDone ch 5 []
  else
    let w := s.warden
    let s : State := { s with warden := { w with revoked := if w.revoked.contains k then w.revoked else w.revoked ++ [k] } }
    s.svcDone ch 0 []

end Sys2Proof.Machine
end

