-- ==== Sys2Proof/Machine/Eth.lean ====
section
/-! DEFINITION. A received Ethernet frame on a rack-lane MAC or a management port (R319 to R321, R344, R395). -/

namespace Sys2Proof.Machine

/-- A frame of the service channel's EtherType on MGMT0 or MGMT1 (R395): one message; the frame's padding is not part of it. -/
def State.ethService (s : State) (m : Nat) (f : EthFrame) : State :=
  let body := f.bytes.drop 14
  (s.svcMessage (m - 16) (ofBytes ((f.bytes.drop 6).take 6)) (body.take (32 + msgNum body 4 2))).svcSettle

/-- A scheduled frame goes to the RX record of its lane with its 16-byte record header (R319, R320). -/
def State.ethScheduled (s : State) (m : Nat) (f : EthFrame) : State :=
  match s.rxRecord (16 + m) 0xFF with
  | none => s.macDrop m
  | some (q, k) =>
    let n := f.bytes.length
    let head := toBytes n 2 ++ toBytes (b2n (decide (ethStatus f ≠ 0))) 2 ++ toBytes 0 4 ++ toBytes s.now 8
    match s.rxWrite q k (head ++ f.bytes ++ List.replicate (up8 n - n) 0) with
    | (s, true) => s
    | (s, false) => s.macDrop m

/-- A frame arrives at a MAC: 0 to 15 the rack lanes', 16 and 17 MGMT0 and MGMT1. -/
def State.ethFrame (s : State) (m : Nat) (f : EthFrame) : State :=
  if 17 < m then s
  else match s.macCount m f with
    | (s, false) => s
    | (s, true) =>
      let t := frameType f.bytes
      if 16 ≤ m ∧ ethStatus f = 0 ∧ t = s.fld pgSvc 0x110 15 0 then s.ethService m f
      else if m < 16 ∧ s.fld (pgEth m) 0x110 15 0 ≠ 0 ∧ t = s.fld (pgEth m) 0x110 15 0 then s.ethScheduled m f
      else s.macToRing m f

end Sys2Proof.Machine
end

