-- ==== Sys2Proof/Machine/Upkeep.lean ====
section
/-! DEFINITION. What the copies and memories do on their own: the step monitor (R94), the TCM scrubber and write-backs (R223), SRAM
write-backs (R226), DDR4 maintenance windows (R230, R232). -/

namespace Sys2Proof.Machine

/-- The worst-case step of a performance level in ps (R93). -/
def worstStep (pl : Nat) : Nat :=
  match pl with
  | 1 => 2900 | 2 => 2100 | 3 => 1650 | 4 => 1320 | 5 => 1100 | 6 => 950 | _ => 830

/-- The figure that applies to a triad: during a level change the slower of the two (R94). -/
def State.stepBound (s : State) (t : Nat) : Nat :=
  let cur := worstStep (s.fld pgPwr (tpwr t) 26 24)
  if s.powerState t = 3 then max cur (worstStep (s.fld pgPwr (tpwr t) 2 0)) else cur

/-- A block of 256 free steps ends with an average in ps (R94). Doze and Nap halt the monitor (R353). -/
def State.stepBlockEnd (s : State) (t c avg : Nat) : State :=
  let k := 3 * t + c
  let p := pgCore k
  if s.nTriads ≤ t ∨ 2 < c ∨ (s.copy k).st ≠ .running ∨ s.powerState t = 5 ∨ s.powerState t = 6 then s
  else
    let v := min avg 65535
    let s := s.setFld p 0x110 47 32 v
    let s := s.setFld p 0x110 63 48 (max (s.fld p 0x110 63 48) v)
    let s := if s.stepBound t < avg then s.report (5 * t + 4) 1 c (BitVec.ofNat 64 (s.copy k).retcnt) else s
    let lim := s.fld p 0x118 15 0
    if lim ≠ 0 ∧ lim < avg then s.advisory p 1 c else s

/-- The TCM of a copy has power and its scrubber runs (R223, R353). -/
def State.tcmPowered (s : State) (t c : Nat) : Bool :=
  decide (t < s.nTriads) && decide (c < 3) && decide ((s.copy (3 * t + c)).st ≠ .unpowered)

/-- The scrubber reads one word while the service port is otherwise idle (R221, R223); an uncorrectable word of the returning copy
abandons mordanting (R77). -/
def State.tcmScrub (s : State) (t c : Nat) : State :=
  if s.tcmPowered t c = false ∨ s.powerState t = 5 ∨ s.powerState t = 6 ∨ s.servicePort t c = true then s
  else
    let k := 3 * t + c
    let p := s.copy k
    let wa := p.scrubPos
    let s := s.setCopy k { p with scrubPos := (wa + 1) % 16384 }
    match p.tcm.readWord wa 0 with
    | .good _ => s
    | .fixed _ => s.tcmFixed t c wa false
    | .bad => if p.st = .mordanting then s.mordError t else s.tcmBad t c wa false

/-- The service port, where free, writes back the corrected word that has waited longest (R221, R223). -/
def State.tcmWriteBack (s : State) (t c : Nat) : State :=
  if s.tcmPowered t c = false ∨ s.powerState t = 6 ∨ s.servicePort t c = true then s
  else
    let k := 3 * t + c
    let p := s.copy k
    match p.writeBack with
    | [] => s
    | wa :: rest =>
      match p.tcm.readWord wa 0 with
      | .bad => s.setCopy k { p with writeBack := rest }
      | v => s.setCopy k { p with writeBack := rest, tcm := p.tcm.setWord wa v.val }

/-- A bank writes back a corrected word (R226). -/
def State.sramWriteBack (s : State) (n : Nat) : State :=
  match AMap.get s.sramWb (fun _ => []) n with
  | [] => s
  | wa :: rest =>
    let s : State := { s with sramWb := AMap.set s.sramWb (fun _ => []) n rest }
    match (s.sramOf n).readWord wa 0 with
    | .bad => s
    | v => s.setSram n ((s.sramOf n).setWord wa v.val)

/-- The maintenance period of a channel in ns (R230, DCFG.MPER). -/
def State.ddrMper (s : State) (k : Nat) : Nat := if s.bit (pgDdrc k) 0x100 24 then 3900 else 7800

/-- The channel serves or resyncs: its windows run (R230, R236). -/
def State.ddrAwake (s : State) (k : Nat) : Bool :=
  s.ddrOn k && (s.dstate k == 3 || s.dstate k == 4 || s.dstate k == 6)

/-- When the next window of channel `k` begins: at the first multiple of MPER that lies neither behind TIME nor at a window begun
already (R230). -/
def State.windowAt (s : State) (k : Nat) : Nat :=
  let m := s.ddrMper k
  let next := (s.now + m - 1) / m * m
  match AMap.find? s.ddrWin k with
  | some w => if next ≤ w then (w / m + 1) * m else next
  | none => next

/-- A maintenance window begins (R230, R232): requests accepted before it complete, then its bursts; TIME reaches the next
multiple of MPER. -/
def State.maintenance (s : State) (k : Nat) : State :=
  if 8 ≤ k ∨ s.ddrAwake k = false then s
  else
    let due := s.windowAt k
    let s := s.advance due
    let s : State := { s with ddrWin := AMap.put k due s.ddrWin }
    State.windowBursts k (s.fld (pgDdrc k) 0x100 39 32) (s.drainDdr k)

end Sys2Proof.Machine
end

