-- ==== Sys2Proof/Machine/Rows.lean ====
section
/-! DEFINITION. Operations that several command rows share: guarded register writes and reads, requests, alarms, the passing of
time, arrivals at the ports. -/

namespace Sys2Proof.Machine

/-- A 64-bit write of a register of instance `i`, where the block has more than `i` instances. -/
def State.writeAt (s : State) (i lim iid page off : Nat) (v : Word) : State :=
  if i < lim then s.writeReg iid page off v else s

/-- A 64-bit read of a register, for its effect on the state. -/
def State.readReg (s : State) (iid page off : Nat) : State := (s.busRead iid (regAddr page off) 8).1

/-- The interrupt unit of a triad accepts a request (R62). -/
def State.request (s : State) (t v : Nat) : State := if t < s.nTriads ∧ vectorOk v = true then s.irq t v else s

/-- A request that finds its triad in Doze or Nap (R362). -/
def State.wakeBy (s : State) (t v : Nat) : State :=
  if s.powerState t = 5 ∨ s.powerState t = 6 then s.request t v else s

/-- Vcore outside its limits for 1 us (R356): code 5 of triad health (R268); DETAIL the leader's RETCNT (DEDUCED, assumption 41). -/
def State.regulatorOut (s : State) (t : Nat) : State :=
  if t < s.nTriads then
    let r := match s.leader t with
      | some l => (s.copy (3 * t + l)).retcnt
      | none => 0
    s.report (5 * t + 4) 5 0xFF (BitVec.ofNat 64 r)
  else s

/-- Which bit of a register is its page's CLRCNT (R5, the register tables). -/
def clrcntBit (k : PageKind) (off : Nat) : Option Nat :=
  match k, off with
  | .svc, 0x100 => some 9
  | .core, 0x140 => some 0
  | .region, 0x128 => some 0
  | .sched, 0x100 => some 1
  | .lsched, 0x100 => some 1
  | .ddrc, 0x108 => some 0
  | .lane, 0x100 => some 25
  | .bvl, 0x148 => some 32
  | .eth, 0x168 => some 32
  | .eth, 0x248 => some 32
  | .vme, 0x108 => some 1
  | .mgmt, 0x168 => some 32
  | _, _ => none

/-- A write of 1 to a CLRCNT bit, the register's other fields written as they stand. -/
def State.clearCounters (s : State) (iid page off : Nat) : State :=
  match pageKind s.dies page with
  | none => s
  | some (k, _) =>
    match clrcntBit k off with
    | none => s
    | some b => s.writeReg iid page off (withBits (s.reg page off) b b 1)

/-- A write of TBLDATA of a SCHED, LSCHED or TIMEBASE page (R211). -/
def State.tableData (s : State) (iid page : Nat) (v : Word) : State :=
  match pageKind s.dies page with
  | some (.sched, _) => s.writeReg iid page 0x118 v
  | some (.lsched, _) => s.writeReg iid page 0x118 v
  | some (.timebase, _) => s.writeReg iid page 0x138 v
  | _ => s

/-- Alarm `n` fires: its vector is requested, and it is a wake source (R183, R365). -/
def State.alarm (s : State) (n : Nat) : State :=
  if 4 ≤ n ∨ s.bit pgTime (0x180 + 8 * n) 0 = false then s else (s.alarmFire n).wakeDevice 2 n

/-- A rising edge of PPSIN while it disciplines TIME: the error against the nearest whole second is to be slewed away (R181). -/
def State.ppsEdge (s : State) : State :=
  if s.fld pgTime 0x108 1 0 = 2 then
    let e := s.now % 1000000000
    if e < 500000000 then { s with timeB := { s.timeB with ppsGain := 0, ppsLose := e, ppsAcc := 0 } }
    else { s with timeB := { s.timeB with ppsGain := 1000000000 - e, ppsLose := 0, ppsAcc := 0 } }
  else s

/-- One 10 ns tick of TIME, slewed by 200 ppm while an error of PPSIN stands (R179, R181). -/
def TimeState.tick (t : TimeState) (pps : Bool) : TimeState :=
  if pps ∧ (t.ppsGain ≠ 0 ∨ t.ppsLose ≠ 0) then
    if t.ppsAcc + 2 < 1000 then { t with time := t.time + 10, ppsAcc := t.ppsAcc + 2 }
    else if t.ppsGain ≠ 0 then { t with time := t.time + 11, ppsGain := t.ppsGain - 1, ppsAcc := 0 }
    else { t with time := t.time + 9, ppsLose := t.ppsLose - 1, ppsAcc := 0 }
  else { t with time := t.time + 10 }

/-- What passes when no command waits: one tick of TIME (DESIGN CHOICE, assumption 1). -/
def State.idleTick (s : State) : State := { s with timeB := s.timeB.tick (decide (s.fld pgTime 0x108 1 0 = 2)) }

/-- A write of 1 to a command bit of DCTL, MIRROR written as it stands (R233 to R238). -/
def State.dctlWrite (s : State) (iid k bit : Nat) : State :=
  s.writeAt k 8 iid (pgDdrc k) 0x108 ((s.reg (pgDdrc k) 0x108 &&& 2) ||| BitVec.ofNat 64 bit)

/-- The CRC feed that stands first at a region's local port reaches its CRC unit (R258). -/
def State.crcServe (s : State) (n : Nat) : State :=
  match (s.portOf n).find? fun r => !s.bistHolds n r with
  | some r => if r.kind = .crc then s.sramServe n else s
  | none => s

/-- A write of a register of a CRC context (R260, R263). -/
def State.contextWrite (s : State) (iid n i o : Nat) (v : Word) : State :=
  if n < 16 ∧ i < 8 then s.writeReg iid (pgCrcu n) (ctxAt i o) v else s

/-- A write of LCTL of a lane with one bit set or cleared (R293, R313, R318). -/
def State.lctlWrite (s : State) (iid l bit val : Nat) : State :=
  if l < 32 then s.writeReg iid (pgLane l) 0x100 (withBits (s.reg (pgLane l) 0x100) bit bit val) else s

/-- A CAP frame arrives on a lane in Exchange, Confirm, Active, Quarantine or Standby; one that fails its check is discarded as any
frame is, also for a bit of FLAGS, other than 0 and 1, that is not zero: `flags` are bits 7:2 (R295, R301, R304). -/
def State.capArrives (s : State) (rx : BvlRx) (flags : Nat) (c : Cap) : State :=
  let l := rx.lane
  let rx : BvlRx := { rx with zeros := rx.zeros + flags * 2 ^ 55 }
  if l < 32 ∧ s.laneBvl l = true ∧ [2, 4, 5, 6, 7].contains (s.laneState l) = true then
    s.rxChecked rx (.cap c) fun s => s.capTake l c
  else s

/-- The always-on detector of a lane recognises its wake pattern (R318, R365). -/
def State.indigo (s : State) (l : Nat) : State := if l < 32 then s.wakeDevice 1 l else s

/-- A MAC has sent the frame of its next descriptor (R321). -/
def State.macReturns (s : State) (mac : Nat) : State := if mac < 18 then s.macSent mac else s

/-- A write of the header of a CAN FD mailbox (R341). -/
def State.mailboxHeader (s : State) (iid k m : Nat) (v : Word) : State :=
  if k < 4 ∧ m < 16 then s.writeReg iid (pgCan k) (0x440 + 0x80 * m) v else s

/-- A UART receives a character; the characters of UART0 are the service channel's while channel 2 is on (R343, R395). -/
def State.uartChar (s : State) (k ch err : Nat) : State :=
  if 8 ≤ k then s
  else
    match s.uartTakes k ch with
    | (s, false) => s
    | (s, true) => if k = 0 ∧ s.chanOn 2 = true then s.slipChar (ch % 256) else s.uartStore k ch err

/-- A write of ICMD of an I2C port (R346). -/
def State.i2cWrite (s : State) (iid k cmd data : Nat) : State :=
  s.writeAt k 2 iid (pgI2c k) 0x108 (BitVec.ofNat 64 (cmd * 256 + data % 256))

/-- A write of RSTCTL (R373). -/
def State.rstctl (s : State) (iid key kind inst : Nat) : State :=
  s.writeReg iid pgDevice 0x100 (BitVec.ofNat 64 (key % 65536 * 2 ^ 48 + inst % 64 * 256 + kind % 8))

end Sys2Proof.Machine
end

