-- ==== Sys2Proof/Machine/FaultCmds.lean ====
section
/-! DEFINITION. The fault collector and fault injection (R264 to R289). -/

namespace Sys2Proof.Machine

/-- FAULT_EVENT (R264): a source drives its pair to error, with what its event does to the triad (R51, R68, R77). -/
def execFaultEvent (src code unit : Nat) (detail : Word) (s : State) : Host.Outcome State Fault Refusal :=
  .next (s.faultEvent src code unit detail)

/-- RAIL_FAULT (R267): the pair of a source is broken for more than 20 ns. -/
def execRailFault (src pair : Nat) (s : State) : Host.Outcome State Fault Refusal :=
  .next (s.railFault src pair)

/-- TAKE_EVENT (R271): FCOL takes the next event. -/
def execTakeEvent (s : State) : Host.Outcome State Fault Refusal :=
  .next ((s.takeEvent.settle).svcSettle)

/-- RESET_ACTION_EXPIRY (R270): 1 ms after a RESET action. -/
def execResetActionExpiry (s : State) : Host.Outcome State Fault Refusal :=
  .next (s.resetExpiry)

/-- RAIL_SWEEP (R266): the checkers are driven through their marked test states; `bad` do not show both. -/
def execRailSweep (bad : List Nat) (s : State) : Host.Outcome State Fault Refusal :=
  .next (s.railSweep bad)

/-- LEAK_CLEAR (R273): the threshold counts are cleared. -/
def execLeakClear (s : State) : Host.Outcome State Fault Refusal :=
  .next (s.leakClear)

/-- ERROUT_TOGGLE (R276): the healthy ERROUT pair is inverted. -/
def execErroutToggle (s : State) : Host.Outcome State Fault Refusal :=
  .next (s.erroutToggle)

/-- RTBLCHK (R283): a write of 1 to FCOL.RTBLCHK. -/
def execRtblchk (iid : Nat) (s : State) : Host.Outcome State Fault Refusal :=
  .next (s.writeReg iid pgFcol 0x120 1)

/-- RSWGEN_WRITE (R284): a write of RSWGEN. -/
def execRswgenWrite (iid : Nat) (v : Word) (s : State) : Host.Outcome State Fault Refusal :=
  .next ((s.writeReg iid pgFcol 0x110 v).svcSettle)

/-- REACTION_BANK_EXCHANGE (R284): an armed exchange takes place. -/
def execReactionBankExchange (s : State) : Host.Outcome State Fault Refusal :=
  .next (s.reactionDue.svcSettle)

/-- FLOGSEL_WRITE (R287): a write of FLOGSEL. -/
def execFlogselWrite (iid : Nat) (v : Word) (s : State) : Host.Outcome State Fault Refusal :=
  .next (s.writeReg iid pgFcol 0x140 v)

/-- CLRFIRST (R287): a write of 1 to FCTL.CLRFIRST. -/
def execClrfirst (iid : Nat) (s : State) : Host.Outcome State Fault Refusal :=
  .next (s.writeReg iid pgFcol 0x100 (withBits (s.reg pgFcol 0x100) 4 4 1))

/-- CLRLOG (R287): a write of 1 to FCTL.CLRLOG. -/
def execClrlog (iid : Nat) (s : State) : Host.Outcome State Fault Refusal :=
  .next (s.writeReg iid pgFcol 0x100 (withBits (s.reg pgFcol 0x100) 3 3 1))

/-- ARM (R289): a write of PGINJ of a page with ARM. -/
def execArm (iid page : Nat) (v : Word) (s : State) : Host.Outcome State Fault Refusal :=
  .next (s.writeReg iid page 0x28 (v ||| 1))

end Sys2Proof.Machine
end

