-- ==== Sys2Proof/Machine/GuardCmds.lean ====
section
/-! DEFINITION. Firewalls, flits, tags and CRC units (R241 to R263). -/

namespace Sys2Proof.Machine

/-- COMMIT_FWALL (R252): a write of FWCTL of region `n` with COMMIT. -/
def execCommitFwall (iid n : Nat) (v : Word) (s : State) : Host.Outcome State Fault Refusal :=
  .next (s.writeAt n 16 iid (pgFwall n) 0x100 (v ||| 2))

/-- CLRDENY (R251): a write of 1 to FWCTL.CLRDENY of region `n`. -/
def execClrdeny (iid n : Nat) (s : State) : Host.Outcome State Fault Refusal :=
  .next (s.writeAt n 16 iid (pgFwall n) 0x100 (withBits (s.reg (pgFwall n) 0x100) 2 2 1))

/-- FLIT_ARRIVAL (R254, R255): a flit reaches a hop or an endpoint. -/
def execFlitArrival (f : FlitIn) (s : State) : Host.Outcome State Fault Refusal :=
  .next (s.flitArrive f)

/-- TAG_TIMEOUT (R256): a tag has been outstanding for 1 ms. -/
def execTagTimeout (tag : Nat) (s : State) : Host.Outcome State Fault Refusal :=
  .next (s.tagTimeout tag)

/-- CRC_FEED (R258, R259): the feed that stands first at the local port of region `n` reaches the CRC unit. -/
def execCrcFeed (n : Nat) (s : State) : Host.Outcome State Fault Refusal :=
  .next (if n < s.nRegions then s.crcServe n else s)

/-- CRCTL_INIT (R260): a write of CRCTL.INIT of region `n`. -/
def execCrctlInit (iid n mask : Nat) (s : State) : Host.Outcome State Fault Refusal :=
  .next (s.writeAt n 16 iid (pgCrcu n) 0x100 (withBits (s.reg (pgCrcu n) 0x100) 7 0 mask))

/-- CCFG_WRITE (R263): a write of CCFG of context `i` of region `n`. -/
def execCcfgWrite (iid n i : Nat) (v : Word) (s : State) : Host.Outcome State Fault Refusal :=
  .next (s.contextWrite iid n i 0 v)

/-- CVALUE_WRITE (R260): a write of CVALUE, or of CCOUNT, of context `i`. -/
def execCvalueWrite (iid n i : Nat) (count : Bool) (v : Word) (s : State) : Host.Outcome State Fault Refusal :=
  .next (s.contextWrite iid n i (if count then 0x20 else 0x18) v)

end Sys2Proof.Machine
end

