-- ==== Sys2Proof/Machine/LaneCmds.lean ====
section
/-! DEFINITION. Lanes, negotiation, BVL links and Ethernet (R290 to R322). -/

namespace Sys2Proof.Machine

/-- LCTL_EN_WRITE (R293): a write of LCTL.EN of lane `l`. -/
def execLctlEnWrite (iid l : Nat) (on : Bool) (s : State) : Host.Outcome State Fault Refusal :=
  .next (s.lctlWrite iid l 16 (b2n on))

/-- SIGNAL_DETECT (R293): signal on lane `l` for 10 us. -/
def execSignalDetect (l : Nat) (s : State) : Host.Outcome State Fault Refusal :=
  .next (if l < 32 then s.signalDetect l else s)

/-- AUTO_NEGOTIATION (R294): Clause 73 auto-negotiation on lane `l` ends. -/
def execAutoNegotiation (l abilities : Nat) (fec : Bool) (page : Nat) (s : State) : Host.Outcome State Fault Refusal :=
  .next (if l < 32 then s.autoNegotiate l abilities fec page else s)

/-- CAP_SEND (R295): lane `l` sends a CAP frame. -/
def execCapSend (l : Nat) (s : State) : Host.Outcome State Fault Refusal :=
  .next (if l < 32 then s.capSend l else s)

/-- CAP (R295): a CAP frame arrives. -/
def execCap (rx : BvlRx) (flags : Nat) (c : Cap) (s : State) : Host.Outcome State Fault Refusal :=
  .next ((s.capArrives rx flags c).settle)

/-- RATE_CHANGE (R295): lane `l` changes to the chosen rate. -/
def execRateChange (l : Nat) (s : State) : Host.Outcome State Fault Refusal :=
  .next (if l < 32 then s.rateChange l else s)

/-- EQUALISER_CONVERGED (R293): training of lane `l` converges. -/
def execEqualiserConverged (l : Nat) (s : State) : Host.Outcome State Fault Refusal :=
  .next (if l < 32 then (s.converged l).settle else s)

/-- TRAINING_LIMIT (R293): training of lane `l` exceeds its limit. -/
def execTrainingLimit (l : Nat) (s : State) : Host.Outcome State Fault Refusal :=
  .next (if l < 32 then (s.trainingLimit l).settle else s)

/-- CONFIRM_TIMEOUT (R293): no CAP within 100 us of Confirm. -/
def execConfirmTimeout (l : Nat) (s : State) : Host.Outcome State Fault Refusal :=
  .next (if l < 32 then s.confirmTimeout l else s)

/-- LANE_FAILURE (R311): lane `l` fails for reason `why`. -/
def execLaneFailure (l why : Nat) (s : State) : Host.Outcome State Fault Refusal :=
  .next (if l < 32 then (s.laneFailure l why).settle else s)

/-- SPARE_TIMEOUT (R312): spare `l` has not joined within 30 ms. -/
def execSpareTimeout (l : Nat) (s : State) : Host.Outcome State Fault Refusal :=
  .next (if l < 32 then s.spareTimeout l else s)

/-- DOWN_EXPIRY (R306): link `i` has been Down for 1 ms. -/
def execDownExpiry (i : Nat) (s : State) : Host.Outcome State Fault Refusal :=
  .next (if i < 32 then s.downExpiry i else s)

/-- RETUNE (R313): a write of 1 to LCTL.RETUNE of lane `l`. -/
def execRetune (iid l : Nat) (s : State) : Host.Outcome State Fault Refusal :=
  .next ((s.lctlWrite iid l 18 1).settle)

/-- RENEG (R293): a write of 1 to LCTL.RENEG of lane `l`. -/
def execReneg (iid l : Nat) (s : State) : Host.Outcome State Fault Refusal :=
  .next (s.lctlWrite iid l 17 1)

/-- SENDINDIGO (R318): a write of 1 to LCTL.SENDINDIGO of lane `l`. -/
def execSendindigo (iid l : Nat) (s : State) : Host.Outcome State Fault Refusal :=
  .next (s.lctlWrite iid l 24 1)

/-- INDIGO_DETECT (R318): the always-on detector of lane `l` recognises a wake pattern. -/
def execIndigoDetect (l : Nat) (s : State) : Host.Outcome State Fault Refusal :=
  .next (s.indigo l)

/-- DATA (R310): a DATA frame arrives. -/
def execData (rx : BvlRx) (bytes : List Byte) (s : State) : Host.Outcome State Fault Refusal :=
  .next (if rx.lane < 32 then
      (s.rxFrame rx (.data bytes) fun s i => s.rxSequenced i rx.hdr (.data bytes)).settle
    else s)

/-- REQ (R307): a REQ frame arrives. -/
def execReq (rx : BvlRx) (addr kind width : Nat) (bytes : List Byte) (s : State) : Host.Outcome State Fault Refusal :=
  .next (if rx.lane < 32 then
      (s.rxFrame rx (.req addr kind width bytes) fun s i => s.rxSequenced i rx.hdr (.req addr kind width bytes)).settle
    else s)

/-- RSP (R307): an RSP frame arrives. -/
def execRsp (rx : BvlRx) (status : Nat) (bytes : List Byte) (s : State) : Host.Outcome State Fault Refusal :=
  .next (if rx.lane < 32 then
      (s.rxFrame rx (.rsp status bytes) fun s i => s.rxSequenced i rx.hdr (.rsp status bytes)).settle
    else s)

/-- VOTE_FRAME (R309): a VOTE frame arrives. -/
def execVoteFrame (rx : BvlRx) (v : VoteRec) (s : State) : Host.Outcome State Fault Refusal :=
  .next (if rx.lane < 32 then (s.rxFrame rx (.vote v) fun s i => s.rxSequenced i rx.hdr (.vote v)).settle else s)

/-- TIME (R315): a TIME frame arrives. -/
def execTime (rx : BvlRx) (tx rxlast txlast : Nat) (s : State) : Host.Outcome State Fault Refusal :=
  .next (if rx.lane < 32 then
      (s.rxFrame rx (.time tx rxlast txlast) fun s i => s.rxTime i tx rxlast txlast).settle
    else s)

/-- SVC (R302): an SVC frame arrives. -/
def execSvc (rx : BvlRx) (code arg : Nat) (msg : List Byte) (s : State) : Host.Outcome State Fault Refusal :=
  .next (if rx.lane < 32 then
      ((s.rxFrame rx (.svc code arg msg) fun s i => s.rxSequenced i rx.hdr (.svc code arg msg)).settle).svcSettle
    else s)

/-- ACK (R305): an ACK arrives; its header acknowledges. -/
def execAck (rx : BvlRx) (s : State) : Host.Outcome State Fault Refusal :=
  .next (if rx.lane < 32 then (s.rxFrame rx .ack fun s _ => s).settle else s)

/-- NAK (R305): a NAK arrives; its SEQ is the expected number. -/
def execNak (rx : BvlRx) (s : State) : Host.Outcome State Fault Refusal :=
  .next (if rx.lane < 32 then (s.rxFrame rx .nak fun s i => s.retransmit i rx.hdr.vc rx.hdr.seq).settle else s)

/-- REORDER_TIMEOUT (R304): a gap of link `i`, VC `vc`, is unfilled after 200 ns. -/
def execReorderTimeout (i vc : Nat) (s : State) : Host.Outcome State Fault Refusal :=
  .next (if i < 32 then s.reorderTimeout i vc else s)

/-- RETRY_TIMEOUT (R305): a frame of link `i`, VC `vc`, is unacknowledged for RTO. -/
def execRetryTimeout (i vc : Nat) (s : State) : Host.Outcome State Fault Refusal :=
  .next (if i < 32 then (s.retryTimeout i vc).settle else s)

/-- TIME_SEND (R315): link `i` sends a TIME frame. -/
def execTimeSend (i : Nat) (s : State) : Host.Outcome State Fault Refusal :=
  .next (if i < 32 then s.timeSend i else s)

/-- HOLDOVER (R317): no TIME frame for 10 us. -/
def execHoldover (s : State) : Host.Outcome State Fault Refusal :=
  .next (s.holdover)

/-- HOLDOVER_EXPIRY (R317): 1 s of holdover has passed. -/
def execHoldoverExpiry (s : State) : Host.Outcome State Fault Refusal :=
  .next (s.holdoverExpiry)

/-- PEER_HOLD_TIMEOUT (R307): link `i` has held a transaction for 500 us. -/
def execPeerHoldTimeout (i tag : Nat) (serving : Bool) (dev : Nat) (s : State) : Host.Outcome State Fault Refusal :=
  .next (if i < 32 then (s.peerHold i tag serving dev).settle else s)

/-- BLCFG_WRITE (R299): a write of BLCFG of link `i`. -/
def execBlcfgWrite (iid i : Nat) (v : Word) (s : State) : Host.Outcome State Fault Refusal :=
  .next (s.writeAt i 32 iid (linkPage i) (linkOff i 0x100) v)

/-- RESTART (R270): a write of 1 to QCTL.RESTART of quad `q`. -/
def execRestart (iid q : Nat) (s : State) : Host.Outcome State Fault Refusal :=
  .next (s.writeAt q 8 iid (pgLaneq q) 0x100 1)

/-- ETHERNET_FRAME (R319): a frame arrives at a MAC. -/
def execEthernetFrame (mac : Nat) (f : EthFrame) (s : State) : Host.Outcome State Fault Refusal :=
  .next ((s.ethFrame mac f).settle)

/-- TAIL_WRITE (R321): a write of TXPTR or RXPTR of a MAC. -/
def execTailWrite (iid mac : Nat) (rx : Bool) (v : Word) (s : State) : Host.Outcome State Fault Refusal :=
  .next (s.writeAt mac 18 iid (macPage mac) (if rx then 0x130 else 0x128) v)

/-- TRANSMIT_DESCRIPTOR_RETURNED (R321): a MAC has sent the frame of its next descriptor. -/
def execTransmitDescriptorReturned (mac : Nat) (s : State) : Host.Outcome State Fault Refusal :=
  .next ((s.macReturns mac).settle)

end Sys2Proof.Machine
end

