-- ==== Sys2Proof/Machine/LoadStore.lean ====
section
/-! DEFINITION. Loads, stores, address formation and the stack: each is one group of the copy that its context names. -/

namespace Sys2Proof.Machine

/-- LD (R126, R132). -/
def execLd (x : Ctx) (d a : Reg) (o : Disp) (s : State) : Host.Outcome State Fault Refusal :=
  .next (s.runGroup x (.ld d a o) none)

/-- LDS (R126, R110, R132). -/
def execLds (x : Ctx) (d a : Reg) (o : Disp) (s : State) : Host.Outcome State Fault Refusal :=
  .next (s.runGroup x (.lds d a o) none)

/-- LDPC (R105, R126). -/
def execLdpc (x : Ctx) (d : Reg) (o : BitVec 32) (s : State) : Host.Outcome State Fault Refusal :=
  .next (s.runGroup x (.ldpc d o) none)

/-- ST (R126, R132). -/
def execSt (x : Ctx) (d a : Reg) (o : Disp) (s : State) : Host.Outcome State Fault Refusal :=
  .next (s.runGroup x (.st d a o) none)

/-- STI (R126, R132). -/
def execSti (x : Ctx) (a : Reg) (o : Disp) (v : Word) (s : State) : Host.Outcome State Fault Refusal :=
  .next (s.runGroup x (.sti a o v) none)

/-- LEA (R113). -/
def execLea (x : Ctx) (d a : Reg) (o : Disp) (s : State) : Host.Outcome State Fault Refusal :=
  .next (s.runGroup x (.lea d a o) none)

/-- LEAPC (R105). -/
def execLeapc (x : Ctx) (d : Reg) (o : BitVec 32) (s : State) : Host.Outcome State Fault Refusal :=
  .next (s.runGroup x (.leapc d o) none)

/-- PUSH (R133, R134). -/
def execPush (x : Ctx) (a : Reg) (s : State) : Host.Outcome State Fault Refusal :=
  .next (s.runGroup x (.push a) none)

/-- POP (R133). -/
def execPop (x : Ctx) (d : Reg) (s : State) : Host.Outcome State Fault Refusal :=
  .next (s.runGroup x (.pop d) none)

end Sys2Proof.Machine
end

