-- ==== Sys2Proof/Machine/MemCmds.lean ====
section
/-! DEFINITION. Region SRAM and DDR4 (R224 to R240). -/

namespace Sys2Proof.Machine

/-- SRAM_ACCESS (R224): the request that stands first at the local port of region `n` is performed. -/
def execSramAccess (n : Nat) (s : State) : Host.Outcome State Fault Refusal :=
  .next (if n < s.nRegions then (s.sramServe n).settle else s)

/-- SRAM_WRITE_BACK (R226): a bank of region `n` writes a corrected word back. -/
def execSramWriteBack (n : Nat) (s : State) : Host.Outcome State Fault Refusal :=
  .next (if n < s.nRegions then s.sramWriteBack n else s)

/-- ZERO_FILL_COMPLETE (R225): the zero fill of region `n` ends. -/
def execZeroFillComplete (n : Nat) (ok : Bool) (s : State) : Host.Outcome State Fault Refusal :=
  .next (if n < s.nRegions then s.zeroFilled n ok else s)

/-- DDR4_REQUEST (R229): channel `k` performs the request that stands first. -/
def execDdr4Request (k : Nat) (s : State) : Host.Outcome State Fault Refusal :=
  .next (if k < 8 then (s.ddrServeNext k).settle else s)

/-- MAINTENANCE_WINDOW (R230): a window of channel `k` begins. -/
def execMaintenanceWindow (k : Nat) (s : State) : Host.Outcome State Fault Refusal :=
  .next ((s.maintenance k).settle)

/-- DCFG_WRITE (R240): a write of DCFG of channel `k`. -/
def execDcfgWrite (iid k : Nat) (v : Word) (s : State) : Host.Outcome State Fault Refusal :=
  .next (s.writeAt k 8 iid (pgDdrc k) 0x100 v)

/-- START (R233): a write of 1 to DCTL.START of channel `k`. -/
def execStart (iid k : Nat) (s : State) : Host.Outcome State Fault Refusal :=
  .next (s.dctlWrite iid k 4)

/-- TRAINING_COMPLETE (R233): training of channel `k` passes or fails after `us` microseconds. -/
def execTrainingComplete (k : Nat) (pass : Bool) (us : Nat) (s : State) : Host.Outcome State Fault Refusal :=
  .next (if k < 8 then s.trainingEnd k pass us else s)

/-- TRAINING_TIMEOUT (R233): training of channel `k` exceeds 50 ms. -/
def execTrainingTimeout (k : Nat) (s : State) : Host.Outcome State Fault Refusal :=
  .next (if k < 8 then s.trainingEnd k false 50000 else s)

/-- INIT (R238): a write of 1 to DCTL.INIT of channel `k`. -/
def execInit (iid k : Nat) (s : State) : Host.Outcome State Fault Refusal :=
  .next (s.dctlWrite iid k 8)

/-- INIT_COMPLETE (R238): the zero fill of channel `k` completes. -/
def execInitComplete (k : Nat) (s : State) : Host.Outcome State Fault Refusal :=
  .next (if k < 8 then s.ddrInitDone k else s)

/-- MIRROR (R234): a write of DCTL.MIRROR of channel `k`. -/
def execMirror (iid k : Nat) (on : Bool) (s : State) : Host.Outcome State Fault Refusal :=
  .next (s.writeAt k 8 iid (pgDdrc k) 0x108 (BitVec.ofNat 64 (2 * b2n on)))

/-- RETRAIN (R236): a write of 1 to DCTL.RETRAIN of channel `k`. -/
def execRetrain (iid k : Nat) (s : State) : Host.Outcome State Fault Refusal :=
  .next (s.dctlWrite iid k 16)

/-- RETIRE (R237): a write of 1 to DCTL.RETIRE of channel `k`. -/
def execRetire (iid k : Nat) (s : State) : Host.Outcome State Fault Refusal :=
  .next (s.dctlWrite iid k 32)

/-- SELF_REFRESH_EXIT_COMPLETE (R239): channel `k` has left self-refresh. -/
def execSelfRefreshExitComplete (k : Nat) (s : State) : Host.Outcome State Fault Refusal :=
  .next (if k < 8 then s.selfRefreshOut k else s)

end Sys2Proof.Machine
end

