-- ==== Sys2Proof/Machine/Moves.lean ====
section
/-! DEFINITION. Moves, extensions and bit counts: each is one group of the copy that its context names. -/

namespace Sys2Proof.Machine

/-- MOV (R113, R124). -/
def execMov (x : Ctx) (d a : Reg) (s : State) : Host.Outcome State Fault Refusal :=
  .next (s.runGroup x (.un .mov d a) none)

/-- MOVI (R113, R110). -/
def execMovi (x : Ctx) (d : Reg) (v : Word) (s : State) : Host.Outcome State Fault Refusal :=
  .next (s.runGroup x (.movi d v) none)

/-- MOVIS (R113, R105). -/
def execMovis (x : Ctx) (d : Reg) (v : BitVec 32) (s : State) : Host.Outcome State Fault Refusal :=
  .next (s.runGroup x (.movis d v) none)

/-- NEG (R113, R124). -/
def execNeg (x : Ctx) (d a : Reg) (s : State) : Host.Outcome State Fault Refusal :=
  .next (s.runGroup x (.un .neg d a) none)

/-- NOT (R113, R124). -/
def execNot (x : Ctx) (d a : Reg) (s : State) : Host.Outcome State Fault Refusal :=
  .next (s.runGroup x (.un .not d a) none)

/-- SXB (R113, R124). -/
def execSxb (x : Ctx) (d a : Reg) (s : State) : Host.Outcome State Fault Refusal :=
  .next (s.runGroup x (.un .sxb d a) none)

/-- SXH (R113, R124). -/
def execSxh (x : Ctx) (d a : Reg) (s : State) : Host.Outcome State Fault Refusal :=
  .next (s.runGroup x (.un .sxh d a) none)

/-- SXW (R113, R124). -/
def execSxw (x : Ctx) (d a : Reg) (s : State) : Host.Outcome State Fault Refusal :=
  .next (s.runGroup x (.un .sxw d a) none)

/-- ZXB (R113, R124). -/
def execZxb (x : Ctx) (d a : Reg) (s : State) : Host.Outcome State Fault Refusal :=
  .next (s.runGroup x (.un .zxb d a) none)

/-- ZXH (R113, R124). -/
def execZxh (x : Ctx) (d a : Reg) (s : State) : Host.Outcome State Fault Refusal :=
  .next (s.runGroup x (.un .zxh d a) none)

/-- ZXW (R113, R124). -/
def execZxw (x : Ctx) (d a : Reg) (s : State) : Host.Outcome State Fault Refusal :=
  .next (s.runGroup x (.un .zxw d a) none)

/-- CLZ (R113, R124). -/
def execClz (x : Ctx) (d a : Reg) (s : State) : Host.Outcome State Fault Refusal :=
  .next (s.runGroup x (.un .clz d a) none)

/-- CTZ (R113, R124). -/
def execCtz (x : Ctx) (d a : Reg) (s : State) : Host.Outcome State Fault Refusal :=
  .next (s.runGroup x (.un .ctz d a) none)

/-- POPC (R113, R124). -/
def execPopc (x : Ctx) (d a : Reg) (s : State) : Host.Outcome State Fault Refusal :=
  .next (s.runGroup x (.un .popc d a) none)

/-- BSWAP (R113, R124). -/
def execBswap (x : Ctx) (d a : Reg) (s : State) : Host.Outcome State Fault Refusal :=
  .next (s.runGroup x (.un .bswap d a) none)

/-- MOVPG (R113). -/
def execMovpg (x : Ctx) (d : Reg) (s : State) : Host.Outcome State Fault Refusal :=
  .next (s.runGroup x (.movpg d) none)

end Sys2Proof.Machine
end

