-- ==== Sys2Proof/Machine/PageCmds.lean ====
section
/-! DEFINITION. Writes of the register pages that have no row of their own (R4 to R8, R418 to R428). -/

namespace Sys2Proof.Machine

/-- PGLOCK_WRITE (R424): a write of 1 to PGLOCK of a page. -/
def execPglockWrite (iid page : Nat) (s : State) : Host.Outcome State Fault Refusal :=
  .next (s.writeReg iid page 0x30 1)

/-- REGISTER_WRITE (R5): a write of `n` bytes of a register. -/
def execRegisterWrite (iid page off n : Nat) (v : Word) (s : State) : Host.Outcome State Fault Refusal :=
  .next (((s.busWrite iid (regAddr page off) n v).1.settle).svcSettle)

end Sys2Proof.Machine
end

