-- ==== Sys2Proof/Machine/PortCmds.lean ====
section
/-! DEFINITION. CAN FD, UART, management, I2C and GPIO ports (R340 to R348). -/

namespace Sys2Proof.Machine

/-- MAILBOX_HEADER_WRITE (R341): a write of the header of mailbox `m` of controller `k`. -/
def execMailboxHeaderWrite (iid k m : Nat) (v : Word) (s : State) : Host.Outcome State Fault Refusal :=
  .next (s.mailboxHeader iid k m v)

/-- CAN_FRAME_RECEIVED (R342): controller `k` receives a frame. -/
def execCanFrameReceived (k : Nat) (hdr : Word) (bytes : List Byte) (s : State) : Host.Outcome State Fault Refusal :=
  .next (if k < 4 then (s.canRx k hdr bytes).settle else s)

/-- RECOVER (R342): a write of 1 to CCTL.RECOVER of controller `k`. -/
def execRecover (iid k : Nat) (s : State) : Host.Outcome State Fault Refusal :=
  .next (s.writeAt k 4 iid (pgCan k) 0x108 (s.reg (pgCan k) 0x108 ||| 8))

/-- UDATA_WRITE (R343): a write of UDATA of UART `k`. -/
def execUdataWrite (iid k : Nat) (v : Word) (s : State) : Host.Outcome State Fault Refusal :=
  .next (s.writeAt k 8 iid (pgUart k) 0x108 v)

/-- UDATA_READ (R343): a read of UDATA of UART `k`. -/
def execUdataRead (iid k : Nat) (s : State) : Host.Outcome State Fault Refusal :=
  .next (if k < 8 then s.readReg iid (pgUart k) 0x108 else s)

/-- UART_CHARACTER (R343, R395): UART `k` receives a character. -/
def execUartCharacter (k ch err : Nat) (s : State) : Host.Outcome State Fault Refusal :=
  .next ((s.uartChar k ch err).svcSettle)

/-- MDIO_GO (R344): a write of MDIO of management port `i` with GO. -/
def execMdioGo (iid i : Nat) (v : Word) (s : State) : Host.Outcome State Fault Refusal :=
  .next (s.writeAt i 2 iid (pgMgmt i) 0x178 (v ||| 0x80000000))

/-- ICMD_START (R346): port `k` is to issue a start condition. -/
def execIcmdStart (iid k : Nat) (s : State) : Host.Outcome State Fault Refusal :=
  .next (s.i2cWrite iid k 0 0)

/-- ICMD_WRITE (R346): port `k` is to write a byte. -/
def execIcmdWrite (iid k data : Nat) (s : State) : Host.Outcome State Fault Refusal :=
  .next (s.i2cWrite iid k 1 data)

/-- ICMD_READ_ACK (R346): port `k` is to read a byte and acknowledge it. -/
def execIcmdReadAck (iid k : Nat) (s : State) : Host.Outcome State Fault Refusal :=
  .next (s.i2cWrite iid k 2 0)

/-- ICMD_READ_NACK (R346): port `k` is to read a byte without acknowledging it. -/
def execIcmdReadNack (iid k : Nat) (s : State) : Host.Outcome State Fault Refusal :=
  .next (s.i2cWrite iid k 3 0)

/-- ICMD_STOP (R346): port `k` is to issue a stop condition. -/
def execIcmdStop (iid k : Nat) (s : State) : Host.Outcome State Fault Refusal :=
  .next (s.i2cWrite iid k 4 0)

/-- IRES_READ (R346): a read of IRES of port `k`. -/
def execIresRead (iid k : Nat) (s : State) : Host.Outcome State Fault Refusal :=
  .next (if k < 2 then s.readReg iid (pgI2c k) 0x110 else s)

/-- GSET_WRITE (R347): a write of GSET. -/
def execGsetWrite (iid : Nat) (v : Word) (s : State) : Host.Outcome State Fault Refusal :=
  .next (s.writeReg iid pgGpio 0x110 v)

/-- GCLR_WRITE (R347): a write of GCLR. -/
def execGclrWrite (iid : Nat) (v : Word) (s : State) : Host.Outcome State Fault Refusal :=
  .next (s.writeReg iid pgGpio 0x118 v)

/-- GPIO_INPUT_CHANGE (R347): input levels have been stable for GDEB us. -/
def execGpioInputChange (levels : Nat) (s : State) : Host.Outcome State Fault Refusal :=
  .next (s.gpioInput levels)

/-- CAN_FRAME_SENT (R341): an attempt at the frame in front of controller `k` ends: sent (0), arbitration lost (1), an error (2). -/
def execCanFrameSent (k r : Nat) (s : State) : Host.Outcome State Fault Refusal :=
  .next (if k < 4 then s.canSent k r else s)

/-- RECOVERY_SEQUENCE_COMPLETE (R342): controller `k` leaves bus-off. -/
def execRecoverySequenceComplete (k : Nat) (s : State) : Host.Outcome State Fault Refusal :=
  .next (if k < 4 then s.canRecovered k else s)

/-- UART_CHARACTER_SENT (R343): a character of UART `k` has gone out. -/
def execUartCharacterSent (k : Nat) (s : State) : Host.Outcome State Fault Refusal :=
  .next (if k < 8 then s.uartSent k else s)

/-- MDIO_FRAME_DONE (R344): the MDIO frame of management port `i` completes. -/
def execMdioFrameDone (i data : Nat) (s : State) : Host.Outcome State Fault Refusal :=
  .next (if i < 2 then s.mdioDone i data else s)

/-- I2C_COMMAND_COMPLETE (R346): the bus command in front of port `k` finishes. -/
def execI2cCommandComplete (k data : Nat) (ack : Bool) (s : State) : Host.Outcome State Fault Refusal :=
  .next (if k < 2 then s.i2cDone k data ack else s)

/-- I2C_SLAVE_ADDRESSED (R346): an outside master addresses port `k`. -/
def execI2cSlaveAddressed (k : Nat) (s : State) : Host.Outcome State Fault Refusal :=
  .next (if k < 2 then s.i2cSlave k else s)

/-- MGMT_LINK_DOWN (R344): the PHY of management port `i` loses its link. -/
def execMgmtLinkDown (i : Nat) (s : State) : Host.Outcome State Fault Refusal :=
  .next (if i < 2 then s.mgmtDown i else s)

end Sys2Proof.Machine
end

