-- ==== Sys2Proof/Machine/PowerCmds.lean ====
section
/-! DEFINITION. Domains, levels, sleep and temperature (R349 to R370). -/

namespace Sys2Proof.Machine

/-- DOMAIN_REQUEST (R349): a write of RDOM or XDOM. -/
def execDomainRequest (iid : Nat) (rdom : Bool) (v : Word) (s : State) : Host.Outcome State Fault Refusal :=
  .next ((s.writeReg iid pgPwr (if rdom then 0x128 else 0x130) v).settle)

/-- DOMAIN_SWITCH_COMPLETE (R349): domain `d` finishes switching, `late` after its bound. -/
def execDomainSwitchComplete (d : Nat) (late : Bool) (s : State) : Host.Outcome State Fault Refusal :=
  .next (((s.domComplete d late).bistSettle).settle)

/-- PL_WRITE (R354): a write of TPWR of triad `t`. -/
def execPlWrite (iid t : Nat) (v : Word) (s : State) : Host.Outcome State Fault Refusal :=
  .next (s.writeAt t 64 iid pgPwr (0x200 + 8 * t) v)

/-- LEVEL_CHANGE_COMPLETE (R354): the level change of triad `t` completes. -/
def execLevelChangeComplete (t : Nat) (s : State) : Host.Outcome State Fault Refusal :=
  .next (if t < s.nTriads then s.levelDone t else s)

/-- ENTRY_STAGE_COMPLETE (R359, R363): a stage of the low-power entry of triad `t` completes. -/
def execEntryStageComplete (t : Nat) (s : State) : Host.Outcome State Fault Refusal :=
  .next (if t < s.nTriads then s.entryStage t else s)

/-- WAKE (R362): a request of vector `v` wakes triad `t` from Doze or Nap. -/
def execWake (t v : Nat) (s : State) : Host.Outcome State Fault Refusal :=
  .next (s.wakeBy t v)

/-- WAKE_SOURCE (R365): a wake source fires. -/
def execWakeSource (src idx : Nat) (s : State) : Host.Outcome State Fault Refusal :=
  .next (s.wakeDevice src idx)

/-- THERMAL_SAMPLE (R357): the temperatures of the dies, in degrees C + 64. -/
def execThermalSample (t0 t1 tio : Nat) (s : State) : Host.Outcome State Fault Refusal :=
  .next (s.thermal t0 t1 tio)

/-- REGULATOR_OUT_OF_REGULATION (R356): Vcore of triad `t` outside its limits for 1 us. -/
def execRegulatorOutOfRegulation (t : Nat) (s : State) : Host.Outcome State Fault Refusal :=
  .next (s.regulatorOut t)

/-- DMODE_WRITE (R358): a write of PCTL.DMODE. -/
def execDmodeWrite (iid v : Nat) (s : State) : Host.Outcome State Fault Refusal :=
  .next (s.writeReg iid pgPwr 0x100 (BitVec.ofNat 64 (v % 4)))

/-- CLRABORT (R360): a write of 1 to PCTL.CLRABORT. -/
def execClrabort (iid : Nat) (s : State) : Host.Outcome State Fault Refusal :=
  .next (s.writeReg iid pgPwr 0x100 (s.reg pgPwr 0x100 ||| 4))

end Sys2Proof.Machine
end

