-- ==== Sys2Proof/Machine/Predicates.lean ====
section
/-! DEFINITION. Compares and predicate logic: each is one group of the copy that its context names. -/

namespace Sys2Proof.Machine

/-- EQ (R115, R131). -/
def execEq (x : Ctx) (p : Pred) (d : Reg) (b : Src2) (s : State) : Host.Outcome State Fault Refusal :=
  .next (s.runGroup x (.cmp .eq p d b) none)

/-- NE (R115, R131). -/
def execNe (x : Ctx) (p : Pred) (d : Reg) (b : Src2) (s : State) : Host.Outcome State Fault Refusal :=
  .next (s.runGroup x (.cmp .ne p d b) none)

/-- LT (R115, R131). -/
def execLt (x : Ctx) (p : Pred) (d : Reg) (b : Src2) (s : State) : Host.Outcome State Fault Refusal :=
  .next (s.runGroup x (.cmp .lt p d b) none)

/-- LE (R115, R131). -/
def execLe (x : Ctx) (p : Pred) (d : Reg) (b : Src2) (s : State) : Host.Outcome State Fault Refusal :=
  .next (s.runGroup x (.cmp .le p d b) none)

/-- GT (R115, R131). -/
def execGt (x : Ctx) (p : Pred) (d : Reg) (b : Src2) (s : State) : Host.Outcome State Fault Refusal :=
  .next (s.runGroup x (.cmp .gt p d b) none)

/-- GE (R115, R131). -/
def execGe (x : Ctx) (p : Pred) (d : Reg) (b : Src2) (s : State) : Host.Outcome State Fault Refusal :=
  .next (s.runGroup x (.cmp .ge p d b) none)

/-- LTU (R115, R131). -/
def execLtu (x : Ctx) (p : Pred) (d : Reg) (b : Src2) (s : State) : Host.Outcome State Fault Refusal :=
  .next (s.runGroup x (.cmp .ltu p d b) none)

/-- LEU (R115, R131). -/
def execLeu (x : Ctx) (p : Pred) (d : Reg) (b : Src2) (s : State) : Host.Outcome State Fault Refusal :=
  .next (s.runGroup x (.cmp .leu p d b) none)

/-- GTU (R115, R131). -/
def execGtu (x : Ctx) (p : Pred) (d : Reg) (b : Src2) (s : State) : Host.Outcome State Fault Refusal :=
  .next (s.runGroup x (.cmp .gtu p d b) none)

/-- GEU (R115, R131). -/
def execGeu (x : Ctx) (p : Pred) (d : Reg) (b : Src2) (s : State) : Host.Outcome State Fault Refusal :=
  .next (s.runGroup x (.cmp .geu p d b) none)

/-- TST (R115). -/
def execTst (x : Ctx) (p : Pred) (d a : Reg) (s : State) : Host.Outcome State Fault Refusal :=
  .next (s.runGroup x (.tst p d a) none)

/-- TSTI (R115). -/
def execTsti (x : Ctx) (p : Pred) (d : Reg) (v : BitVec 32) (s : State) : Host.Outcome State Fault Refusal :=
  .next (s.runGroup x (.tsti p d v) none)

/-- PAND (R116, R131). -/
def execPand (x : Ctx) (p q : Pred) (s : State) : Host.Outcome State Fault Refusal :=
  .next (s.runGroup x (.plog .pand p q) none)

/-- POR (R116, R131). -/
def execPor (x : Ctx) (p q : Pred) (s : State) : Host.Outcome State Fault Refusal :=
  .next (s.runGroup x (.plog .por p q) none)

/-- PXOR (R116, R131). -/
def execPxor (x : Ctx) (p q : Pred) (s : State) : Host.Outcome State Fault Refusal :=
  .next (s.runGroup x (.plog .pxor p q) none)

/-- PANDN (R116, R131). -/
def execPandn (x : Ctx) (p q : Pred) (s : State) : Host.Outcome State Fault Refusal :=
  .next (s.runGroup x (.plog .pandn p q) none)

/-- PNOT (R116, R131). -/
def execPnot (x : Ctx) (p q : Pred) (s : State) : Host.Outcome State Fault Refusal :=
  .next (s.runGroup x (.plog .pnot p q) none)

/-- PMOV (R116, R131). -/
def execPmov (x : Ctx) (p q : Pred) (s : State) : Host.Outcome State Fault Refusal :=
  .next (s.runGroup x (.plog .pmov p q) none)

/-- PSET (R116). -/
def execPset (x : Ctx) (p : Pred) (s : State) : Host.Outcome State Fault Refusal :=
  .next (s.runGroup x (.pset p) none)

/-- PCLR (R116). -/
def execPclr (x : Ctx) (p : Pred) (s : State) : Host.Outcome State Fault Refusal :=
  .next (s.runGroup x (.pclr p) none)

/-- PNZ (R116). -/
def execPnz (x : Ctx) (p : Pred) (a : Reg) (s : State) : Host.Outcome State Fault Refusal :=
  .next (s.runGroup x (.pnz p a) none)

/-- MOVGP (R116). -/
def execMovgp (x : Ctx) (a : Reg) (s : State) : Host.Outcome State Fault Refusal :=
  .next (s.runGroup x (.movgp a) none)

end Sys2Proof.Machine
end

