-- ==== Sys2Proof/Machine/SchedCmds.lean ====
section
/-! DEFINITION. The timebase, the schedule engines and the table loads (R179 to R215). -/

namespace Sys2Proof.Machine

/-- FRAME_START (R180): a new frame begins. -/
def execFrameStart (s : State) : Host.Outcome State Fault Refusal :=
  .next (s.frameStart.settle)

/-- MOVE (R190): slot `i` of engine `n`. -/
def execMove (n i : Nat) (s : State) : Host.Outcome State Fault Refusal :=
  .next (if n < s.nRegions then ((s.tickFirst n (.slot 1 i)).moveSlot n i).settle else s)

/-- MOVE_WINDOW_END (R190): the window of move record `i`, or of commit record `i`, of engine `n` ends. -/
def execMoveWindowEnd (n i : Nat) (commit : Bool) (s : State) : Host.Outcome State Fault Refusal :=
  .next (if n < s.nRegions then ((s.tickFirst n (.work commit i)).workWindow n i commit).settle else s)

/-- RELEASE (R184): slot `i` of engine `n`. -/
def execRelease (n i : Nat) (s : State) : Host.Outcome State Fault Refusal :=
  .next (if n < s.nRegions then ((s.tickFirst n (.slot 2 i)).releaseSlot n i).settle else s)

/-- DEADLINE_END (R187): the end of tick DEADLINE of job record `j` of engine `n`. -/
def execDeadlineEnd (n j : Nat) (s : State) : Host.Outcome State Fault Refusal :=
  .next (if n < s.nRegions then ((s.tickFirst n (.deadline false j)).deadlineEnd n j false).settle else s)

/-- DONE_COMPLETE (R186): a DONE store of job `job` with KIND complete. -/
def execDoneComplete (iid n job : Nat) (s : State) : Host.Outcome State Fault Refusal :=
  .next (s.writeAt n 16 iid (pgSched n) 0x120 (BitVec.ofNat 64 (job % 4096 * 2 ^ 32)))

/-- DONE_STOP_ACK (R187): a DONE store with KIND stop acknowledged. -/
def execDoneStopAck (iid n job : Nat) (s : State) : Host.Outcome State Fault Refusal :=
  .next (s.writeAt n 16 iid (pgSched n) 0x120 (BitVec.ofNat 64 (job % 4096 * 2 ^ 32 + 1)))

/-- LOSS_NOTICE (R195): engine `n` receives its oldest loss notice. -/
def execLossNotice (n : Nat) (s : State) : Host.Outcome State Fault Refusal :=
  .next (if n < s.nRegions then (s.lossNotice n).settle else s)

/-- COMPLETION_NOTICE (R189): engine `n` receives its oldest completion notice. -/
def execCompletionNotice (n : Nat) (s : State) : Host.Outcome State Fault Refusal :=
  .next (if n < s.nRegions then s.completionNotice n else s)

/-- TAKEOVER_NOTICE (R196): engine `n` receives its oldest takeover notice. -/
def execTakeoverNotice (n : Nat) (s : State) : Host.Outcome State Fault Refusal :=
  .next (if n < s.nRegions then s.takeoverNotice n else s)

/-- NOTICE_TIMEOUT (R195): tick DEADLINE + 100 of job record `j` without a notice. -/
def execNoticeTimeout (n j : Nat) (s : State) : Host.Outcome State Fault Refusal :=
  .next (if n < s.nRegions then ((s.tickFirst n (.watch j)).noticeTimeout n j).settle else s)

/-- RERUN_MOVE_END (R195): a re-run move of job record `j` ends. -/
def execRerunMoveEnd (n j : Nat) (s : State) : Host.Outcome State Fault Refusal :=
  .next (if n < s.nRegions then ((s.tickFirst n (.rerun j)).rerunEnd n j).settle else s)

/-- SPAREDL_END (R189): the end of tick SPAREDL of job record `j`. -/
def execSparedlEnd (n j : Nat) (s : State) : Host.Outcome State Fault Refusal :=
  .next (if n < s.nRegions then ((s.tickFirst n (.deadline true j)).deadlineEnd n j true).settle else s)

/-- VOTE (R197): slot `i` of engine `n`. -/
def execVote (n i : Nat) (s : State) : Host.Outcome State Fault Refusal :=
  .next (if n < s.nRegions then ((s.tickFirst n (.slot 3 i)).voteSlot n i).settle else s)

/-- VOTE_WINDOW_END (R198): the vote window of commit record `i` ends. -/
def execVoteWindowEnd (n i : Nat) (s : State) : Host.Outcome State Fault Refusal :=
  .next (if n < s.nRegions then ((s.tickFirst n (.ballot i)).voteWindow n i).settle else s)

/-- COMMIT (R193): slot `i` of engine `n`. -/
def execCommit (n i : Nat) (s : State) : Host.Outcome State Fault Refusal :=
  .next (if n < s.nRegions then ((s.tickFirst n (.slot 4 i)).commitSlot n i).settle else s)

/-- TX (R199): slot `i` of link engine `q`. -/
def execTx (q i : Nat) (s : State) : Host.Outcome State Fault Refusal :=
  .next (if q < 8 then ((s.ltickFirst q true i).txSlot q i) else s)

/-- RXCHK (R200): slot `i` of link engine `q`. -/
def execRxchk (q i : Nat) (s : State) : Host.Outcome State Fault Refusal :=
  .next (if q < 8 then ((s.ltickFirst q true i).rxchkSlot q i) else s)

/-- TBLDATA_WRITE (R211): a write of TBLDATA of a SCHED, LSCHED or TIMEBASE page. -/
def execTbldataWrite (iid page : Nat) (v : Word) (s : State) : Host.Outcome State Fault Refusal :=
  .next ((s.tableData iid page v).svcSettle)

/-- TBLCHK (R212): a write of 1 to TIMEBASE.TBLCHK. -/
def execTblchk (iid : Nat) (s : State) : Host.Outcome State Fault Refusal :=
  .next (s.writeReg iid pgTime 0x140 1)

/-- SWFRAME_WRITE (R214): a write of SWFRAME arms the switch. -/
def execSwframeWrite (iid : Nat) (v : Word) (s : State) : Host.Outcome State Fault Refusal :=
  .next ((s.writeReg iid pgTime 0x150 v).svcSettle)

/-- SCTL_EN_WRITE (R452): a write of SCTL.EN of engine `n`. -/
def execSctlEnWrite (iid n : Nat) (on : Bool) (s : State) : Host.Outcome State Fault Refusal :=
  .next (s.writeAt n 16 iid (pgSched n) 0x100 (withBits (s.reg (pgSched n) 0x100) 0 0 (b2n on)))

/-- ALARM_FIRE (R183, R365): TIME reaches ALARMT`n`. -/
def execAlarmFire (n : Nat) (s : State) : Host.Outcome State Fault Refusal :=
  .next (s.alarm n)

/-- SRC_WRITE (R181): a write of TBCTL.SRC. -/
def execSrcWrite (iid v : Nat) (s : State) : Host.Outcome State Fault Refusal :=
  .next (s.writeReg iid pgTime 0x100 (withBits (s.reg pgTime 0x100) 1 0 v))

/-- SOURCE_LOCK (R181): the requested source reports lock. -/
def execSourceLock (s : State) : Host.Outcome State Fault Refusal :=
  .next (s.sourceLock)

/-- SOURCE_FAILURE (R181): the source in use fails. -/
def execSourceFailure (s : State) : Host.Outcome State Fault Refusal :=
  .next (s.sourceFail)

/-- PPSIN_EDGE (R181): a rising edge of PPSIN. -/
def execPpsinEdge (s : State) : Host.Outcome State Fault Refusal :=
  .next (s.ppsEdge)

/-- TX_HANDOVER_COMPLETE (R199): the handover of lane record `k` of link engine `q` completes. -/
def execTxHandoverComplete (q k : Nat) (s : State) : Host.Outcome State Fault Refusal :=
  .next (if q < 8 then (s.txDone q k).settle else s)

/-- TX_WINDOW_END (R199): the window of lane record `k` of link engine `q` ends. -/
def execTxWindowEnd (q k : Nat) (s : State) : Host.Outcome State Fault Refusal :=
  .next (if q < 8 then (s.ltickFirst q false k).txWindow q k else s)

end Sys2Proof.Machine
end

