-- ==== Sys2Proof/Machine/ServiceCmds.lean ====
section
/-! DEFINITION. The service channels and live update (R395 to R417). -/

namespace Sys2Proof.Machine

/-- SERVICE_MESSAGE (R397): a message arrives on a channel; `src` its Ethernet source address. -/
def execServiceMessage (ch src : Nat) (bytes : List Byte) (s : State) : Host.Outcome State Fault Refusal :=
  .next ((s.svcMessage ch src bytes).svcSettle)

/-- MAILBOX_POLL (R395): the warden polls the mailbox. -/
def execMailboxPoll (s : State) : Host.Outcome State Fault Refusal :=
  .next ((s.mailboxPoll.svcSettle).settle)

/-- GETSEQ (R399): the request at the turn of channel `ch` is performed. -/
def execGetseq (ch : Nat) (s : State) : Host.Outcome State Fault Refusal :=
  .next (s.service ch 0x01 fun s _ => s.svcGetseq ch)

/-- RESEND (R398): the request at the turn of channel `ch` is performed. -/
def execResend (ch : Nat) (s : State) : Host.Outcome State Fault Refusal :=
  .next (s.service ch 0x02 fun s pl => s.svcResendReq ch pl)

/-- READREG (R401): the request at the turn of channel `ch` is performed. -/
def execReadreg (ch : Nat) (s : State) : Host.Outcome State Fault Refusal :=
  .next (s.service ch 0x10 fun s pl => s.svcReadreg ch pl)

/-- LOGREAD (R401): the request at the turn of channel `ch` is performed. -/
def execLogread (ch : Nat) (s : State) : Host.Outcome State Fault Refusal :=
  .next (s.service ch 0x11 fun s pl => s.svcLogread ch pl)

/-- WRITEREG (R401): the request at the turn of channel `ch` is performed. -/
def execWritereg (ch : Nat) (s : State) : Host.Outcome State Fault Refusal :=
  .next (s.service ch 0x20 fun s pl => s.svcWritereg ch pl)

/-- MSG (R417): the request at the turn of channel `ch` is performed. -/
def execMsg (ch : Nat) (s : State) : Host.Outcome State Fault Refusal :=
  .next (s.service ch 0x21 fun s pl => s.svcMsg ch pl)

/-- FLASHWRITE (R401): the request at the turn of channel `ch` is performed. -/
def execFlashwrite (ch : Nat) (s : State) : Host.Outcome State Fault Refusal :=
  .next (s.service ch 0x30 fun s pl => s.svcFlashwrite ch pl)

/-- FLASHERASE (R401): the request at the turn of channel `ch` is performed. -/
def execFlasherase (ch : Nat) (s : State) : Host.Outcome State Fault Refusal :=
  .next (s.service ch 0x31 fun s pl => s.svcFlasherase ch pl)

/-- VERIFY (R407): the request at the turn of channel `ch` is performed. -/
def execVerify (ch : Nat) (s : State) : Host.Outcome State Fault Refusal :=
  .next (s.service ch 0x32 fun s pl => s.svcVerify ch pl)

/-- SETPREF (R415): the request at the turn of channel `ch` is performed. -/
def execSetpref (ch : Nat) (s : State) : Host.Outcome State Fault Refusal :=
  .next (s.service ch 0x33 fun s pl => s.svcSetpref ch pl)

/-- DIRSET (R403): the request at the turn of channel `ch` is performed. -/
def execDirset (ch : Nat) (s : State) : Host.Outcome State Fault Refusal :=
  .next (s.service ch 0x34 fun s pl => s.svcDirset ch pl)

/-- LOADTABLE (R410): the request at the turn of channel `ch` is performed. -/
def execLoadtable (ch : Nat) (s : State) : Host.Outcome State Fault Refusal :=
  .next (s.service ch 0x40 fun s pl => s.svcLoadtable ch pl)

/-- LOADREACT (R410): the request at the turn of channel `ch` is performed. -/
def execLoadreact (ch : Nat) (s : State) : Host.Outcome State Fault Refusal :=
  .next (s.service ch 0x41 fun s pl => s.svcLoadreact ch pl)

/-- LOADTRIAD (R409): the request at the turn of channel `ch` is performed. -/
def execLoadtriad (ch : Nat) (s : State) : Host.Outcome State Fault Refusal :=
  .next (s.service ch 0x42 fun s pl => s.svcLoadtriad ch pl)

/-- LOADMCODE (R412 to R414): the request at the turn of channel `ch` is performed. -/
def execLoadmcode (ch : Nat) (s : State) : Host.Outcome State Fault Refusal :=
  .next (s.service ch 0x43 fun s pl => s.svcLoadmcode ch pl)

/-- WARDENSWAP (R411): the request is performed; `takes`: the new firmware takes the record in time. -/
def execWardenswap (ch : Nat) (takes : Bool) (s : State) : Host.Outcome State Fault Refusal :=
  .next (s.service ch 0x50 fun s pl => s.svcWardenswap ch takes pl)

/-- HANDOVER_TIMEOUT (R411): the new firmware has not taken the record within 500 ms. -/
def execHandoverTimeout (s : State) : Host.Outcome State Fault Refusal :=
  .next (s.handoverTimeout)

/-- RESET (R401): the request at the turn of channel `ch` is performed. -/
def execReset (ch : Nat) (s : State) : Host.Outcome State Fault Refusal :=
  .next ((s.service ch 0x60 fun s pl => s.svcReset ch pl).settle)

/-- INSTALLSET (R416): the request at the turn of channel `ch` is performed. -/
def execInstallset (ch : Nat) (s : State) : Host.Outcome State Fault Refusal :=
  .next (s.service ch 0x61 fun s pl => s.svcInstallset ch pl)

/-- REVOKEKEY (R415): the request at the turn of channel `ch` is performed. -/
def execRevokekey (ch : Nat) (s : State) : Host.Outcome State Fault Refusal :=
  .next (s.service ch 0x70 fun s pl => s.svcRevokekey ch pl)

/-- SEND (R417): a write of 1 to MSGCTL.SEND. -/
def execSend (iid : Nat) (s : State) : Host.Outcome State Fault Refusal :=
  .next (s.writeReg iid pgSvc 0x140 1)

/-- MSGIN7_READ (R417): a read of MSGIN7. -/
def execMsgin7Read (iid : Nat) (s : State) : Host.Outcome State Fault Refusal :=
  .next (s.readReg iid pgSvc 0x1B8)

/-- ACKNOWLEDGE_WAIT_EXPIRY (R416): 100 ms without the acknowledgement of INSTALLSET. -/
def execAcknowledgeWaitExpiry (s : State) : Host.Outcome State Fault Refusal :=
  .next (s.ackExpiry)

end Sys2Proof.Machine
end

