-- ==== Sys2Proof/Machine/StartCmds.lean ====
section
/-! DEFINITION. Resets, the start sequence and self-test (R371 to R394, R450). -/

namespace Sys2Proof.Machine

/-- POWER_ON_RESET (R371, R375): 1 VAO entered its range, 2 PORST_N, 3 the AO0 monitor; the DEVID strap is sampled. -/
def execPowerOnReset (cause devid : Nat) (s : State) : Host.Outcome State Fault Refusal :=
  .next (s.powerOn cause (devid % 8) State.reset)

/-- START_STEP_COMPLETE (R375): the step in progress completes. -/
def execStartStepComplete (r : StartResult) (s : State) : Host.Outcome State Fault Refusal :=
  .next ((s.startStep r).settle)

/-- DEVICE_RESET (R373): a write of RSTCTL with KIND device. -/
def execDeviceReset (iid key : Nat) (s : State) : Host.Outcome State Fault Refusal :=
  .next (s.rstctl iid key 1 0)

/-- DIE_RESET (R373): a write of RSTCTL with KIND die. -/
def execDieReset (iid key d : Nat) (s : State) : Host.Outcome State Fault Refusal :=
  .next ((s.rstctl iid key 2 d).settle)

/-- REGION_RESET (R373): a write of RSTCTL with KIND region. -/
def execRegionReset (iid key n : Nat) (s : State) : Host.Outcome State Fault Refusal :=
  .next ((s.rstctl iid key 3 n).settle)

/-- TRIAD_RESET (R373): a write of RSTCTL with KIND triad. -/
def execTriadReset (iid key t : Nat) (s : State) : Host.Outcome State Fault Refusal :=
  .next ((s.rstctl iid key 4 t).settle)

/-- DEBUG_RESET (R372): only the TAP is reset. -/
def execDebugReset (s : State) : Host.Outcome State Fault Refusal :=
  .next ({ s with tapReset := true })

/-- STARTOK (R391): a write of 1 to WCTL.STARTOK. -/
def execStartok (iid : Nat) (s : State) : Host.Outcome State Fault Refusal :=
  .next (s.writeReg iid pgWarden 0x100 1)

/-- STARTTMO_EXPIRY (R390): START_OK not accepted within STARTTMO. -/
def execStarttmoExpiry (s : State) : Host.Outcome State Fault Refusal :=
  .next (s.startTmo)

/-- STEP9_TIMEOUT (R390): step 9 not reached within 60 s. -/
def execStep9Timeout (s : State) : Host.Outcome State Fault Refusal :=
  .next (s.step9Tmo)

/-- RETRY_EXPIRY (R391): 100 ms after a failed start. -/
def execRetryExpiry (s : State) : Host.Outcome State Fault Refusal :=
  .next (s.retryExpiry)

/-- GO (R387): a write of BCTL with GO. -/
def execGo (iid : Nat) (v : Word) (s : State) : Host.Outcome State Fault Refusal :=
  .next (s.writeReg iid pgBist 0x100 (v ||| 1))

/-- BIST_RUN_END (R386): the run under way ends. -/
def execBistRunEnd (pass : Bool) (s : State) : Host.Outcome State Fault Refusal :=
  .next (s.bistDone pass)

/-- RESET_COMPLETE (R371): a die (2), region (3) or triad (4) reset completes. -/
def execResetComplete (kind inst : Nat) (s : State) : Host.Outcome State Fault Refusal :=
  .next (s.resetDone kind inst)

end Sys2Proof.Machine
end

