-- ==== Sys2Proof/Machine/System.lean ====
section
/-! DEFINITION. Control registers and synchronisation: each is one group of the copy that its context names. -/

namespace Sys2Proof.Machine

/-- MFC (R148, R102). -/
def execMfc (x : Ctx) (d : Reg) (n : BitVec 16) (s : State) : Host.Outcome State Fault Refusal :=
  .next (s.runGroup x (.mfc d n) none)

/-- MTC (R148, R89, R102). -/
def execMtc (x : Ctx) (a : Reg) (n : BitVec 16) (s : State) : Host.Outcome State Fault Refusal :=
  .next (s.runGroup x (.mtc a n) none)

/-- HOLD (R149, R168). -/
def execHold (x : Ctx) (n : BitVec 16) (s : State) : Host.Outcome State Fault Refusal :=
  .next (s.runGroup x (.hold n) none)

/-- WAIT (R150, R63, R358). -/
def execWait (x : Ctx) (s : State) : Host.Outcome State Fault Refusal :=
  .next (s.runGroup x .wait none)

/-- MSYNC (R91). -/
def execMsync (x : Ctx) (s : State) : Host.Outcome State Fault Refusal :=
  .next (s.runGroup x .msync none)

/-- FENCE (R151). -/
def execFence (x : Ctx) (s : State) : Host.Outcome State Fault Refusal :=
  .next (s.runGroup x .fence none)

/-- FENCE.RULE (R151, R253). -/
def execFenceRule (x : Ctx) (s : State) : Host.Outcome State Fault Refusal :=
  .next (s.runGroup x .fenceRule none)

/-- NOP (R118). -/
def execNop (x : Ctx) (s : State) : Host.Outcome State Fault Refusal :=
  .next (s.runGroup x .nop none)

end Sys2Proof.Machine
end

