-- ==== Sys2Proof/Machine/TriadCmds.lean ====
section
/-! DEFINITION. The triads, their TMIs and voters (R39 to R98, R157 to R178): events of the copies, mordanting, writes
of their pages. -/

namespace Sys2Proof.Machine

/-- EXCEPTION_ENTRY (R160): copy `c` of triad `t` takes the entry that stands at its head. -/
def execExceptionEntry (t c : Nat) (s : State) : Host.Outcome State Fault Refusal :=
  .next (s.runEntry t c)

/-- INTERRUPT_REQUEST (R62): the interrupt unit of triad `t` accepts a request of vector `v`. -/
def execInterruptRequest (t v : Nat) (s : State) : Host.Outcome State Fault Refusal :=
  .next (s.request t v)

/-- TINT_ARRIVAL (R50): the oldest tint of copy `c` reaches the voter. -/
def execTintArrival (t c : Nat) (s : State) : Host.Outcome State Fault Refusal :=
  .next (s.tintArrival t c)

/-- REPLAY_LOAD_REQUEST (R53): copy `c` presents the side-effect-free load at its head. -/
def execReplayLoadRequest (t c : Nat) (s : State) : Host.Outcome State Fault Refusal :=
  .next (((s.present t c true).settle).svcSettle)

/-- GATED_REQUEST (R55): copy `c` presents the gated access at its head. -/
def execGatedRequest (t c : Nat) (s : State) : Host.Outcome State Fault Refusal :=
  .next (((s.present t c false).settle).svcSettle)

/-- TMI_RESPONSE (R56): the next response on its way to triad `t` arrives. -/
def execTmiResponse (t : Nat) (s : State) : Host.Outcome State Fault Refusal :=
  .next (((s.tmiResponse t).settle).svcSettle)

/-- LAG_LIMIT (R47): copy `c` has retired nothing for LAGLIM. -/
def execLagLimit (t c : Nat) (s : State) : Host.Outcome State Fault Refusal :=
  .next (s.lagLimitHit t c)

/-- STEP_BLOCK_END (R94): a block of 256 free steps ends with an average in ps. -/
def execStepBlockEnd (t c avg : Nat) (s : State) : Host.Outcome State Fault Refusal :=
  .next (s.stepBlockEnd t c avg)

/-- TCM_SCRUB (R223): the scrubber reads the next word of copy `c`. -/
def execTcmScrub (t c : Nat) (s : State) : Host.Outcome State Fault Refusal :=
  .next (s.tcmScrub t c)

/-- TCM_WRITE_BACK (R223): the service port writes a corrected word back. -/
def execTcmWriteBack (t c : Nat) (s : State) : Host.Outcome State Fault Refusal :=
  .next (s.tcmWriteBack t c)

/-- MORDANTING_ROUND_END (R74, R77): a round ends, `ok` without a check error. -/
def execMordantingRoundEnd (t : Nat) (ok : Bool) (s : State) : Host.Outcome State Fault Refusal :=
  .next (if t < s.nTriads then s.mordRoundEnd t ok else s)

/-- MORDANTING_PAUSE (R74): the pause begins at boundary B. -/
def execMordantingPause (t : Nat) (s : State) : Host.Outcome State Fault Refusal :=
  .next (if t < s.nTriads then s.mordPause t else s)

/-- MORDANTING_COMPLETE (R74, R78): the final copy ends. -/
def execMordantingComplete (t : Nat) (ok : Bool) (s : State) : Host.Outcome State Fault Refusal :=
  .next (if t < s.nTriads then s.mordComplete t ok else s)

/-- MORDTMO_EXPIRY (R77): the pause has not begun within MORDTMO. -/
def execMordtmoExpiry (t : Nat) (s : State) : Host.Outcome State Fault Refusal :=
  .next (if t < s.nTriads then s.mordTimeout t else s)

/-- TMODE_WRITE (R68): initiator `iid` writes TMODE of triad `t`. -/
def execTmodeWrite (iid t : Nat) (v : Word) (s : State) : Host.Outcome State Fault Refusal :=
  .next (s.writeAt t 64 iid (pgTriad t) 0x100 v)

/-- TCFG_WRITE (R46): a write of TCFG. -/
def execTcfgWrite (iid t : Nat) (v : Word) (s : State) : Host.Outcome State Fault Refusal :=
  .next (s.writeAt t 64 iid (pgTriad t) 0x108 v)

/-- IRQSET_WRITE (R167): a write of IRQSET. -/
def execIrqsetWrite (iid t : Nat) (v : Word) (s : State) : Host.Outcome State Fault Refusal :=
  .next (s.writeAt t 64 iid (pgTriad t) 0x168 v)

/-- RADMWIN_WRITE (R79): a write of RADM. -/
def execRadmwinWrite (iid t : Nat) (v : Word) (s : State) : Host.Outcome State Fault Refusal :=
  .next (s.writeAt t 64 iid (pgTriad t) 0x180 v)

/-- CLRMON (R94): a write of 1 to CCTL.CLRMON of copy `key` = 3t + c. -/
def execClrmon (iid key : Nat) (s : State) : Host.Outcome State Fault Refusal :=
  .next (s.writeAt key 192 iid (pgCore key) 0x140 2)

/-- CLRCNT (R5): a write of 1 to the CLRCNT bit of a register. -/
def execClrcnt (iid page off : Nat) (s : State) : Host.Outcome State Fault Refusal :=
  .next (s.clearCounters iid page off)

end Sys2Proof.Machine
end

