-- ==== Sys2Proof/Machine/VmeCmds.lean ====
section
/-! DEFINITION. The VME port (R323 to R339). -/

namespace Sys2Proof.Machine

/-- OUTBOUND_ACCESS (R325): the oldest access on its way to an outbound window is translated. -/
def execOutboundAccess (s : State) : Host.Outcome State Fault Refusal :=
  .next (s.outbound.settle)

/-- QUEUE_ENTRY (R326): the master side performs the next entry; `a` is what the bus answers. -/
def execQueueEntry (a : VmeAns) (s : State) : Host.Outcome State Fault Refusal :=
  .next ((s.vmeNext a).settle)

/-- BUS_TIMER (R332): with SYSCON in force, the cycle on the bus has no DTACK within BTO; an outbound one, `done` bytes after its
entry's start. -/
def execBusTimer (done : Nat) (s : State) : Host.Outcome State Fault Refusal :=
  .next ((s.busTimer done).settle)

/-- QUEUE_TIMEOUT (R327): the entry in front has not ended 900 us after acceptance. -/
def execQueueTimeout (s : State) : Host.Outcome State Fault Refusal :=
  .next (s.vmeQueueTimeout.settle)

/-- INBOUND_CYCLE (R329): a VME cycle of another master. -/
def execInboundCycle (c : VmeCycle) (s : State) : Host.Outcome State Fault Refusal :=
  .next ((s.inbound c).settle)

/-- SYSRESET_IN (R332): another board asserts SYSRESET*. -/
def execSysresetIn (s : State) : Host.Outcome State Fault Refusal :=
  .next (s.sysresetIn.settle)

/-- SYSRESET_EXPIRY (R332): 200 ms after SYSCON took effect. -/
def execSysresetExpiry (s : State) : Host.Outcome State Fault Refusal :=
  .next (s.sysresetDone)

/-- VCFG_WRITE (R332): a write of VCFG. -/
def execVcfgWrite (iid : Nat) (v : Word) (s : State) : Host.Outcome State Fault Refusal :=
  .next (s.writeReg iid pgVme 0x100 v)

/-- VIRQ_WRITE (R333): a write of VIRQ. -/
def execVirqWrite (iid : Nat) (v : Word) (s : State) : Host.Outcome State Fault Refusal :=
  .next (s.writeReg iid pgVme 0x118 v)

/-- IACK (R333): an IACK cycle for a level that the port may assert. -/
def execIack (level : Nat) (s : State) : Host.Outcome State Fault Refusal :=
  .next (if 1 ≤ level ∧ level ≤ 7 then s.iackIn level else s)

/-- IRQ_ASSERTED (R333): another board asserts an interrupt level. -/
def execIrqAsserted (level : Nat) (s : State) : Host.Outcome State Fault Refusal :=
  .next (if 1 ≤ level ∧ level ≤ 7 then s.vmeLine level else s)

/-- VINTPOP_READ (R333): a read of VINTPOP. -/
def execVintpopRead (iid : Nat) (s : State) : Host.Outcome State Fault Refusal :=
  .next (s.readReg iid pgVme 0x128)

/-- VMEMAP_WRITE (R325): a write of a VMEMAP register. -/
def execVmemapWrite (iid off : Nat) (v : Word) (s : State) : Host.Outcome State Fault Refusal :=
  .next (s.writeAt off 0x1000 iid pgVmemap off v)

/-- PCFG_WRITE (R334): a write of PCFG of partner entry `p`. -/
def execPcfgWrite (iid p : Nat) (v : Word) (s : State) : Host.Outcome State Fault Refusal :=
  .next (s.writeAt p 32 iid pgVmepart (0x100 + 0x20 * p) v)

/-- DISC_WRITE (R335): a write of DISC. -/
def execDiscWrite (iid : Nat) (v : Word) (s : State) : Host.Outcome State Fault Refusal :=
  .next (s.writeReg iid pgVmepart 0x500 v)

end Sys2Proof.Machine
end

