-- ==== Sys2Proof/Machine/Dispatch.lean ====
section
/-! DEFINITION. One arm per command: the meaning that gives it. -/

namespace Sys2Proof.Machine

def exec (i : Instr) (s : State) : Host.Outcome State Fault Refusal :=
  match i with
  | .add x d a b => Sys2Proof.Machine.execAdd x d a b s
  | .sub x d a b => Sys2Proof.Machine.execSub x d a b s
  | .and x d a b => Sys2Proof.Machine.execAnd x d a b s
  | .or x d a b => Sys2Proof.Machine.execOr x d a b s
  | .xor x d a b => Sys2Proof.Machine.execXor x d a b s
  | .andn x d a b => Sys2Proof.Machine.execAndn x d a b s
  | .shl x d a b => Sys2Proof.Machine.execShl x d a b s
  | .shr x d a b => Sys2Proof.Machine.execShr x d a b s
  | .sar x d a b => Sys2Proof.Machine.execSar x d a b s
  | .rol x d a b => Sys2Proof.Machine.execRol x d a b s
  | .ror x d a b => Sys2Proof.Machine.execRor x d a b s
  | .mul x d a b => Sys2Proof.Machine.execMul x d a b s
  | .mulh x d a b => Sys2Proof.Machine.execMulh x d a b s
  | .mulhu x d a b => Sys2Proof.Machine.execMulhu x d a b s
  | .addt x d a b => Sys2Proof.Machine.execAddt x d a b s
  | .subt x d a b => Sys2Proof.Machine.execSubt x d a b s
  | .mult x d a b => Sys2Proof.Machine.execMult x d a b s
  | .div x d a b => Sys2Proof.Machine.execDiv x d a b s
  | .divu x d a b => Sys2Proof.Machine.execDivu x d a b s
  | .rem x d a b => Sys2Proof.Machine.execRem x d a b s
  | .remu x d a b => Sys2Proof.Machine.execRemu x d a b s
  | .min x d a b => Sys2Proof.Machine.execMin x d a b s
  | .max x d a b => Sys2Proof.Machine.execMax x d a b s
  | .minu x d a b => Sys2Proof.Machine.execMinu x d a b s
  | .maxu x d a b => Sys2Proof.Machine.execMaxu x d a b s
  | .mov x d a => Sys2Proof.Machine.execMov x d a s
  | .movi x d v => Sys2Proof.Machine.execMovi x d v s
  | .movis x d v => Sys2Proof.Machine.execMovis x d v s
  | .neg x d a => Sys2Proof.Machine.execNeg x d a s
  | .not x d a => Sys2Proof.Machine.execNot x d a s
  | .sxb x d a => Sys2Proof.Machine.execSxb x d a s
  | .sxh x d a => Sys2Proof.Machine.execSxh x d a s
  | .sxw x d a => Sys2Proof.Machine.execSxw x d a s
  | .zxb x d a => Sys2Proof.Machine.execZxb x d a s
  | .zxh x d a => Sys2Proof.Machine.execZxh x d a s
  | .zxw x d a => Sys2Proof.Machine.execZxw x d a s
  | .clz x d a => Sys2Proof.Machine.execClz x d a s
  | .ctz x d a => Sys2Proof.Machine.execCtz x d a s
  | .popc x d a => Sys2Proof.Machine.execPopc x d a s
  | .bswap x d a => Sys2Proof.Machine.execBswap x d a s
  | .movpg x d => Sys2Proof.Machine.execMovpg x d s
  | .ld x d a o => Sys2Proof.Machine.execLd x d a o s
  | .lds x d a o => Sys2Proof.Machine.execLds x d a o s
  | .ldpc x d o => Sys2Proof.Machine.execLdpc x d o s
  | .st x d a o => Sys2Proof.Machine.execSt x d a o s
  | .sti x a o v => Sys2Proof.Machine.execSti x a o v s
  | .lea x d a o => Sys2Proof.Machine.execLea x d a o s
  | .leapc x d o => Sys2Proof.Machine.execLeapc x d o s
  | .push x a => Sys2Proof.Machine.execPush x a s
  | .pop x d => Sys2Proof.Machine.execPop x d s
  | .br x o => Sys2Proof.Machine.execBr x o s
  | .brr x a => Sys2Proof.Machine.execBrr x a s
  | .call x o => Sys2Proof.Machine.execCall x o s
  | .callr x a => Sys2Proof.Machine.execCallr x a s
  | .dbnz x d o => Sys2Proof.Machine.execDbnz x d o s
  | .ret x => Sys2Proof.Machine.execRet x s
  | .rete x => Sys2Proof.Machine.execRete x s
  | .tas x p a o => Sys2Proof.Machine.execTas x p a o s
  | .ldrs x d a => Sys2Proof.Machine.execLdrs x d a s
  | .stc x p d a => Sys2Proof.Machine.execStc x p d a s
  | .clrres x => Sys2Proof.Machine.execClrres x s
  | .mfc x d n => Sys2Proof.Machine.execMfc x d n s
  | .mtc x a n => Sys2Proof.Machine.execMtc x a n s
  | .hold x n => Sys2Proof.Machine.execHold x n s
  | .wait x => Sys2Proof.Machine.execWait x s
  | .msync x => Sys2Proof.Machine.execMsync x s
  | .fence x => Sys2Proof.Machine.execFence x s
  | .fenceRule x => Sys2Proof.Machine.execFenceRule x s
  | .nop x => Sys2Proof.Machine.execNop x s
  | .movs x => Sys2Proof.Machine.execMovs x s
  | .fills x => Sys2Proof.Machine.execFills x s
  | .cmps x p => Sys2Proof.Machine.execCmps x p s
  | .scans x p a => Sys2Proof.Machine.execScans x p a s
  | .crcs x => Sys2Proof.Machine.execCrcs x s
  | .repeatElement x r f => Sys2Proof.Machine.execRepeatElement x r f s
  | .eq x p d b => Sys2Proof.Machine.execEq x p d b s
  | .ne x p d b => Sys2Proof.Machine.execNe x p d b s
  | .lt x p d b => Sys2Proof.Machine.execLt x p d b s
  | .le x p d b => Sys2Proof.Machine.execLe x p d b s
  | .gt x p d b => Sys2Proof.Machine.execGt x p d b s
  | .ge x p d b => Sys2Proof.Machine.execGe x p d b s
  | .ltu x p d b => Sys2Proof.Machine.execLtu x p d b s
  | .leu x p d b => Sys2Proof.Machine.execLeu x p d b s
  | .gtu x p d b => Sys2Proof.Machine.execGtu x p d b s
  | .geu x p d b => Sys2Proof.Machine.execGeu x p d b s
  | .tst x p d a => Sys2Proof.Machine.execTst x p d a s
  | .tsti x p d v => Sys2Proof.Machine.execTsti x p d v s
  | .pand x p q => Sys2Proof.Machine.execPand x p q s
  | .por x p q => Sys2Proof.Machine.execPor x p q s
  | .pxor x p q => Sys2Proof.Machine.execPxor x p q s
  | .pandn x p q => Sys2Proof.Machine.execPandn x p q s
  | .pnot x p q => Sys2Proof.Machine.execPnot x p q s
  | .pmov x p q => Sys2Proof.Machine.execPmov x p q s
  | .pset x p => Sys2Proof.Machine.execPset x p s
  | .pclr x p => Sys2Proof.Machine.execPclr x p s
  | .pnz x p a => Sys2Proof.Machine.execPnz x p a s
  | .movgp x a => Sys2Proof.Machine.execMovgp x a s
  | .exceptionEntry t c => Sys2Proof.Machine.execExceptionEntry t c s
  | .interruptRequest t v => Sys2Proof.Machine.execInterruptRequest t v s
  | .tintArrival t c => Sys2Proof.Machine.execTintArrival t c s
  | .replayLoadRequest t c => Sys2Proof.Machine.execReplayLoadRequest t c s
  | .gatedRequest t c => Sys2Proof.Machine.execGatedRequest t c s
  | .tmiResponse t => Sys2Proof.Machine.execTmiResponse t s
  | .lagLimit t c => Sys2Proof.Machine.execLagLimit t c s
  | .stepBlockEnd t c avg => Sys2Proof.Machine.execStepBlockEnd t c avg s
  | .tcmScrub t c => Sys2Proof.Machine.execTcmScrub t c s
  | .tcmWriteBack t c => Sys2Proof.Machine.execTcmWriteBack t c s
  | .mordantingRoundEnd t ok => Sys2Proof.Machine.execMordantingRoundEnd t ok s
  | .mordantingPause t => Sys2Proof.Machine.execMordantingPause t s
  | .mordantingComplete t ok => Sys2Proof.Machine.execMordantingComplete t ok s
  | .mordtmoExpiry t => Sys2Proof.Machine.execMordtmoExpiry t s
  | .tmodeWrite iid t v => Sys2Proof.Machine.execTmodeWrite iid t v s
  | .tcfgWrite iid t v => Sys2Proof.Machine.execTcfgWrite iid t v s
  | .irqsetWrite iid t v => Sys2Proof.Machine.execIrqsetWrite iid t v s
  | .radmwinWrite iid t v => Sys2Proof.Machine.execRadmwinWrite iid t v s
  | .clrmon iid key => Sys2Proof.Machine.execClrmon iid key s
  | .clrcnt iid page off => Sys2Proof.Machine.execClrcnt iid page off s
  | .frameStart => Sys2Proof.Machine.execFrameStart s
  | .move n j => Sys2Proof.Machine.execMove n j s
  | .moveWindowEnd n j commit => Sys2Proof.Machine.execMoveWindowEnd n j commit s
  | .release n j => Sys2Proof.Machine.execRelease n j s
  | .deadlineEnd n j => Sys2Proof.Machine.execDeadlineEnd n j s
  | .doneComplete iid n job => Sys2Proof.Machine.execDoneComplete iid n job s
  | .doneStopAck iid n job => Sys2Proof.Machine.execDoneStopAck iid n job s
  | .lossNotice n => Sys2Proof.Machine.execLossNotice n s
  | .completionNotice n => Sys2Proof.Machine.execCompletionNotice n s
  | .takeoverNotice n => Sys2Proof.Machine.execTakeoverNotice n s
  | .noticeTimeout n j => Sys2Proof.Machine.execNoticeTimeout n j s
  | .rerunMoveEnd n j => Sys2Proof.Machine.execRerunMoveEnd n j s
  | .sparedlEnd n j => Sys2Proof.Machine.execSparedlEnd n j s
  | .vote n j => Sys2Proof.Machine.execVote n j s
  | .voteWindowEnd n j => Sys2Proof.Machine.execVoteWindowEnd n j s
  | .commit n j => Sys2Proof.Machine.execCommit n j s
  | .tx q j => Sys2Proof.Machine.execTx q j s
  | .rxchk q j => Sys2Proof.Machine.execRxchk q j s
  | .tbldataWrite iid page v => Sys2Proof.Machine.execTbldataWrite iid page v s
  | .tblchk iid => Sys2Proof.Machine.execTblchk iid s
  | .swframeWrite iid v => Sys2Proof.Machine.execSwframeWrite iid v s
  | .sctlEnWrite iid n on => Sys2Proof.Machine.execSctlEnWrite iid n on s
  | .alarmFire n => Sys2Proof.Machine.execAlarmFire n s
  | .srcWrite iid v => Sys2Proof.Machine.execSrcWrite iid v s
  | .sourceLock => Sys2Proof.Machine.execSourceLock s
  | .sourceFailure => Sys2Proof.Machine.execSourceFailure s
  | .ppsinEdge => Sys2Proof.Machine.execPpsinEdge s
  | .txHandoverComplete q k => Sys2Proof.Machine.execTxHandoverComplete q k s
  | .txWindowEnd q k => Sys2Proof.Machine.execTxWindowEnd q k s
  | .sramAccess n => Sys2Proof.Machine.execSramAccess n s
  | .sramWriteBack n => Sys2Proof.Machine.execSramWriteBack n s
  | .zeroFillComplete n ok => Sys2Proof.Machine.execZeroFillComplete n ok s
  | .ddr4Request k => Sys2Proof.Machine.execDdr4Request k s
  | .maintenanceWindow k => Sys2Proof.Machine.execMaintenanceWindow k s
  | .dcfgWrite iid k v => Sys2Proof.Machine.execDcfgWrite iid k v s
  | .start iid k => Sys2Proof.Machine.execStart iid k s
  | .trainingComplete k pass us => Sys2Proof.Machine.execTrainingComplete k pass us s
  | .trainingTimeout k => Sys2Proof.Machine.execTrainingTimeout k s
  | .init iid k => Sys2Proof.Machine.execInit iid k s
  | .initComplete k => Sys2Proof.Machine.execInitComplete k s
  | .mirror iid k on => Sys2Proof.Machine.execMirror iid k on s
  | .retrain iid k => Sys2Proof.Machine.execRetrain iid k s
  | .retire iid k => Sys2Proof.Machine.execRetire iid k s
  | .selfRefreshExitComplete k => Sys2Proof.Machine.execSelfRefreshExitComplete k s
  | .commitFwall iid n v => Sys2Proof.Machine.execCommitFwall iid n v s
  | .clrdeny iid n => Sys2Proof.Machine.execClrdeny iid n s
  | .flitArrival f => Sys2Proof.Machine.execFlitArrival f s
  | .tagTimeout tag => Sys2Proof.Machine.execTagTimeout tag s
  | .crcFeed n => Sys2Proof.Machine.execCrcFeed n s
  | .crctlInit iid n mask => Sys2Proof.Machine.execCrctlInit iid n mask s
  | .ccfgWrite iid n j v => Sys2Proof.Machine.execCcfgWrite iid n j v s
  | .cvalueWrite iid n j count v => Sys2Proof.Machine.execCvalueWrite iid n j count v s
  | .faultEvent src code unit detail => Sys2Proof.Machine.execFaultEvent src code unit detail s
  | .railFault src pair => Sys2Proof.Machine.execRailFault src pair s
  | .takeEvent => Sys2Proof.Machine.execTakeEvent s
  | .resetActionExpiry => Sys2Proof.Machine.execResetActionExpiry s
  | .railSweep bad => Sys2Proof.Machine.execRailSweep bad s
  | .leakClear => Sys2Proof.Machine.execLeakClear s
  | .erroutToggle => Sys2Proof.Machine.execErroutToggle s
  | .rtblchk iid => Sys2Proof.Machine.execRtblchk iid s
  | .rswgenWrite iid v => Sys2Proof.Machine.execRswgenWrite iid v s
  | .reactionBankExchange => Sys2Proof.Machine.execReactionBankExchange s
  | .flogselWrite iid v => Sys2Proof.Machine.execFlogselWrite iid v s
  | .clrfirst iid => Sys2Proof.Machine.execClrfirst iid s
  | .clrlog iid => Sys2Proof.Machine.execClrlog iid s
  | .arm iid page v => Sys2Proof.Machine.execArm iid page v s
  | .lctlEnWrite iid l on => Sys2Proof.Machine.execLctlEnWrite iid l on s
  | .signalDetect l => Sys2Proof.Machine.execSignalDetect l s
  | .autoNegotiation l abilities fec page => Sys2Proof.Machine.execAutoNegotiation l abilities fec page s
  | .capSend l => Sys2Proof.Machine.execCapSend l s
  | .cap rx flags c => Sys2Proof.Machine.execCap rx flags c s
  | .rateChange l => Sys2Proof.Machine.execRateChange l s
  | .equaliserConverged l => Sys2Proof.Machine.execEqualiserConverged l s
  | .trainingLimit l => Sys2Proof.Machine.execTrainingLimit l s
  | .confirmTimeout l => Sys2Proof.Machine.execConfirmTimeout l s
  | .laneFailure l why => Sys2Proof.Machine.execLaneFailure l why s
  | .spareTimeout l => Sys2Proof.Machine.execSpareTimeout l s
  | .downExpiry j => Sys2Proof.Machine.execDownExpiry j s
  | .retune iid l => Sys2Proof.Machine.execRetune iid l s
  | .reneg iid l => Sys2Proof.Machine.execReneg iid l s
  | .sendindigo iid l => Sys2Proof.Machine.execSendindigo iid l s
  | .indigoDetect l => Sys2Proof.Machine.execIndigoDetect l s
  | .data rx bytes => Sys2Proof.Machine.execData rx bytes s
  | .req rx addr kind width bytes => Sys2Proof.Machine.execReq rx addr kind width bytes s
  | .rsp rx status bytes => Sys2Proof.Machine.execRsp rx status bytes s
  | .voteFrame rx v => Sys2Proof.Machine.execVoteFrame rx v s
  | .time rx tx rxlast txlast => Sys2Proof.Machine.execTime rx tx rxlast txlast s
  | .svc rx code arg msg => Sys2Proof.Machine.execSvc rx code arg msg s
  | .ack rx => Sys2Proof.Machine.execAck rx s
  | .nak rx => Sys2Proof.Machine.execNak rx s
  | .reorderTimeout j vc => Sys2Proof.Machine.execReorderTimeout j vc s
  | .retryTimeout j vc => Sys2Proof.Machine.execRetryTimeout j vc s
  | .timeSend j => Sys2Proof.Machine.execTimeSend j s
  | .holdover => Sys2Proof.Machine.execHoldover s
  | .holdoverExpiry => Sys2Proof.Machine.execHoldoverExpiry s
  | .peerHoldTimeout j tag serving dev => Sys2Proof.Machine.execPeerHoldTimeout j tag serving dev s
  | .blcfgWrite iid j v => Sys2Proof.Machine.execBlcfgWrite iid j v s
  | .restart iid q => Sys2Proof.Machine.execRestart iid q s
  | .ethernetFrame mac f => Sys2Proof.Machine.execEthernetFrame mac f s
  | .tailWrite iid mac rx v => Sys2Proof.Machine.execTailWrite iid mac rx v s
  | .transmitDescriptorReturned mac => Sys2Proof.Machine.execTransmitDescriptorReturned mac s
  | .outboundAccess => Sys2Proof.Machine.execOutboundAccess s
  | .queueEntry a => Sys2Proof.Machine.execQueueEntry a s
  | .busTimer done => Sys2Proof.Machine.execBusTimer done s
  | .queueTimeout => Sys2Proof.Machine.execQueueTimeout s
  | .inboundCycle c => Sys2Proof.Machine.execInboundCycle c s
  | .sysresetIn => Sys2Proof.Machine.execSysresetIn s
  | .sysresetExpiry => Sys2Proof.Machine.execSysresetExpiry s
  | .vcfgWrite iid v => Sys2Proof.Machine.execVcfgWrite iid v s
  | .virqWrite iid v => Sys2Proof.Machine.execVirqWrite iid v s
  | .iack level => Sys2Proof.Machine.execIack level s
  | .irqAsserted level => Sys2Proof.Machine.execIrqAsserted level s
  | .vintpopRead iid => Sys2Proof.Machine.execVintpopRead iid s
  | .vmemapWrite iid off v => Sys2Proof.Machine.execVmemapWrite iid off v s
  | .pcfgWrite iid p v => Sys2Proof.Machine.execPcfgWrite iid p v s
  | .discWrite iid v => Sys2Proof.Machine.execDiscWrite iid v s
  | .mailboxHeaderWrite iid k m v => Sys2Proof.Machine.execMailboxHeaderWrite iid k m v s
  | .canFrameReceived k hdr bytes => Sys2Proof.Machine.execCanFrameReceived k hdr bytes s
  | .recover iid k => Sys2Proof.Machine.execRecover iid k s
  | .udataWrite iid k v => Sys2Proof.Machine.execUdataWrite iid k v s
  | .udataRead iid k => Sys2Proof.Machine.execUdataRead iid k s
  | .uartCharacter k ch err => Sys2Proof.Machine.execUartCharacter k ch err s
  | .mdioGo iid j v => Sys2Proof.Machine.execMdioGo iid j v s
  | .icmdStart iid k => Sys2Proof.Machine.execIcmdStart iid k s
  | .icmdWrite iid k data => Sys2Proof.Machine.execIcmdWrite iid k data s
  | .icmdReadAck iid k => Sys2Proof.Machine.execIcmdReadAck iid k s
  | .icmdReadNack iid k => Sys2Proof.Machine.execIcmdReadNack iid k s
  | .icmdStop iid k => Sys2Proof.Machine.execIcmdStop iid k s
  | .iresRead iid k => Sys2Proof.Machine.execIresRead iid k s
  | .gsetWrite iid v => Sys2Proof.Machine.execGsetWrite iid v s
  | .gclrWrite iid v => Sys2Proof.Machine.execGclrWrite iid v s
  | .gpioInputChange levels => Sys2Proof.Machine.execGpioInputChange levels s
  | .canFrameSent k r => Sys2Proof.Machine.execCanFrameSent k r s
  | .recoverySequenceComplete k => Sys2Proof.Machine.execRecoverySequenceComplete k s
  | .uartCharacterSent k => Sys2Proof.Machine.execUartCharacterSent k s
  | .mdioFrameDone j data => Sys2Proof.Machine.execMdioFrameDone j data s
  | .i2cCommandComplete k data ack => Sys2Proof.Machine.execI2cCommandComplete k data ack s
  | .i2cSlaveAddressed k => Sys2Proof.Machine.execI2cSlaveAddressed k s
  | .mgmtLinkDown j => Sys2Proof.Machine.execMgmtLinkDown j s
  | .domainRequest iid rdom v => Sys2Proof.Machine.execDomainRequest iid rdom v s
  | .domainSwitchComplete d late => Sys2Proof.Machine.execDomainSwitchComplete d late s
  | .plWrite iid t v => Sys2Proof.Machine.execPlWrite iid t v s
  | .levelChangeComplete t => Sys2Proof.Machine.execLevelChangeComplete t s
  | .entryStageComplete t => Sys2Proof.Machine.execEntryStageComplete t s
  | .wake t v => Sys2Proof.Machine.execWake t v s
  | .wakeSource src idx => Sys2Proof.Machine.execWakeSource src idx s
  | .thermalSample t0 t1 tio => Sys2Proof.Machine.execThermalSample t0 t1 tio s
  | .regulatorOutOfRegulation t => Sys2Proof.Machine.execRegulatorOutOfRegulation t s
  | .dmodeWrite iid v => Sys2Proof.Machine.execDmodeWrite iid v s
  | .clrabort iid => Sys2Proof.Machine.execClrabort iid s
  | .powerOnReset cause devid => Sys2Proof.Machine.execPowerOnReset cause devid s
  | .startStepComplete r => Sys2Proof.Machine.execStartStepComplete r s
  | .deviceReset iid key => Sys2Proof.Machine.execDeviceReset iid key s
  | .dieReset iid key d => Sys2Proof.Machine.execDieReset iid key d s
  | .regionReset iid key n => Sys2Proof.Machine.execRegionReset iid key n s
  | .triadReset iid key t => Sys2Proof.Machine.execTriadReset iid key t s
  | .debugReset => Sys2Proof.Machine.execDebugReset s
  | .startok iid => Sys2Proof.Machine.execStartok iid s
  | .starttmoExpiry => Sys2Proof.Machine.execStarttmoExpiry s
  | .step9Timeout => Sys2Proof.Machine.execStep9Timeout s
  | .retryExpiry => Sys2Proof.Machine.execRetryExpiry s
  | .go iid v => Sys2Proof.Machine.execGo iid v s
  | .bistRunEnd pass => Sys2Proof.Machine.execBistRunEnd pass s
  | .resetComplete kind inst => Sys2Proof.Machine.execResetComplete kind inst s
  | .serviceMessage ch src bytes => Sys2Proof.Machine.execServiceMessage ch src bytes s
  | .mailboxPoll => Sys2Proof.Machine.execMailboxPoll s
  | .getseq ch => Sys2Proof.Machine.execGetseq ch s
  | .resend ch => Sys2Proof.Machine.execResend ch s
  | .readreg ch => Sys2Proof.Machine.execReadreg ch s
  | .logread ch => Sys2Proof.Machine.execLogread ch s
  | .writereg ch => Sys2Proof.Machine.execWritereg ch s
  | .msg ch => Sys2Proof.Machine.execMsg ch s
  | .flashwrite ch => Sys2Proof.Machine.execFlashwrite ch s
  | .flasherase ch => Sys2Proof.Machine.execFlasherase ch s
  | .verify ch => Sys2Proof.Machine.execVerify ch s
  | .setpref ch => Sys2Proof.Machine.execSetpref ch s
  | .dirset ch => Sys2Proof.Machine.execDirset ch s
  | .loadtable ch => Sys2Proof.Machine.execLoadtable ch s
  | .loadreact ch => Sys2Proof.Machine.execLoadreact ch s
  | .loadtriad ch => Sys2Proof.Machine.execLoadtriad ch s
  | .loadmcode ch => Sys2Proof.Machine.execLoadmcode ch s
  | .wardenswap ch takes => Sys2Proof.Machine.execWardenswap ch takes s
  | .handoverTimeout => Sys2Proof.Machine.execHandoverTimeout s
  | .reset ch => Sys2Proof.Machine.execReset ch s
  | .installset ch => Sys2Proof.Machine.execInstallset ch s
  | .revokekey ch => Sys2Proof.Machine.execRevokekey ch s
  | .send iid => Sys2Proof.Machine.execSend iid s
  | .msgin7Read iid => Sys2Proof.Machine.execMsgin7Read iid s
  | .acknowledgeWaitExpiry => Sys2Proof.Machine.execAcknowledgeWaitExpiry s
  | .pglockWrite iid page => Sys2Proof.Machine.execPglockWrite iid page s
  | .registerWrite iid page off n v => Sys2Proof.Machine.execRegisterWrite iid page off n v s

end Sys2Proof.Machine
end

