-- ==== Sys2Proof/Safety.lean ====
section
/-! DEFINITION. What a run of the block is called when it goes as the spec describes it, in the terms the statements use: when an
FLA command executes its instruction, when a register write reaches its page, what one command leaves alone, and the
canonical forms that every step keeps. -/

namespace Sys2Proof.Machine

/-- The state behind the fetch of the copy's next group (R83): the window stands at its line, words that the core port corrected are
counted. -/
def State.fetched (s : State) (x : Ctx) (i : Fla) (rep : Option RepKind) : State := (s.fetchFor x i rep).1

/-- The copy runs with nothing at its head, no copy of its triad has issued groups ahead, and the words that it fetches carry no error
that the code does not correct (R80, R83, R223). -/
def State.ready (s : State) (x : Ctx) (i : Fla) (rep : Option RepKind) : Bool :=
  s.headFree x && !s.ahead x.t && (s.fetchFor x i rep).2

/-- The instruction joins slot B of the group that retired last (R86). -/
def State.joins (s : State) (x : Ctx) (i : Fla) : Bool :=
  s.ready x i none && ((s.fetched x i none).copy x.key).takesB x none i

/-- The copy's next group is the instruction, and nothing but the instruction itself decides what becomes of it: no pause, stagger or
skew holds the copy (R44, R45, R74), no candidate of R163 is due, the encoding is legal and may be fetched (R120, R246). -/
def State.next (s : State) (x : Ctx) (i : Fla) (rep : Option RepKind) : Bool :=
  let u := s.fetched x i rep
  let p := u.copy x.key
  s.ready x i rep && !p.takesB x rep i && !u.pauseHeld x.t x.c && !u.staggerHeld x.t x.c && !u.skewHeld x.t x.c &&
  decide (candidate (u.triad x.t) p x.c (flaKind rep i) false = .none) && (decodeFault p x i rep).isNone

/-- The instruction is the copy's next group and nothing stands before it: besides, the guard holds (R109), no execution-time
fault precedes its accesses (R121), and a repeated instruction has elements left (R141). -/
def State.heads (s : State) (x : Ctx) (i : Fla) (rep : Option RepKind) : Bool :=
  let p := (s.fetched x i rep).copy x.key
  s.next x i rep && p.guardOk x.guard && (headFault p x i rep).isNone && !(rep.isSome && decide (p.gAt 1 = 0))

/-- The instruction executes now: in slot B, or as the next group. -/
def State.executes (s : State) (x : Ctx) (i : Fla) : Bool := s.joins x i || s.heads x i none

/-- The address of the instruction behind the one at the copy's pc (R104, R105). -/
def State.nextPc (s : State) (x : Ctx) (rep : Option RepKind) (i : Fla) : Word :=
  (s.copy x.key).pc + BitVec.ofNat 64 (flaLen x rep i)

/-- A byte of the device's memories: the TCM of copy `k`, region SRAM `n`, DDR4 channel `k`. -/
inductive Place where
  | tcm (k : Nat)
  | sram (n : Nat)
  | ddr (k : Nat)
deriving DecidableEq, Repr

/-- The byte that stands at an offset of a memory. -/
def State.byteAt (s : State) (p : Place) (a : Nat) : Byte :=
  match p with
  | .tcm k => (s.copy k).tcm.byte a
  | .sram n => (s.sramOf n).byte a
  | .ddr k => (s.ddrOf k).byte a

/-- The page registers that an instruction of copy `x` may change of itself: TPWR of its triad, which shows Run when a waking triad
takes a group (R362); the CORE page's counts of pairs, of stalls, of fetches, of window restarts and of corrected words (R83, R85 to R87,
R223); PGINJ of its TRIAD page, whose injection its TCM reads may use up (R288). -/
def touchedBy (x : Ctx) : List (Nat × Nat) :=
  [(pgPwr, tpwr x.t), (pgCore x.key, 0x120), (pgCore x.key, 0x128), (pgCore x.key, 0x130), (pgCore x.key, 0x138),
    (pgCore x.key, 0x148), (pgTriad x.t, 0x28)]

/-- What one instruction of copy `x` leaves alone whatever it does to its own registers and to memory: the copy's control registers
but the MPU's generation, which a shadow that ends advances (R89, R247); its emergency flag; every copy of another triad; every
page register but those of `touchedBy`; the queue, the engines, the links, TIME. -/
def State.keepsRest (s t : State) (x : Ctx) : Prop :=
  (∀ n, n ≠ 0x71 → (t.copy x.key).crv n = (s.copy x.key).crv n) ∧
  (t.copy x.key).emerg = (s.copy x.key).emerg ∧
  (∀ j, j / 3 ≠ x.t → t.copy j = s.copy j) ∧
  (∀ page off, off < 0x1000 → (page, off) ∉ touchedBy x → t.reg page off = s.reg page off) ∧
  t.pending = s.pending ∧ t.engines = s.engines ∧ t.links = s.links ∧ t.timeB = s.timeB

/-- Every byte of every memory stands as it did, and the copy's local flag and reservation too. -/
def State.storesNothing (s t : State) (x : Ctx) : Prop :=
  (∀ p a, t.byteAt p a = s.byteAt p a) ∧
  (t.copy x.key).localFlag = (s.copy x.key).localFlag ∧ (t.copy x.key).resv = (s.copy x.key).resv

/-- Whether a store reaches the granule that the copy has reserved in its own TCM (R136). -/
def Copy.storeHits (c : Copy) (a n : Nat) : Bool :=
  match c.resv with
  | some g => decide (granule a ≤ g) && decide (g ≤ granule (a + n - 1))
  | none => false

/-- The command stored `n` bytes of `q` at address `a` of the TCM of copy `x` and no other byte of any memory; a store into the
granule that the copy has reserved there ends the reservation (R136). -/
def State.storesOwn (s t : State) (x : Ctx) (a n : Nat) (q : Quad) : Prop :=
  (∀ p b, t.byteAt p b = if p = .tcm x.key ∧ a ≤ b ∧ b < a + n then quadByte q (b - a) else s.byteAt p b) ∧
  (t.copy x.key).localFlag = (s.copy x.key).localFlag ∧
  (t.copy x.key).resv = if (s.copy x.key).storeHits a n then none else (s.copy x.key).resv

/-- The words of the TCM of copy `x` that a store of `n` bytes at `b` covers in part carry no error (R219, R220). -/
def State.wholeWords (s : State) (x : Ctx) (b : Word) (n : Nat) : Prop :=
  partialBad (s.copy x.key).tcm b.toNat n = [] ∧ partialFixed (s.copy x.key).tcm b.toNat n = []

/-- The general registers and predicates of copy `x` stand. -/
def State.sameRegs (s t : State) (x : Ctx) : Prop :=
  (∀ n, (t.copy x.key).gAt n = (s.copy x.key).gAt n) ∧ (t.copy x.key).preds = (s.copy x.key).preds

/-- The pending arithmetic exception of a copy after an instruction of cause `z` (R174, R175): the first one stands, with its
index, address and code; a further one sets MORE. -/
def pendAfter (p : Option ArithPend) (index : Nat) (pc : Word) (exact : Bool) (z : ArithCause) : Option ArithPend :=
  match z, p with
  | none, p => p
  | some code, none => some ⟨index, pc, code, false, exact⟩
  | some _, some q => some { q with more := true }

/-- Instruction `i` of copy `x` has retired and goes on at `pc`: RETCNT counts its group, which slot B shares (R39, R86); its
arithmetic exception, if it raised one, is pending (R174); the rest stays. -/
def State.passes (s t : State) (x : Ctx) (i : Fla) (pc : Word) (z : ArithCause) : Prop :=
  (t.copy x.key).pc = pc ∧
  (t.copy x.key).retcnt = (if s.joins x i then (s.copy x.key).retcnt else (s.copy x.key).retcnt + 1) ∧
  (t.copy x.key).pend = pendAfter (s.copy x.key).pend
    (if s.joins x i then (s.copy x.key).retcnt - 1 else (s.copy x.key).retcnt) (s.copy x.key).pc (s.copy x.key).precise z ∧
  s.keepsRest t x

/-- The group of instruction `i` of copy `x` has retired with effect `e` (R39, R48): its registers and predicates written, the
pc at its target or behind it, the rest as before. -/
def State.retired (s t : State) (x : Ctx) (i : Fla) (e : Eff) : Prop :=
  (∀ n, (t.copy x.key).gAt n = ((s.copy x.key).writes e).gAt n) ∧
  (t.copy x.key).preds = ((s.copy x.key).writes e).preds ∧
  s.passes t x i (e.target.getD (s.nextPc x none i)) e.arith

/-- Instruction `i` of copy `x` writes `v` to the general register that `d` names at the level in force, goes to the next
instruction, and changes no other register and no predicate. -/
def State.writesReg (s t : State) (x : Ctx) (i : Fla) (d : Reg) (v : Word) (z : ArithCause) : Prop :=
  (∀ n, (t.copy x.key).gAt n = if n = (s.copy x.key).slotOf d then v else (s.copy x.key).gAt n) ∧
  (t.copy x.key).preds = (s.copy x.key).preds ∧ s.storesNothing t x ∧ s.passes t x i (s.nextPc x none i) z

/-- Instruction `i` of copy `x` writes predicate `p` with `v` (p0 is never written, R100), goes to the next instruction, and
changes no general register, no other predicate and no memory. -/
def State.writesPred (s t : State) (x : Ctx) (i : Fla) (p : Pred) (v : Bool) : Prop :=
  (∀ q, (t.copy x.key).p q = if q = p ∧ p.val ≠ 0 then v else (s.copy x.key).p q) ∧
  (∀ n, (t.copy x.key).gAt n = (s.copy x.key).gAt n) ∧ s.storesNothing t x ∧ s.passes t x i (s.nextPc x none i) none

/-- Instruction `i` of copy `x` goes to `pc` and changes no register, no predicate and no memory. -/
def State.goesTo (s t : State) (x : Ctx) (i : Fla) (pc : Word) : Prop :=
  (∀ n, (t.copy x.key).gAt n = (s.copy x.key).gAt n) ∧ (t.copy x.key).preds = (s.copy x.key).preds ∧ s.storesNothing t x ∧
  s.passes t x i pc none

/-- The guard of the copy's next group is false, and nothing stands before it (R41, R109). -/
def State.skips (s : State) (x : Ctx) (i : Fla) (rep : Option RepKind) : Bool :=
  s.next x i rep && !((s.fetched x i rep).copy x.key).guardOk x.guard

/-- The copy's next group raises fault `f`, at fetch, at decode or at its execution-time checks, and nothing stands before it
(R82, R120, R121). -/
def State.faultsWith (s : State) (x : Ctx) (i : Fla) (rep : Option RepKind) (f : FaultInfo) : Prop :=
  let u := s.fetched x i rep
  let p := u.copy x.key
  s.ready x i rep = true ∧ p.takesB x rep i = false ∧ u.pauseHeld x.t x.c = false ∧ u.staggerHeld x.t x.c = false ∧
  u.skewHeld x.t x.c = false ∧
  candidate (u.triad x.t) p x.c (flaKind rep i) (decodeFault p x i rep).isSome = .none ∧
  (decodeFault p x i rep = some f ∨
    decodeFault p x i rep = none ∧ p.guardOk x.guard = true ∧ headFault p x i rep = some f)

/-- Copy `p`, with its shadows ended, has become `c` by an entry of vector `v` at level `target` (R160): the frame of return address and status
pushed below the target level's stack pointer in the TCM, STATUS and VSTAT as an entry leaves them, every window and shadow closed,
one index on. -/
def enteredFrom (p c : Copy) (v : Nat) (target : Level) : Prop :=
  let f := p.gAt (spBank target) - 16
  c.pc = vectorAddr target v ∧ c.retcnt = p.retcnt + 1 ∧ c.level = target ∧ c.crv 0 = enteredStatus (p.crv 0) target ∧
  bitsOf (c.crv 3) 5 0 = v ∧ bitsOf (c.crv 3) 9 8 = target.code ∧ bitsOf (c.crv 3) 7 6 = p.level.code ∧
  (∀ n, c.gAt n = if n = spBank target then f else p.gAt n) ∧ c.preds = p.preds ∧
  (∀ b, c.tcm.byte b = if f.toNat ≤ b ∧ b < f.toNat + 16 then quadByte (p.crv 0 ++ p.pc : BitVec 128) (b - f.toNat)
    else p.tcm.byte b) ∧
  c.localFlag = false ∧ c.holdRem = 0 ∧ c.shadow = []

/-- An integer in a register: its low 8w bits, zero-extended (R124). -/
def intWord (w : Width) (v : Int) : Word := BitVec.ofNat 64 (v % 2 ^ w.bits).toNat

/-- A register's low 8w bits as an unsigned and as a signed number, for copy `x` at its width. -/
def State.unsignedOf (s : State) (x : Ctx) (r : Reg) : Int := uval x.w ((s.copy x.key).rd r)
def State.signedOf (s : State) (x : Ctx) (r : Reg) : Int := sval x.w ((s.copy x.key).rd r)

/-- The second operand likewise: a register, or the sign-extended immediate (R105, R124). -/
def State.unsignedSrc (s : State) (x : Ctx) (b : Src2) : Int := uval x.w (srcVal (s.copy x.key) b)
def State.signedSrc (s : State) (x : Ctx) (b : Src2) : Int := sval x.w (srcVal (s.copy x.key) b)

/-- Command `c` of copy `x` runs on to a next state: the state of which `P` holds, in which the voter has then compared the tints that
every running copy of the triad has retired (R50). -/
def State.runs (s : State) (c : Instr) (x : Ctx) (P : State → Prop) : Prop := ∃ t, exec c s = .next (t.voteDue x.t) ∧ P t

/-- Command `c`, which issues instruction `i`, runs on to a next state in which register `d` holds `v`. -/
def State.yields (s : State) (c : Instr) (x : Ctx) (i : Fla) (d : Reg) (v : Word) (z : ArithCause := none) : Prop :=
  s.executes x i = true → s.runs c x fun t => s.writesReg t x i d v z

/-- Command `c`, which issues instruction `i`, runs on to a next state in which predicate `p` holds `v`. -/
def State.decides (s : State) (c : Instr) (x : Ctx) (i : Fla) (p : Pred) (v : Bool) : Prop :=
  s.executes x i = true → s.runs c x fun t => s.writesPred t x i p v

/-! Commands other than FLA's. -/

/-- Command `c` runs on to a next state of which `P` holds. -/
def State.does (s : State) (c : Instr) (P : State → Prop) : Prop := ∃ t, exec c s = .next t ∧ P t

/-- Nothing stands to be taken at once: every response on its way is for a TMI, and no service command waits for its end. -/
def State.settled (s : State) : Prop := (∀ e ∈ s.resps, ∃ t tag, e.1 = .tmi t tag) ∧ s.svc.op = none

/-- A write of `n` bytes at `off` of `page` by `iid` reaches a register of page kind `k`, instance `i`, and nothing of what every
page checks stands against it (R4 to R8, R19, R27, R408): the access types give the register's next value `new`. -/
def State.reaches (s : State) (iid page off n : Nat) (v : Word) (k : PageKind) (i : Nat) (new : Word) : Prop :=
  let w := wrAt iid page off n v
  off < 0x1000 ∧ s.pageFor iid (regAddr page off) n .store = (s, some (k, i)) ∧
  (s.bit pgImage 0x100 0 = false ∨ wardenOnly k w.off = false ∨ iid = 0x0200) ∧
  (∃ row, s.planWrite k w = .go row (s.reg page w.off) new false) ∧ s.commitLocked k w = false

/-- Only registers of `ps` changed: every other register, and every piece of state that is no register, stands. PGGEN counts the
write (R425). -/
def State.onlyRegs (s t : State) (ps : List (Nat × Nat)) : Prop :=
  t = { s with regs := t.regs, pggen := t.pggen } ∧
  ∀ page off, off < 0x1000 → (page, off) ∉ ps → t.reg page off = s.reg page off

/-- Page errors aside (PGERR and the report of its fault source), only registers of `ps` changed. -/
def State.onlyRegsAndFaults (s t : State) (ps : List (Nat × Nat)) : Prop :=
  t = { s with regs := t.regs, pggen := t.pggen, fcol := t.fcol } ∧
  ∀ page off, off < 0x1000 → (page, off) ∉ ps → t.reg page off = s.reg page off

/-- An event of source `src` waits for FCOL (R264), if the source is present, live and not masked (R265, R267, R268). -/
def State.reported (s t : State) (src : Nat) : Prop :=
  srcPresent s.dies src = true → s.srcLive src = true → s.fcol.masked.contains src = false →
    ∃ e ∈ t.fcol.waiting, e.src = src

/-- The registers of these blocks that a write only stores, by their access types. -/
def plainReg (k : PageKind) (off : Nat) : Bool :=
  if off < 0x40 then off != 0x28
  else match k with
    | .image => true
    | .core => off != 0x140
    | .region => off != 0x128
    | .fwall => off != 0x100
    | .triad => !([0x100, 0x108, 0x158, 0x168, 0x178, 0x180].contains off)
    | _ => false

/-- The counters that a page's CLRCNT clears: offset and bits. -/
def clearedBy (k : PageKind) (off : Nat) : List (Nat × Nat × Nat) :=
  let all (l : List Nat) : List (Nat × Nat × Nat) := l.map fun o => (o, 63, 0)
  match k with
  | .svc => [(0x138, 63, 32)]
  | .core => all [0x120, 0x128, 0x130, 0x138] ++ [(0x148, 47, 32)]
  | .region => [(0x108, 47, 16)]
  | .sched => all [0x140, 0x148, 0x150, 0x158, 0x160, 0x168]
  | .lsched => all [0x128, 0x130, 0x138]
  | .ddrc => [(0x118, 47, 0)]
  | .lane => all [0x120]
  | .bvl => all [0x120, 0x128, 0x130, 0x138, 0x140]
  | .eth => all (if off < 0x200 then [0x140, 0x148, 0x150, 0x158, 0x160] else [0x220, 0x228, 0x230, 0x238, 0x240])
  | .mgmt => all [0x140, 0x148, 0x150, 0x158, 0x160]
  | .vme => all [0x140, 0x148, 0x150, 0x158]
  | _ => []

/-- Every copy of triad `t` goes on by itself: nothing stands at its TMI, no copy waits, none has issued groups ahead. -/
def State.quietTmi (s : State) (t : Nat) : Prop :=
  (s.triad t).gate = [] ∧ (s.triad t).replay = [] ∧ s.ahead t = false ∧ ∀ c, c < 3 → (s.copy (3 * t + c)).hold = .none

/-- No tint of triad `t` is on its way or stands at the voter. -/
def State.noTints (s : State) (t : Nat) : Prop :=
  (s.triad t).voter = [] ∧ (s.triad t).injTints = [] ∧ ∀ c, c < 3 → (s.copy (3 * t + c)).tints = []

/-- The TMI of triad `t` has nothing to do but for what is asked of it now: no tints are due, no groups are issued ahead, no copy stands
in WAIT or a FENCE. -/
def State.stillTmi (s : State) (t : Nat) : Prop :=
  s.tintsDue t = [] ∧ s.ahead t = false ∧
  ∀ c, c < 3 → (∀ len, (s.copy (3 * t + c)).hold ≠ .wait len) ∧ ∀ rule len, (s.copy (3 * t + c)).hold ≠ .fence rule len

/-- The triad is awake, and no copy of it stalls in WAIT. -/
def State.awake (s : State) (t : Nat) : Prop :=
  (s.triad t).entry = 0 ∧ s.powerState t ≠ 5 ∧ s.powerState t ≠ 6 ∧ ∀ c n, c < 3 → (s.copy (3 * t + c)).hold ≠ .wait n

/-- Triad `t` with a request of vector `v` stamped for index `d`; a request of a vector that has a stamp merges into it (R62, R64). -/
def State.stamped (s : State) (t v d : Nat) : State :=
  if (s.triad t).stamps.any fun e => e.vec == v then s
  else s.setTriad t { s.triad t with stamps := (s.triad t).stamps ++ [⟨v, d, 0, none, 3⟩] }

/-- Copy `c` of triad `t` has been ejected at index `k` for divergence kind `kind` (R71, R79): the triad goes on in the Pair of the
others with vector 9 stamped; DIVIDX and DIVINFO hold the first divergence. -/
def State.ejected (s u : State) (t c k kind : Nat) : Prop :=
  (u.copy (3 * t + c)).st = (if s.radmFull t c then .retired else .ejected) ∧ (u.triad t).mode = pairWithout c ∧
  (∃ e ∈ (u.triad t).stamps, e.vec = 9) ∧
  (s.bit (pgTriad t) 0x138 8 = false →
    u.reg (pgTriad t) 0x130 = BitVec.ofNat 64 k ∧ u.reg (pgTriad t) 0x138 = BitVec.ofNat 64 (c + 4 * kind + 256))

/-- Triad `t` has stopped for `cause` (R68): no copy runs, TSTAT names the cause. -/
def State.stoppedFor (u : State) (t cause : Nat) : Prop :=
  (u.triad t).mode = 5 ∧ (∀ c, c < 3 → (u.copy (3 * t + c)).st ≠ .running) ∧ u.fld (pgTriad t) 0x110 19 17 = cause ∧
  (u.triad t).stamps = [] ∧ (u.triad t).voter = [] ∧ (u.triad t).gate = [] ∧ (u.triad t).replay = []

/-- No link holds a peer transaction, and every access in the VME queue is a triad's. -/
def State.ioQuiet (s : State) : Prop :=
  (∀ j, (s.link j).peerOut = []) ∧ ∀ e ∈ s.vme.queue, ∀ r, e.work = .access r → ∃ t g, r.origin = .tmi t g

/-- The start has failed with `code` at time `at'` (R390, R391): BOOTWHY holds the code; the first two failures count and wait for
the retry, the third leaves the device in Umber mode. -/
def State.startFailed (s u : State) (code at' : Nat) : Prop :=
  u.fld pgWarden 0x110 7 0 = code ∧
  (s.fld pgWarden 0x108 17 16 < 2 →
    u.fld pgWarden 0x108 17 16 = s.fld pgWarden 0x108 17 16 + 1 ∧ u.warden.failedAt = some at') ∧
  (2 ≤ s.fld pgWarden 0x108 17 16 → u.fld pgWarden 0x108 3 0 = 4)

/-- A frame of body `b` arrives where frames of its kind are taken: on an Active BVL lane, or a quarantined one for the kinds of R297
(R293, R297, R299), of a link that is not Down (R306). -/
def State.hearsFrame (s : State) (rx : BvlRx) (b : BvlBody) : Prop :=
  s.laneTakes rx.lane rx.hdr.vc b = true ∧ s.linkState (s.linkOfLane rx.lane) ≠ 5 ∧
  s.injArmed (pgLaneq (rx.lane / 4)) 4 (rx.lane % 4) = false

/-- ... and it passes the checks of R301. -/
def State.takesFrame (s : State) (rx : BvlRx) (b : BvlBody) : Prop := s.hearsFrame rx b ∧ frameGood rx b = true

/-- The acknowledgement that a frame's header carries has been taken (R301, R305). -/
def State.acked (s : State) (i : Nat) (h : BvlHdr) : State :=
  match h.ack with
  | some (vc, n) => s.ackVc i vc n
  | none => s

/-- A frame follows in order: its number is the one expected, and no frame of its VC is held (R304). -/
def State.inOrder (s : State) (i : Nat) (h : BvlHdr) : Prop :=
  h.seq = (s.link i).expect h.vc ∧ ∀ e ∈ (s.link i).held, e.hdr.vc ≠ h.vc

/-- Its VC has the next number expected; the frame is counted and acknowledged (R304, R305). -/
def State.accepted (s : State) (i : Nat) (h : BvlHdr) : State :=
  let next := AMap.set (s.link i).rxSeq (fun _ => 0) h.vc ((h.seq + 1) % 65536)
  ((s.setLink i { s.link i with rxSeq := next }).lcount i 0x128).sendCtl i h.vc 0 (some (h.vc, h.seq)) .ack

/-- The one request that the service channels hold stands at its turn on channel `ch`: number `h`, command `cmd`, payload `pl`,
permitted there and in the device's mode; no service command is under way (R400, R401). -/
def State.atTurn (s : State) (ch h cmd : Nat) (pl : List Byte) : Prop :=
  s.svc.op = none ∧ ch ∈ allChans ∧ (∀ k ∈ allChans, (s.chan k).reqs = if k = ch then [⟨h, cmd, pl⟩] else []) ∧
  s.svcMay ch (cmd / 16) = true ∧ (s.umber = true → cmd / 16 ≠ 2 ∧ cmd / 16 ≠ 4 ∧ cmd / 16 ≠ 5)

/-- The request has been answered: the channel's next number, a response of that number held until it is acknowledged, LASTEXEC
(R397, R398). -/
def State.answered (s u : State) (ch h cmd status detail : Nat) (data : List Byte) : Prop :=
  let n := (s.chan ch).wseq + 1
  u.chan ch = { s.chan ch with
    reqs := [], lastExec := h, wseq := n
    held := (s.chan ch).held ++ [(n, h, s.msgBytes 2 cmd status h n ch (toBytes detail 8 ++ data))] }

/-- The request has been answered with a DETAIL that no rule states (assumption 25). -/
def State.answeredFree (s u : State) (ch h cmd status : Nat) (data : List Byte) : Prop :=
  ∃ d, s.answered u ch h cmd status d data

/-- The image that slot `slot` of entry `entry` holds is in use, loaded live (R405, R415). -/
def State.usesSlot (u : State) (entry slot : Nat) : Prop :=
  ∃ x ∈ u.warden.images, x.entry = entry ∧ x.slot = slot ∧ x.live = true

/-- Nothing that engine `n` has to do stands before `e` in the order of R188. -/
def State.foremost (s : State) (n : Nat) (e : TickEvent) : Prop := s.tickFirst n e = s

/-- Nothing that link engine `q` has to do stands before a slot (`true`) or a TX window's end in the order of R188. -/
def State.lforemost (s : State) (q : Nat) (slot : Bool) (i : Nat) : Prop := s.ltickFirst q slot i = s

/-- Every window and deadline of the frame that ends has ended (R188, R212). -/
def State.frameDone (s : State) : Prop := s.frameEnds = s

/-- The registers and the boot flash stand in the canonical form of a sparse collection. -/
def State.canonical (s : State) : Bool := AMap.wf s.regs regReset && AMap.wf s.flash fun _ => 0xFF

end Sys2Proof.Machine
end

