-- ==== Sys2Proof/WellFormed.lean ====
section
/-! DEFINITION. Well-formed commands: every unit, vector and register that a command names lies within what the largest device
has (R1, R2, R9, R429), and an FLA instruction meets no condition of R119. The machine takes ill-formed commands as well:
what names no unit changes nothing, and an illegal instruction takes vector 1. -/

namespace Sys2Proof

open Sys2Proof.Machine

/-- The FLA instruction of a command, with its context and repeat prefix. -/
def Instr.fla : Instr → Option (Ctx × Option RepKind × Fla)
  | .add x d a b => some (x, none, .alu .add d a b)
  | .sub x d a b => some (x, none, .alu .sub d a b)
  | .and x d a b => some (x, none, .alu .and d a b)
  | .or x d a b => some (x, none, .alu .or d a b)
  | .xor x d a b => some (x, none, .alu .xor d a b)
  | .andn x d a b => some (x, none, .alu .andn d a b)
  | .shl x d a b => some (x, none, .alu .shl d a b)
  | .shr x d a b => some (x, none, .alu .shr d a b)
  | .sar x d a b => some (x, none, .alu .sar d a b)
  | .rol x d a b => some (x, none, .alu .rol d a b)
  | .ror x d a b => some (x, none, .alu .ror d a b)
  | .mul x d a b => some (x, none, .alu .mul d a b)
  | .mulh x d a b => some (x, none, .alu .mulh d a b)
  | .mulhu x d a b => some (x, none, .alu .mulhu d a b)
  | .addt x d a b => some (x, none, .alu .addt d a b)
  | .subt x d a b => some (x, none, .alu .subt d a (.reg b))
  | .mult x d a b => some (x, none, .alu .mult d a (.reg b))
  | .div x d a b => some (x, none, .alu .div d a (.reg b))
  | .divu x d a b => some (x, none, .alu .divu d a (.reg b))
  | .rem x d a b => some (x, none, .alu .rem d a (.reg b))
  | .remu x d a b => some (x, none, .alu .remu d a (.reg b))
  | .min x d a b => some (x, none, .alu .min d a (.reg b))
  | .max x d a b => some (x, none, .alu .max d a (.reg b))
  | .minu x d a b => some (x, none, .alu .minu d a (.reg b))
  | .maxu x d a b => some (x, none, .alu .maxu d a (.reg b))
  | .mov x d a => some (x, none, .un .mov d a)
  | .movi x d v => some (x, none, .movi d v)
  | .movis x d v => some (x, none, .movis d v)
  | .neg x d a => some (x, none, .un .neg d a)
  | .not x d a => some (x, none, .un .not d a)
  | .sxb x d a => some (x, none, .un .sxb d a)
  | .sxh x d a => some (x, none, .un .sxh d a)
  | .sxw x d a => some (x, none, .un .sxw d a)
  | .zxb x d a => some (x, none, .un .zxb d a)
  | .zxh x d a => some (x, none, .un .zxh d a)
  | .zxw x d a => some (x, none, .un .zxw d a)
  | .clz x d a => some (x, none, .un .clz d a)
  | .ctz x d a => some (x, none, .un .ctz d a)
  | .popc x d a => some (x, none, .un .popc d a)
  | .bswap x d a => some (x, none, .un .bswap d a)
  | .movpg x d => some (x, none, .movpg d)
  | .ld x d a o => some (x, none, .ld d a o)
  | .lds x d a o => some (x, none, .lds d a o)
  | .ldpc x d o => some (x, none, .ldpc d o)
  | .st x d a o => some (x, none, .st d a o)
  | .sti x a o v => some (x, none, .sti a o v)
  | .lea x d a o => some (x, none, .lea d a o)
  | .leapc x d o => some (x, none, .leapc d o)
  | .push x a => some (x, none, .push a)
  | .pop x d => some (x, none, .pop d)
  | .br x o => some (x, none, .br o)
  | .brr x a => some (x, none, .brr a)
  | .call x o => some (x, none, .call o)
  | .callr x a => some (x, none, .callr a)
  | .dbnz x d o => some (x, none, .dbnz d o)
  | .ret x => some (x, none, .ret)
  | .rete x => some (x, none, .rete)
  | .tas x p a o => some (x, none, .tas p a o)
  | .ldrs x d a => some (x, none, .ldrs d a)
  | .stc x p d a => some (x, none, .stc p d a)
  | .clrres x => some (x, none, .clrres)
  | .mfc x d n => some (x, none, .mfc d n)
  | .mtc x a n => some (x, none, .mtc a n)
  | .hold x n => some (x, none, .hold n)
  | .wait x => some (x, none, .wait)
  | .msync x => some (x, none, .msync)
  | .fence x => some (x, none, .fence)
  | .fenceRule x => some (x, none, .fenceRule)
  | .nop x => some (x, none, .nop)
  | .movs x => some (x, none, .movs)
  | .fills x => some (x, none, .fills)
  | .cmps x p => some (x, none, .cmps p)
  | .scans x p a => some (x, none, .scans p a)
  | .crcs x => some (x, none, .crcs)
  | .repeatElement x r i => some (x, some r, i)
  | .eq x p d b => some (x, none, .cmp .eq p d b)
  | .ne x p d b => some (x, none, .cmp .ne p d b)
  | .lt x p d b => some (x, none, .cmp .lt p d b)
  | .le x p d b => some (x, none, .cmp .le p d b)
  | .gt x p d b => some (x, none, .cmp .gt p d b)
  | .ge x p d b => some (x, none, .cmp .ge p d b)
  | .ltu x p d b => some (x, none, .cmp .ltu p d b)
  | .leu x p d b => some (x, none, .cmp .leu p d b)
  | .gtu x p d b => some (x, none, .cmp .gtu p d b)
  | .geu x p d b => some (x, none, .cmp .geu p d b)
  | .tst x p d a => some (x, none, .tst p d a)
  | .tsti x p d v => some (x, none, .tsti p d v)
  | .pand x p q => some (x, none, .plog .pand p q)
  | .por x p q => some (x, none, .plog .por p q)
  | .pxor x p q => some (x, none, .plog .pxor p q)
  | .pandn x p q => some (x, none, .plog .pandn p q)
  | .pnot x p q => some (x, none, .plog .pnot p q)
  | .pmov x p q => some (x, none, .plog .pmov p q)
  | .pset x p => some (x, none, .pset p)
  | .pclr x p => some (x, none, .pclr p)
  | .pnz x p a => some (x, none, .pnz p a)
  | .movgp x a => some (x, none, .movgp a)
  | .exceptionEntry _ _ => none
  | .interruptRequest _ _ => none
  | .tintArrival _ _ => none
  | .replayLoadRequest _ _ => none
  | .gatedRequest _ _ => none
  | .tmiResponse _ => none
  | .lagLimit _ _ => none
  | .stepBlockEnd _ _ _ => none
  | .tcmScrub _ _ => none
  | .tcmWriteBack _ _ => none
  | .mordantingRoundEnd _ _ => none
  | .mordantingPause _ => none
  | .mordantingComplete _ _ => none
  | .mordtmoExpiry _ => none
  | .tmodeWrite _ _ _ => none
  | .tcfgWrite _ _ _ => none
  | .irqsetWrite _ _ _ => none
  | .radmwinWrite _ _ _ => none
  | .clrmon _ _ => none
  | .clrcnt _ _ _ => none
  | .frameStart => none
  | .move _ _ => none
  | .moveWindowEnd _ _ _ => none
  | .release _ _ => none
  | .deadlineEnd _ _ => none
  | .doneComplete _ _ _ => none
  | .doneStopAck _ _ _ => none
  | .lossNotice _ => none
  | .completionNotice _ => none
  | .takeoverNotice _ => none
  | .noticeTimeout _ _ => none
  | .rerunMoveEnd _ _ => none
  | .sparedlEnd _ _ => none
  | .vote _ _ => none
  | .voteWindowEnd _ _ => none
  | .commit _ _ => none
  | .tx _ _ => none
  | .rxchk _ _ => none
  | .tbldataWrite _ _ _ => none
  | .tblchk _ => none
  | .swframeWrite _ _ => none
  | .sctlEnWrite _ _ _ => none
  | .alarmFire _ => none
  | .srcWrite _ _ => none
  | .sourceLock => none
  | .sourceFailure => none
  | .ppsinEdge => none
  | .txHandoverComplete _ _ => none
  | .txWindowEnd _ _ => none
  | .sramAccess _ => none
  | .sramWriteBack _ => none
  | .zeroFillComplete _ _ => none
  | .ddr4Request _ => none
  | .maintenanceWindow _ => none
  | .dcfgWrite _ _ _ => none
  | .start _ _ => none
  | .trainingComplete _ _ _ => none
  | .trainingTimeout _ => none
  | .init _ _ => none
  | .initComplete _ => none
  | .mirror _ _ _ => none
  | .retrain _ _ => none
  | .retire _ _ => none
  | .selfRefreshExitComplete _ => none
  | .commitFwall _ _ _ => none
  | .clrdeny _ _ => none
  | .flitArrival _ => none
  | .tagTimeout _ => none
  | .crcFeed _ => none
  | .crctlInit _ _ _ => none
  | .ccfgWrite _ _ _ _ => none
  | .cvalueWrite _ _ _ _ _ => none
  | .faultEvent _ _ _ _ => none
  | .railFault _ _ => none
  | .takeEvent => none
  | .resetActionExpiry => none
  | .railSweep _ => none
  | .leakClear => none
  | .erroutToggle => none
  | .rtblchk _ => none
  | .rswgenWrite _ _ => none
  | .reactionBankExchange => none
  | .flogselWrite _ _ => none
  | .clrfirst _ => none
  | .clrlog _ => none
  | .arm _ _ _ => none
  | .lctlEnWrite _ _ _ => none
  | .signalDetect _ => none
  | .autoNegotiation _ _ _ _ => none
  | .capSend _ => none
  | .cap _ _ _ => none
  | .rateChange _ => none
  | .equaliserConverged _ => none
  | .trainingLimit _ => none
  | .confirmTimeout _ => none
  | .laneFailure _ _ => none
  | .spareTimeout _ => none
  | .downExpiry _ => none
  | .retune _ _ => none
  | .reneg _ _ => none
  | .sendindigo _ _ => none
  | .indigoDetect _ => none
  | .data _ _ => none
  | .req _ _ _ _ _ => none
  | .rsp _ _ _ => none
  | .voteFrame _ _ => none
  | .time _ _ _ _ => none
  | .svc _ _ _ _ => none
  | .ack _ => none
  | .nak _ => none
  | .reorderTimeout _ _ => none
  | .retryTimeout _ _ => none
  | .timeSend _ => none
  | .holdover => none
  | .holdoverExpiry => none
  | .peerHoldTimeout _ _ _ _ => none
  | .blcfgWrite _ _ _ => none
  | .restart _ _ => none
  | .ethernetFrame _ _ => none
  | .tailWrite _ _ _ _ => none
  | .transmitDescriptorReturned _ => none
  | .outboundAccess => none
  | .queueEntry _ => none
  | .busTimer _ => none
  | .queueTimeout => none
  | .inboundCycle _ => none
  | .sysresetIn => none
  | .sysresetExpiry => none
  | .vcfgWrite _ _ => none
  | .virqWrite _ _ => none
  | .iack _ => none
  | .irqAsserted _ => none
  | .vintpopRead _ => none
  | .vmemapWrite _ _ _ => none
  | .pcfgWrite _ _ _ => none
  | .discWrite _ _ => none
  | .mailboxHeaderWrite _ _ _ _ => none
  | .canFrameReceived _ _ _ => none
  | .recover _ _ => none
  | .udataWrite _ _ _ => none
  | .udataRead _ _ => none
  | .uartCharacter _ _ _ => none
  | .mdioGo _ _ _ => none
  | .icmdStart _ _ => none
  | .icmdWrite _ _ _ => none
  | .icmdReadAck _ _ => none
  | .icmdReadNack _ _ => none
  | .icmdStop _ _ => none
  | .iresRead _ _ => none
  | .gsetWrite _ _ => none
  | .gclrWrite _ _ => none
  | .gpioInputChange _ => none
  | .canFrameSent _ _ => none
  | .recoverySequenceComplete _ => none
  | .uartCharacterSent _ => none
  | .mdioFrameDone _ _ => none
  | .i2cCommandComplete _ _ _ => none
  | .i2cSlaveAddressed _ => none
  | .mgmtLinkDown _ => none
  | .domainRequest _ _ _ => none
  | .domainSwitchComplete _ _ => none
  | .plWrite _ _ _ => none
  | .levelChangeComplete _ => none
  | .entryStageComplete _ => none
  | .wake _ _ => none
  | .wakeSource _ _ => none
  | .thermalSample _ _ _ => none
  | .regulatorOutOfRegulation _ => none
  | .dmodeWrite _ _ => none
  | .clrabort _ => none
  | .powerOnReset _ _ => none
  | .startStepComplete _ => none
  | .deviceReset _ _ => none
  | .dieReset _ _ _ => none
  | .regionReset _ _ _ => none
  | .triadReset _ _ _ => none
  | .debugReset => none
  | .startok _ => none
  | .starttmoExpiry => none
  | .step9Timeout => none
  | .retryExpiry => none
  | .go _ _ => none
  | .bistRunEnd _ => none
  | .resetComplete _ _ => none
  | .serviceMessage _ _ _ => none
  | .mailboxPoll => none
  | .getseq _ => none
  | .resend _ => none
  | .readreg _ => none
  | .logread _ => none
  | .writereg _ => none
  | .msg _ => none
  | .flashwrite _ => none
  | .flasherase _ => none
  | .verify _ => none
  | .setpref _ => none
  | .dirset _ => none
  | .loadtable _ => none
  | .loadreact _ => none
  | .loadtriad _ => none
  | .loadmcode _ => none
  | .wardenswap _ _ => none
  | .handoverTimeout => none
  | .reset _ => none
  | .installset _ => none
  | .revokekey _ => none
  | .send _ => none
  | .msgin7Read _ => none
  | .acknowledgeWaitExpiry => none
  | .pglockWrite _ _ => none
  | .registerWrite _ _ _ _ _ => none

/-- An FLA command names a copy of the largest device and an instruction without a condition of R119. -/
def flaWf (e : Ctx × Option RepKind × Fla) : Bool :=
  decide (e.1.t < 64) && decide (e.1.c < 3) && decide (e.1.repAt = 0 ∨ (e.2.1.isSome = true ∧ e.1.repAt < prefixLen e.1 e.2.1)) &&
    (flaIllegals e.1 e.2.1 e.2.2).isEmpty

/-- A service channel: 0 to 3, and 8 to 15 for what the other devices relay (R395). -/
def chanOk (ch : Nat) : Bool := decide (ch < 4 ∨ (8 ≤ ch ∧ ch < 16))

/-- The numbers of a command that is no FLA instruction are in range. -/
def Instr.inRange : Instr → Bool
  | .add _ _ _ _ => true
  | .sub _ _ _ _ => true
  | .and _ _ _ _ => true
  | .or _ _ _ _ => true
  | .xor _ _ _ _ => true
  | .andn _ _ _ _ => true
  | .shl _ _ _ _ => true
  | .shr _ _ _ _ => true
  | .sar _ _ _ _ => true
  | .rol _ _ _ _ => true
  | .ror _ _ _ _ => true
  | .mul _ _ _ _ => true
  | .mulh _ _ _ _ => true
  | .mulhu _ _ _ _ => true
  | .addt _ _ _ _ => true
  | .subt _ _ _ _ => true
  | .mult _ _ _ _ => true
  | .div _ _ _ _ => true
  | .divu _ _ _ _ => true
  | .rem _ _ _ _ => true
  | .remu _ _ _ _ => true
  | .min _ _ _ _ => true
  | .max _ _ _ _ => true
  | .minu _ _ _ _ => true
  | .maxu _ _ _ _ => true
  | .mov _ _ _ => true
  | .movi _ _ _ => true
  | .movis _ _ _ => true
  | .neg _ _ _ => true
  | .not _ _ _ => true
  | .sxb _ _ _ => true
  | .sxh _ _ _ => true
  | .sxw _ _ _ => true
  | .zxb _ _ _ => true
  | .zxh _ _ _ => true
  | .zxw _ _ _ => true
  | .clz _ _ _ => true
  | .ctz _ _ _ => true
  | .popc _ _ _ => true
  | .bswap _ _ _ => true
  | .movpg _ _ => true
  | .ld _ _ _ _ => true
  | .lds _ _ _ _ => true
  | .ldpc _ _ _ => true
  | .st _ _ _ _ => true
  | .sti _ _ _ _ => true
  | .lea _ _ _ _ => true
  | .leapc _ _ _ => true
  | .push _ _ => true
  | .pop _ _ => true
  | .br _ _ => true
  | .brr _ _ => true
  | .call _ _ => true
  | .callr _ _ => true
  | .dbnz _ _ _ => true
  | .ret _ => true
  | .rete _ => true
  | .tas _ _ _ _ => true
  | .ldrs _ _ _ => true
  | .stc _ _ _ _ => true
  | .clrres _ => true
  | .mfc _ _ _ => true
  | .mtc _ _ _ => true
  | .hold _ _ => true
  | .wait _ => true
  | .msync _ => true
  | .fence _ => true
  | .fenceRule _ => true
  | .nop _ => true
  | .movs _ => true
  | .fills _ => true
  | .cmps _ _ => true
  | .scans _ _ _ => true
  | .crcs _ => true
  | .repeatElement _ _ _ => true
  | .eq _ _ _ _ => true
  | .ne _ _ _ _ => true
  | .lt _ _ _ _ => true
  | .le _ _ _ _ => true
  | .gt _ _ _ _ => true
  | .ge _ _ _ _ => true
  | .ltu _ _ _ _ => true
  | .leu _ _ _ _ => true
  | .gtu _ _ _ _ => true
  | .geu _ _ _ _ => true
  | .tst _ _ _ _ => true
  | .tsti _ _ _ _ => true
  | .pand _ _ _ => true
  | .por _ _ _ => true
  | .pxor _ _ _ => true
  | .pandn _ _ _ => true
  | .pnot _ _ _ => true
  | .pmov _ _ _ => true
  | .pset _ _ => true
  | .pclr _ _ => true
  | .pnz _ _ _ => true
  | .movgp _ _ => true
  | .exceptionEntry t c => decide (t < 64) && decide (c < 3)
  | .interruptRequest t v => decide (t < 64) && vectorOk v
  | .tintArrival t c => decide (t < 64) && decide (c < 3)
  | .replayLoadRequest t c => decide (t < 64) && decide (c < 3)
  | .gatedRequest t c => decide (t < 64) && decide (c < 3)
  | .tmiResponse t => decide (t < 64)
  | .lagLimit t c => decide (t < 64) && decide (c < 3)
  | .stepBlockEnd t c _ => decide (t < 64) && decide (c < 3)
  | .tcmScrub t c => decide (t < 64) && decide (c < 3)
  | .tcmWriteBack t c => decide (t < 64) && decide (c < 3)
  | .mordantingRoundEnd t _ => decide (t < 64)
  | .mordantingPause t => decide (t < 64)
  | .mordantingComplete t _ => decide (t < 64)
  | .mordtmoExpiry t => decide (t < 64)
  | .tmodeWrite iid t _ => decide (iid < 65536) && decide (t < 64)
  | .tcfgWrite iid t _ => decide (iid < 65536) && decide (t < 64)
  | .irqsetWrite iid t _ => decide (iid < 65536) && decide (t < 64)
  | .radmwinWrite iid t _ => decide (iid < 65536) && decide (t < 64)
  | .clrmon iid key => decide (iid < 65536) && decide (key < 192)
  | .clrcnt iid page off => decide (iid < 65536) && decide (page < 65536) && decide (off < 4096)
  | .frameStart => true
  | .move n _ => decide (n < 16)
  | .moveWindowEnd n _ _ => decide (n < 16)
  | .release n _ => decide (n < 16)
  | .deadlineEnd n _ => decide (n < 16)
  | .doneComplete iid n job => decide (iid < 65536) && decide (n < 16) && decide (job < 4096)
  | .doneStopAck iid n job => decide (iid < 65536) && decide (n < 16) && decide (job < 4096)
  | .lossNotice n => decide (n < 16)
  | .completionNotice n => decide (n < 16)
  | .takeoverNotice n => decide (n < 16)
  | .noticeTimeout n _ => decide (n < 16)
  | .rerunMoveEnd n _ => decide (n < 16)
  | .sparedlEnd n _ => decide (n < 16)
  | .vote n _ => decide (n < 16)
  | .voteWindowEnd n _ => decide (n < 16)
  | .commit n _ => decide (n < 16)
  | .tx q _ => decide (q < 8)
  | .rxchk q _ => decide (q < 8)
  | .tbldataWrite iid page _ => decide (iid < 65536) && decide (page < 65536)
  | .tblchk iid => decide (iid < 65536)
  | .swframeWrite iid _ => decide (iid < 65536)
  | .sctlEnWrite iid n _ => decide (iid < 65536) && decide (n < 16)
  | .alarmFire n => decide (n < 4)
  | .srcWrite iid v => decide (iid < 65536) && decide (v < 4)
  | .sourceLock => true
  | .sourceFailure => true
  | .ppsinEdge => true
  | .txHandoverComplete q _ => decide (q < 8)
  | .txWindowEnd q _ => decide (q < 8)
  | .sramAccess n => decide (n < 16)
  | .sramWriteBack n => decide (n < 16)
  | .zeroFillComplete n _ => decide (n < 16)
  | .ddr4Request k => decide (k < 8)
  | .maintenanceWindow k => decide (k < 8)
  | .dcfgWrite iid k _ => decide (iid < 65536) && decide (k < 8)
  | .start iid k => decide (iid < 65536) && decide (k < 8)
  | .trainingComplete k _ _ => decide (k < 8)
  | .trainingTimeout k => decide (k < 8)
  | .init iid k => decide (iid < 65536) && decide (k < 8)
  | .initComplete k => decide (k < 8)
  | .mirror iid k _ => decide (iid < 65536) && decide (k < 8)
  | .retrain iid k => decide (iid < 65536) && decide (k < 8)
  | .retire iid k => decide (iid < 65536) && decide (k < 8)
  | .selfRefreshExitComplete k => decide (k < 8)
  | .commitFwall iid n _ => decide (iid < 65536) && decide (n < 16)
  | .clrdeny iid n => decide (iid < 65536) && decide (n < 16)
  | .flitArrival _ => true
  | .tagTimeout _ => true
  | .crcFeed n => decide (n < 16)
  | .crctlInit iid n mask => decide (iid < 65536) && decide (n < 16) && decide (mask < 256)
  | .ccfgWrite iid n i _ => decide (iid < 65536) && decide (n < 16) && decide (i < 8)
  | .cvalueWrite iid n i _ _ => decide (iid < 65536) && decide (n < 16) && decide (i < 8)
  | .faultEvent src _ _ _ => decide (src < 0x1F2)
  | .railFault src pair => decide (src < 0x1F2) && decide (pair < 4)
  | .takeEvent => true
  | .resetActionExpiry => true
  | .railSweep _ => true
  | .leakClear => true
  | .erroutToggle => true
  | .rtblchk iid => decide (iid < 65536)
  | .rswgenWrite iid _ => decide (iid < 65536)
  | .reactionBankExchange => true
  | .flogselWrite iid _ => decide (iid < 65536)
  | .clrfirst iid => decide (iid < 65536)
  | .clrlog iid => decide (iid < 65536)
  | .arm iid page _ => decide (iid < 65536) && decide (page < 65536)
  | .lctlEnWrite iid l _ => decide (iid < 65536) && decide (l < 32)
  | .signalDetect l => decide (l < 32)
  | .autoNegotiation l _ _ _ => decide (l < 32)
  | .capSend l => decide (l < 32)
  | .cap rx flags _ => decide (rx.lane < 32) && decide (flags < 64)
  | .rateChange l => decide (l < 32)
  | .equaliserConverged l => decide (l < 32)
  | .trainingLimit l => decide (l < 32)
  | .confirmTimeout l => decide (l < 32)
  | .laneFailure l why => decide (l < 32) && decide (1 ≤ why ∧ why ≤ 4)
  | .spareTimeout l => decide (l < 32)
  | .downExpiry i => decide (i < 32)
  | .retune iid l => decide (iid < 65536) && decide (l < 32)
  | .reneg iid l => decide (iid < 65536) && decide (l < 32)
  | .sendindigo iid l => decide (iid < 65536) && decide (l < 32)
  | .indigoDetect l => decide (l < 32)
  | .data rx _ => decide (rx.lane < 32)
  | .req rx _ _ _ _ => decide (rx.lane < 32)
  | .rsp rx _ _ => decide (rx.lane < 32)
  | .voteFrame rx _ => decide (rx.lane < 32)
  | .time rx _ _ _ => decide (rx.lane < 32)
  | .svc rx _ _ _ => decide (rx.lane < 32)
  | .ack rx => decide (rx.lane < 32)
  | .nak rx => decide (rx.lane < 32)
  | .reorderTimeout i vc => decide (i < 32) && decide (vc < 8)
  | .retryTimeout i vc => decide (i < 32) && decide (vc < 8)
  | .timeSend i => decide (i < 32)
  | .holdover => true
  | .holdoverExpiry => true
  | .peerHoldTimeout i _ _ _ => decide (i < 32)
  | .blcfgWrite iid i _ => decide (iid < 65536) && decide (i < 32)
  | .restart iid q => decide (iid < 65536) && decide (q < 8)
  | .ethernetFrame mac _ => decide (mac < 18)
  | .tailWrite iid mac _ _ => decide (iid < 65536) && decide (mac < 18)
  | .transmitDescriptorReturned mac => decide (mac < 18)
  | .outboundAccess => true
  | .queueEntry _ => true
  | .busTimer _ => true
  | .queueTimeout => true
  | .inboundCycle _ => true
  | .sysresetIn => true
  | .sysresetExpiry => true
  | .vcfgWrite iid _ => decide (iid < 65536)
  | .virqWrite iid _ => decide (iid < 65536)
  | .iack level => decide (1 ≤ level ∧ level ≤ 7)
  | .irqAsserted level => decide (1 ≤ level ∧ level ≤ 7)
  | .vintpopRead iid => decide (iid < 65536)
  | .vmemapWrite iid off _ => decide (iid < 65536) && decide (off < 4096)
  | .pcfgWrite iid p _ => decide (iid < 65536) && decide (p < 32)
  | .discWrite iid _ => decide (iid < 65536)
  | .mailboxHeaderWrite iid k m _ => decide (iid < 65536) && decide (k < 4) && decide (m < 16)
  | .canFrameReceived k _ bs => decide (k < 4) && decide (bs.length ≤ 64)
  | .recover iid k => decide (iid < 65536) && decide (k < 4)
  | .udataWrite iid k _ => decide (iid < 65536) && decide (k < 8)
  | .udataRead iid k => decide (iid < 65536) && decide (k < 8)
  | .uartCharacter k ch err => decide (k < 8) && decide (ch < 512) && decide (err < 4)
  | .mdioGo iid i _ => decide (iid < 65536) && decide (i < 2)
  | .icmdStart iid k => decide (iid < 65536) && decide (k < 2)
  | .icmdWrite iid k d => decide (iid < 65536) && decide (k < 2) && decide (d < 256)
  | .icmdReadAck iid k => decide (iid < 65536) && decide (k < 2)
  | .icmdReadNack iid k => decide (iid < 65536) && decide (k < 2)
  | .icmdStop iid k => decide (iid < 65536) && decide (k < 2)
  | .iresRead iid k => decide (iid < 65536) && decide (k < 2)
  | .gsetWrite iid _ => decide (iid < 65536)
  | .gclrWrite iid _ => decide (iid < 65536)
  | .gpioInputChange _ => true
  | .canFrameSent k r => decide (k < 4) && decide (r < 3)
  | .recoverySequenceComplete k => decide (k < 4)
  | .uartCharacterSent k => decide (k < 8)
  | .mdioFrameDone i d => decide (i < 2) && decide (d < 65536)
  | .i2cCommandComplete k d _ => decide (k < 2) && decide (d < 256)
  | .i2cSlaveAddressed k => decide (k < 2)
  | .mgmtLinkDown i => decide (i < 2)
  | .domainRequest iid _ _ => decide (iid < 65536)
  | .domainSwitchComplete d _ => decide (d < 97)
  | .plWrite iid t _ => decide (iid < 65536) && decide (t < 64)
  | .levelChangeComplete t => decide (t < 64)
  | .entryStageComplete t => decide (t < 64)
  | .wake t v => decide (t < 64) && vectorOk v
  | .wakeSource src idx => decide (1 ≤ src ∧ src ≤ 4) && decide (idx < 32)
  | .thermalSample t0 t1 tio => decide (t0 < 256) && decide (t1 < 256) && decide (tio < 256)
  | .regulatorOutOfRegulation t => decide (t < 64)
  | .dmodeWrite iid v => decide (iid < 65536) && decide (v < 4)
  | .clrabort iid => decide (iid < 65536)
  | .powerOnReset cause devid => decide (1 ≤ cause ∧ cause ≤ 3) && decide (devid < 8)
  | .startStepComplete _ => true
  | .deviceReset iid _ => decide (iid < 65536)
  | .dieReset iid _ d => decide (iid < 65536) && decide (d < 2)
  | .regionReset iid _ n => decide (iid < 65536) && decide (n < 16)
  | .triadReset iid _ t => decide (iid < 65536) && decide (t < 64)
  | .debugReset => true
  | .startok iid => decide (iid < 65536)
  | .starttmoExpiry => true
  | .step9Timeout => true
  | .retryExpiry => true
  | .go iid _ => decide (iid < 65536)
  | .bistRunEnd _ => true
  | .resetComplete kind _ => decide (2 ≤ kind ∧ kind ≤ 4)
  | .serviceMessage ch _ _ => chanOk ch
  | .mailboxPoll => true
  | .getseq ch => chanOk ch
  | .resend ch => chanOk ch
  | .readreg ch => chanOk ch
  | .logread ch => chanOk ch
  | .writereg ch => chanOk ch
  | .msg ch => chanOk ch
  | .flashwrite ch => chanOk ch
  | .flasherase ch => chanOk ch
  | .verify ch => chanOk ch
  | .setpref ch => chanOk ch
  | .dirset ch => chanOk ch
  | .loadtable ch => chanOk ch
  | .loadreact ch => chanOk ch
  | .loadtriad ch => chanOk ch
  | .loadmcode ch => chanOk ch
  | .wardenswap ch _ => chanOk ch
  | .handoverTimeout => true
  | .reset ch => chanOk ch
  | .installset ch => chanOk ch
  | .revokekey ch => chanOk ch
  | .send iid => decide (iid < 65536)
  | .msgin7Read iid => decide (iid < 65536)
  | .acknowledgeWaitExpiry => true
  | .pglockWrite iid page => decide (iid < 65536) && decide (page < 65536)
  | .registerWrite iid page off n _ => decide (iid < 65536) && decide (page < 65536) && decide (off < 4096) && decide (n = 4 ∨ n = 8)

/-- The command is well formed. -/
def Instr.wf (i : Instr) : Bool :=
  match i.fla with
  | some e => flaWf e
  | none => i.inRange

end Sys2Proof
end

