-- ==== Sys2Proof/Certificates/Slice0/Obligations.lean ====
section
/-! DEFINITION. The statements about this model, one definition each. -/

open Sys2Proof Sys2Proof.Machine

/-! The queue. -/

/-- A step runs the command at the front of the queue on the state with the queue's rest. -/
def Obligations.StepRunsFrontCommand : Prop :=
  ∀ (c : Instr) (rest : List Instr) (s : State), step { s with pending := c :: rest } = exec c { s with pending := rest }

/-- On an empty queue, with TIME not disciplined by PPSIN, a step moves TIME on by one tick of 10 ns (R179) and changes nothing
else. That the idle step is a tick is the model's choice (assumption 1). -/
def Obligations.IdleStepIsOneTick : Prop :=
  ∀ s : State, s.pending = [] → s.fld pgTime 0x108 1 0 ≠ 2 →
    step s = .next { s with timeB := { s.timeB with time := s.timeB.time + 10 } }

/-! FLA: results in registers. -/

/-- ADD, SUB, AND, OR, XOR and ANDN write their result's low 8w bits, zero-extended, to gD and nothing else (R113, R124).

The shifts and rotates: the count is b mod 8w; zeros enter SHL and SHR, the sign bit enters SAR, and ROL and ROR turn within
8w bits (R127).

MUL returns the low 8w bits of the product, MULH the high 8w bits of the signed product and MULHU those of the unsigned
product (R128). -/
def Obligations.IntegerResults : Prop :=
  (∀ (s : State) (x : Ctx) (d a : Reg) (b : Src2),
     let u := s.unsignedOf x a
     let v := s.unsignedSrc x b
     s.yields (.add x d a b) x (.alu .add d a b) d (intWord x.w (u + v)) ∧
     s.yields (.sub x d a b) x (.alu .sub d a b) d (intWord x.w (u - v)) ∧
     s.yields (.and x d a b) x (.alu .and d a b) d (BitVec.ofNat 64 (Nat.land u.toNat v.toNat)) ∧
     s.yields (.or x d a b) x (.alu .or d a b) d (BitVec.ofNat 64 (Nat.lor u.toNat v.toNat)) ∧
     s.yields (.xor x d a b) x (.alu .xor d a b) d (BitVec.ofNat 64 (Nat.xor u.toNat v.toNat)) ∧
     s.yields (.andn x d a b) x (.alu .andn d a b) d (BitVec.ofNat 64 (Nat.land u.toNat (2 ^ x.w.bits - 1 - v.toNat)))) ∧
  (∀ (s : State) (x : Ctx) (d a : Reg) (b : Src2),
     let u := s.unsignedOf x a
     let n := (s.unsignedSrc x b % x.w.bits).toNat
     s.yields (.shl x d a b) x (.alu .shl d a b) d (intWord x.w (u * 2 ^ n)) ∧
     s.yields (.shr x d a b) x (.alu .shr d a b) d (intWord x.w (u / 2 ^ n)) ∧
     s.yields (.sar x d a b) x (.alu .sar d a b) d (intWord x.w (s.signedOf x a / 2 ^ n)) ∧
     s.yields (.rol x d a b) x (.alu .rol d a b) d (intWord x.w (u * 2 ^ n + u / 2 ^ (x.w.bits - n))) ∧
     s.yields (.ror x d a b) x (.alu .ror d a b) d (intWord x.w (u / 2 ^ n + u * 2 ^ (x.w.bits - n)))) ∧
  (∀ (s : State) (x : Ctx) (d a : Reg) (b : Src2),
     s.yields (.mul x d a b) x (.alu .mul d a b) d (intWord x.w (s.unsignedOf x a * s.unsignedSrc x b)) ∧
     s.yields (.mulh x d a b) x (.alu .mulh d a b) d (intWord x.w (s.signedOf x a * s.signedSrc x b / 2 ^ x.w.bits)) ∧
     s.yields (.mulhu x d a b) x (.alu .mulhu d a b) d (intWord x.w (s.unsignedOf x a * s.unsignedSrc x b / 2 ^ x.w.bits)))

/-- ADDT, SUBT and MULT write the wrapped result, and raise arith(overflow), code 2, exactly where the signed result does not fit in
8w bits (R128, R130).

DIV, DIVU, REM and REMU: by zero, the quotient is all ones and the remainder a, and arith(divide by zero), code 1, is raised;
else the quotient truncated toward zero and the remainder with the sign of a, the one overflow giving a and 0 (R129). -/
def Obligations.ArithmeticExceptions : Prop :=
  (∀ (s : State) (x : Ctx) (d a b : Reg) (c : Src2),
     let outside (v : Int) : ArithCause := if -(2 : Int) ^ (x.w.bits - 1) ≤ v ∧ v < (2 : Int) ^ (x.w.bits - 1) then none else some 2
     s.yields (.addt x d a c) x (.alu .addt d a c) d (intWord x.w (s.unsignedOf x a + s.unsignedSrc x c))
       (outside (s.signedOf x a + s.signedSrc x c)) ∧
     s.yields (.subt x d a b) x (.alu .subt d a (.reg b)) d (intWord x.w (s.unsignedOf x a - s.unsignedOf x b))
       (outside (s.signedOf x a - s.signedOf x b)) ∧
     s.yields (.mult x d a b) x (.alu .mult d a (.reg b)) d (intWord x.w (s.unsignedOf x a * s.unsignedOf x b))
       (outside (s.signedOf x a * s.signedOf x b))) ∧
  (∀ (s : State) (x : Ctx) (d a b : Reg),
     let u := s.unsignedOf x a
     let v := s.unsignedOf x b
     let zero : ArithCause := if v = 0 then some 1 else none
     s.yields (.div x d a b) x (.alu .div d a (.reg b)) d
       (intWord x.w (if v = 0 then -1 else (s.signedOf x a).tdiv (s.signedOf x b))) zero ∧
     s.yields (.divu x d a b) x (.alu .divu d a (.reg b)) d (intWord x.w (if v = 0 then -1 else u / v)) zero ∧
     s.yields (.rem x d a b) x (.alu .rem d a (.reg b)) d
       (intWord x.w (if v = 0 then u else (s.signedOf x a).tmod (s.signedOf x b))) zero ∧
     s.yields (.remu x d a b) x (.alu .remu d a (.reg b)) d (intWord x.w (if v = 0 then u else u % v)) zero)

/-- MIN, MAX, MINU and MAXU write the smaller or larger operand, signed or unsigned; MOV, NEG, NOT and the extensions write what
their descriptions give; MOVI and MOVIS their immediates (R113, R124).

CLZ and CTZ count the zeros above the highest and below the lowest 1 bit, 8w for zero; POPC counts the 1 bits; byte k of BSWAP's
result is byte w - 1 - k of the operand; MOVPG copies p7 to p0, p0 reading 1 (R113).

LEA writes gA plus the displacement; LEAPC the address of the next instruction plus its displacement (R105, R113). -/
def Obligations.MovesCountsAndAddresses : Prop :=
  (∀ (s : State) (x : Ctx) (d a b : Reg) (v : Word) (m : BitVec 32),
     let u := s.unsignedOf x a
     let r := (s.copy x.key).rd a
     s.yields (.min x d a b) x (.alu .min d a (.reg b)) d (intWord x.w (Min.min (s.signedOf x a) (s.signedOf x b))) ∧
     s.yields (.max x d a b) x (.alu .max d a (.reg b)) d (intWord x.w (Max.max (s.signedOf x a) (s.signedOf x b))) ∧
     s.yields (.minu x d a b) x (.alu .minu d a (.reg b)) d (intWord x.w (Min.min u (s.unsignedOf x b))) ∧
     s.yields (.maxu x d a b) x (.alu .maxu d a (.reg b)) d (intWord x.w (Max.max u (s.unsignedOf x b))) ∧
     s.yields (.mov x d a) x (.un .mov d a) d (intWord x.w u) ∧
     s.yields (.neg x d a) x (.un .neg d a) d (intWord x.w (-u)) ∧
     s.yields (.not x d a) x (.un .not d a) d (intWord x.w (-u - 1)) ∧
     s.yields (.sxb x d a) x (.un .sxb d a) d ((r.truncate 8).signExtend 64) ∧
     s.yields (.sxh x d a) x (.un .sxh d a) d ((r.truncate 16).signExtend 64) ∧
     s.yields (.sxw x d a) x (.un .sxw d a) d ((r.truncate 32).signExtend 64) ∧
     s.yields (.zxb x d a) x (.un .zxb d a) d ((r.truncate 8).zeroExtend 64) ∧
     s.yields (.zxh x d a) x (.un .zxh d a) d ((r.truncate 16).zeroExtend 64) ∧
     s.yields (.zxw x d a) x (.un .zxw d a) d ((r.truncate 32).zeroExtend 64) ∧
     s.yields (.movi x d v) x (.movi d v) d (intWord x.w v.toNat) ∧
     s.yields (.movis x d m) x (.movis d m) d (m.signExtend 64)) ∧
  (∀ (s : State) (x : Ctx) (d a : Reg),
     let u := (s.unsignedOf x a).toNat
     s.yields (.clz x d a) x (.un .clz d a) d (BitVec.ofNat 64 (if u = 0 then x.w.bits else x.w.bits - 1 - Nat.log2 u)) ∧
     (∀ n : Nat, n ≤ x.w.bits → (∀ i, i < n → u.testBit i = false) → (n < x.w.bits → u.testBit n = true) →
       s.yields (.ctz x d a) x (.un .ctz d a) d (BitVec.ofNat 64 n)) ∧
     s.yields (.popc x d a) x (.un .popc d a) d (BitVec.ofNat 64 ((List.range x.w.bits).countP fun i => u.testBit i)) ∧
     (∀ r : Word, (∀ k, k < 8 → (r.toNat / 256 ^ k) % 256 = if k < x.w.bytes then (u / 256 ^ (x.w.bytes - 1 - k)) % 256 else 0) →
       s.yields (.bswap x d a) x (.un .bswap d a) d r) ∧
     (∀ r : Word, (∀ k, r.getLsbD k = if h : k < 8 then (s.copy x.key).p ⟨k, h⟩ else false) →
       s.yields (.movpg x d) x (.movpg d) d r)) ∧
  (∀ (s : State) (x : Ctx) (d a : Reg) (o : Disp) (m : BitVec 32),
     s.yields (.lea x d a o) x (.lea d a o) d ((s.copy x.key).rd a + dispVal o) ∧
     s.yields (.leapc x d m) x (.leapc d m) d (s.nextPc x none (.leapc d m) + m.signExtend 64))

/-! FLA: predicates. -/

/-- Each compare writes its predicate with the truth of its condition on the low 8w bits; TST and TSTI with whether the AND is not
zero (R115, R131).

The predicate logic reads its sources as they were before the group; PSET, PCLR and PNZ write 1, 0 and whether gA is not zero;
MOVGP writes p1 to p7 from bits 1 to 7 of gA (R116, R131). -/
def Obligations.PredicateResults : Prop :=
  (∀ (s : State) (x : Ctx) (p : Pred) (d a : Reg) (b : Src2) (m : BitVec 32),
     let u := s.unsignedOf x d
     let v := s.unsignedSrc x b
     let su := s.signedOf x d
     let sv := s.signedSrc x b
     s.decides (.eq x p d b) x (.cmp .eq p d b) p (decide (u = v)) ∧ s.decides (.ne x p d b) x (.cmp .ne p d b) p (decide (u ≠ v)) ∧
     s.decides (.lt x p d b) x (.cmp .lt p d b) p (decide (su < sv)) ∧ s.decides (.le x p d b) x (.cmp .le p d b) p (decide (su ≤ sv)) ∧
     s.decides (.gt x p d b) x (.cmp .gt p d b) p (decide (su > sv)) ∧ s.decides (.ge x p d b) x (.cmp .ge p d b) p (decide (su ≥ sv)) ∧
     s.decides (.ltu x p d b) x (.cmp .ltu p d b) p (decide (u < v)) ∧ s.decides (.leu x p d b) x (.cmp .leu p d b) p (decide (u ≤ v)) ∧
     s.decides (.gtu x p d b) x (.cmp .gtu p d b) p (decide (u > v)) ∧ s.decides (.geu x p d b) x (.cmp .geu p d b) p (decide (u ≥ v)) ∧
     s.decides (.tst x p d a) x (.tst p d a) p (decide (Nat.land u.toNat (s.unsignedOf x a).toNat ≠ 0)) ∧
     s.decides (.tsti x p d m) x (.tsti p d m) p (decide (Nat.land u.toNat (s.unsignedSrc x (.imm32 m)).toNat ≠ 0))) ∧
  (∀ (s : State) (x : Ctx) (p q : Pred) (a : Reg),
     let c := s.copy x.key
     s.decides (.pand x p q) x (.plog .pand p q) p (c.p p && c.p q) ∧
     s.decides (.por x p q) x (.plog .por p q) p (c.p p || c.p q) ∧
     s.decides (.pxor x p q) x (.plog .pxor p q) p (c.p p ^^ c.p q) ∧
     s.decides (.pandn x p q) x (.plog .pandn p q) p (c.p p && !c.p q) ∧
     s.decides (.pnot x p q) x (.plog .pnot p q) p (!c.p q) ∧
     s.decides (.pmov x p q) x (.plog .pmov p q) p (c.p q) ∧
     s.decides (.pset x p) x (.pset p) p true ∧
     s.decides (.pclr x p) x (.pclr p) p false ∧
     s.decides (.pnz x p a) x (.pnz p a) p (decide (c.rd a ≠ 0)) ∧
     (s.executes x (.movgp a) = true → s.runs (.movgp x a) x fun t =>
       (∀ r : Pred, (t.copy x.key).p r = if r.val = 0 then true else (c.rd a).getLsbD r.val) ∧
       (∀ n, (t.copy x.key).gAt n = c.gAt n) ∧ s.storesNothing t x ∧ s.passes t x (.movgp a) (s.nextPc x none (.movgp a)) none))

/-! FLA: control transfer. -/

/-- BR goes to the next address plus its displacement, BRR to gA, DBNZ counts gD down and branches while it is not zero, NOP goes
on (R105, R137, R139); none changes anything else. -/
def Obligations.BranchTargets : Prop :=
  ∀ (s : State) (x : Ctx) (d a : Reg) (o : Disp),
    (s.executes x (.br o) = true → s.runs (.br x o) x fun t =>
      s.goesTo t x (.br o) (s.nextPc x none (.br o) + dispVal o)) ∧
    (s.executes x (.brr a) = true → s.runs (.brr x a) x fun t => s.goesTo t x (.brr a) ((s.copy x.key).rd a)) ∧
    (s.executes x .nop = true → s.runs (.nop x) x fun t => s.goesTo t x .nop (s.nextPc x none .nop)) ∧
    (s.executes x (.dbnz d o) = true → s.runs (.dbnz x d o) x fun t =>
      (∀ n, (t.copy x.key).gAt n =
        if n = (s.copy x.key).slotOf d then (s.copy x.key).rd d - 1 else (s.copy x.key).gAt n) ∧
      (t.copy x.key).preds = (s.copy x.key).preds ∧ s.storesNothing t x ∧
      s.passes t x (.dbnz d o)
        (if (s.copy x.key).rd d = 1 then s.nextPc x none (.dbnz d o) else s.nextPc x none (.dbnz d o) + dispVal o) none)

/-! FLA: the copy's own TCM. -/

/-- A read of words that carry no error, with no injection armed, gives their bytes, lowest address lowest, and changes nothing; a store
that would cover an uncorrectable word in part stores nothing and is a divergence of the running copy (R51, R217, R219, R220, R223).

A word whose syndrome is the column of one data bit reads with that bit inverted, and one whose syndrome has a single 1 reads
as stored; any other nonzero syndrome is uncorrectable (R217). -/
def Obligations.TcmReadsAndWordCode : Prop :=
  ((∀ (s : State) (t c a n : Nat), 1 ≤ n → n ≤ 16 → (s.injEcc (pgTriad t) c).left = 0 →
     (∀ wa, a / 8 ≤ wa → wa ≤ (a + n - 1) / 8 → (s.copy (3 * t + c)).tcm.synAt wa = 0) →
     (∃ q, s.tcmRead t c a n = (s, some q) ∧
       ∀ k, quadByte q k = if k < n then s.byteAt (.tcm (3 * t + c)) (a + k) else 0)) ∧
   (∀ (s : State) (t c a n wa : Nat) (q : Quad), 1 ≤ n → n ≤ 16 → (s.copy (3 * t + c)).st = .running →
     a / 8 ≤ wa → wa ≤ (a + n - 1) / 8 → ¬ (a ≤ 8 * wa ∧ 8 * wa + 8 ≤ a + n) → (s.copy (3 * t + c)).tcm.readWord wa 0 = .bad →
     s.tcmStore t c a n q = (s.copyFault t c (s.copy (3 * t + c)).retcnt 3 false, false))) ∧
  (∀ (r : Ram) (wa : Nat),
     (∀ j, j < 64 → (r.synAt wa).toNat = dataCols.getD j 0 → r.readWord wa 0 = .fixed (r.rawWord wa ^^^ BitVec.ofNat 64 (2 ^ j))) ∧
     (∀ k, k < 8 → (r.synAt wa).toNat = 2 ^ k → r.readWord wa 0 = .fixed (r.rawWord wa)) ∧
     ((r.synAt wa).toNat ≠ 0 → (∀ k, k < 8 → (r.synAt wa).toNat ≠ 2 ^ k) → (r.synAt wa).toNat ∉ dataCols → r.readWord wa 0 = .bad))

/-- The loads of the copy's own TCM: LD zero-extends, LDS sign-extends, LDPC counts from the next instruction; POP and RET read at
the stack pointer and add 8 to it, POP's destination written last; LDRS reserves the 64-byte granule (R105, R126, R133, R136). -/
def Obligations.TcmLoadsComplete : Prop :=
  ∀ (s : State) (x : Ctx) (d a : Reg) (o : Disp) (m : BitVec 32) (q : Quad),
    let c := s.copy x.key
    let reads (i : Fla) (b : Word) (n : Nat) : Prop :=
      s.heads x i none = true ∧ classify b.toNat = .tcm ∧ ((s.fetched x i none).tcmRead x.t x.c b.toNat n).2 = some q
    let v : Word := BitVec.ofNat 64 (q.toNat % 2 ^ x.w.bits)
    let v8 : Word := q.truncate 64
    (reads (.ld d a o) (c.rd a + dispVal o) x.w.bytes → s.runs (.ld x d a o) x fun t => s.writesReg t x (.ld d a o) d v none) ∧
    (reads (.lds d a o) (c.rd a + dispVal o) x.w.bytes →
      s.runs (.lds x d a o) x fun t => s.writesReg t x (.lds d a o) d (sx x.w v) none) ∧
    (reads (.ldpc d m) (s.nextPc x none (.ldpc d m) + m.signExtend 64) x.w.bytes →
      s.runs (.ldpc x d m) x fun t => s.writesReg t x (.ldpc d m) d v none) ∧
    (reads (.pop d) c.sp 8 → s.runs (.pop x d) x fun t =>
      (∀ n, (t.copy x.key).gAt n = if n = c.slotOf d then v8 else if n = spBank c.level then c.sp + 8 else c.gAt n) ∧
      (t.copy x.key).preds = c.preds ∧ s.storesNothing t x ∧ s.passes t x (.pop d) (s.nextPc x none (.pop d)) none) ∧
    (reads .ret c.sp 8 → s.runs (.ret x) x fun t =>
      (∀ n, (t.copy x.key).gAt n = if n = spBank c.level then c.sp + 8 else c.gAt n) ∧
      (t.copy x.key).preds = c.preds ∧ s.storesNothing t x ∧ s.passes t x .ret v8 none) ∧
    (reads (.ldrs d a) (c.rd a) 8 → s.runs (.ldrs x d a) x fun t =>
      (∀ n, (t.copy x.key).gAt n = if n = c.slotOf d then v8 else c.gAt n) ∧ (t.copy x.key).preds = c.preds ∧
      (t.copy x.key).localFlag = true ∧ (t.copy x.key).resv = some ((c.rd a).toNat / 64) ∧
      (∀ p b, t.byteAt p b = s.byteAt p b) ∧ s.passes t x (.ldrs d a) (s.nextPc x none (.ldrs d a)) none)

/-- The stores to the copy's own TCM: ST and STI store the low w bytes at gA plus the displacement; PUSH, CALL and CALLR store 8
bytes at the stack pointer less 8, which it becomes, CALL and CALLR the next address before they branch (R126, R133, R138).
Every other byte of every memory stands. -/
def Obligations.TcmStoresComplete : Prop :=
  ∀ (s : State) (x : Ctx) (d a : Reg) (o : Disp) (v : Word) (m : BitVec 32),
    let c := s.copy x.key
    let own (i : Fla) (b : Word) (n : Nat) : Prop := s.heads x i none = true ∧ classify b.toNat = .tcm ∧ s.wholeWords x b n
    let low (w : Word) : Quad := BitVec.ofNat 128 (w.toNat % 2 ^ x.w.bits)
    let pushed (t : State) : Prop :=
      (∀ n, (t.copy x.key).gAt n = if n = spBank c.level then c.sp - 8 else c.gAt n) ∧ (t.copy x.key).preds = c.preds
    (own (.st d a o) (c.rd a + dispVal o) x.w.bytes → s.runs (.st x d a o) x fun t => s.sameRegs t x ∧
      s.storesOwn t x (c.rd a + dispVal o).toNat x.w.bytes (low (c.rd d)) ∧
      s.passes t x (.st d a o) (s.nextPc x none (.st d a o)) none) ∧
    (own (.sti a o v) (c.rd a + dispVal o) x.w.bytes → s.runs (.sti x a o v) x fun t => s.sameRegs t x ∧
      s.storesOwn t x (c.rd a + dispVal o).toNat x.w.bytes (low v) ∧
      s.passes t x (.sti a o v) (s.nextPc x none (.sti a o v)) none) ∧
    (own (.push a) (c.sp - 8) 8 → s.runs (.push x a) x fun t => pushed t ∧
      s.storesOwn t x (c.sp - 8).toNat 8 ((c.rd a).zeroExtend 128) ∧ s.passes t x (.push a) (s.nextPc x none (.push a)) none) ∧
    (own (.call m) (c.sp - 8) 8 → s.runs (.call x m) x fun t => pushed t ∧
      s.storesOwn t x (c.sp - 8).toNat 8 ((s.nextPc x none (.call m)).zeroExtend 128) ∧
      s.passes t x (.call m) (s.nextPc x none (.call m) + m.signExtend 64) none) ∧
    (own (.callr a) (c.sp - 8) 8 → s.runs (.callr x a) x fun t => pushed t ∧
      s.storesOwn t x (c.sp - 8).toNat 8 ((s.nextPc x none (.callr a)).zeroExtend 128) ∧
      s.passes t x (.callr a) (c.rd a) none)

/-- TAS in the copy's own TCM writes its predicate with bit 0 of the byte and stores 1 there; STC stores only where the local flag is
set and the reservation covers its granule, writes its predicate with whether it did, and ends both; CLRRES ends both (R135, R136). -/
def Obligations.TcmAtomicsComplete : Prop :=
  ∀ (s : State) (x : Ctx) (p : Pred) (d a : Reg) (o : Disp) (q : Quad),
    let c := s.copy x.key
    let b := c.rd a + dispVal o
    let won : Bool := c.localFlag && decide (c.resv = some ((c.rd a).toNat / 64))
    let wrote (t : State) (v : Bool) : Prop :=
      (∀ r, (t.copy x.key).p r = if r = p ∧ p.val ≠ 0 then v else c.p r) ∧ (∀ n, (t.copy x.key).gAt n = c.gAt n)
    (s.heads x (.tas p a o) none = true → classify b.toNat = .tcm → ((s.fetched x (.tas p a o) none).tcmRead x.t x.c b.toNat 1).2 = some q →
      s.wholeWords x b 1 →
      s.runs (.tas x p a o) x fun t => wrote t (q.getLsbD 0) ∧ s.storesOwn t x b.toNat 1 1 ∧
        s.passes t x (.tas p a o) (s.nextPc x none (.tas p a o)) none) ∧
    (s.heads x (.stc p d a) none = true → classify (c.rd a).toNat = .tcm →
      s.runs (.stc x p d a) x fun t => wrote t won ∧ (t.copy x.key).localFlag = false ∧ (t.copy x.key).resv = none ∧
        (∀ r k, t.byteAt r k = if won = true ∧ r = .tcm x.key ∧ (c.rd a).toNat ≤ k ∧ k < (c.rd a).toNat + 8
          then quadByte ((c.rd d).zeroExtend 128) (k - (c.rd a).toNat) else s.byteAt r k) ∧
        s.passes t x (.stc p d a) (s.nextPc x none (.stc p d a)) none) ∧
    (s.heads x .clrres none = true →
      s.runs (.clrres x) x fun t => s.sameRegs t x ∧ (t.copy x.key).localFlag = false ∧ (t.copy x.key).resv = none ∧
        (∀ r k, t.byteAt r k = s.byteAt r k) ∧ s.passes t x .clrres (s.nextPc x none .clrres) none)

/-- One element of a block operation in the copy's own TCM: MOVS copies w bytes from g2 to g3 and steps both, FILLS stores g0 at g3,
CMPS compares the elements at g2 and g3, SCANS the element at g2 with gA (R143 to R145). -/
def Obligations.BlockElementsComplete : Prop :=
  ∀ (s u : State) (x : Ctx) (p : Pred) (a : Reg) (q r : Quad),
    let c := s.copy x.key
    let w : Word := BitVec.ofNat 64 x.w.bytes
    let n := x.w.bytes
    let own (b : Word) : Prop := classify b.toNat = .tcm
    let steps (t : State) (ks : List Nat) : Prop :=
      ∀ k, (t.copy x.key).gAt k = if ks.contains k then c.gAt k + w else c.gAt k
    let decides (t : State) (v : Bool) : Prop := ∀ k, (t.copy x.key).p k = if k = p ∧ p.val ≠ 0 then v else c.p k
    (s.heads x .movs none = true → own (c.gAt 2) → own (c.gAt 3) → s.wholeWords x (c.gAt 3) n →
      (s.fetched x .movs none).tcmRead x.t x.c (c.gAt 2).toNat n = (u, some q) →
      s.runs (.movs x) x fun t => steps t [2, 3] ∧ (t.copy x.key).preds = c.preds ∧
        s.storesOwn t x (c.gAt 3).toNat n q ∧ s.passes t x .movs (s.nextPc x none .movs) none) ∧
    (s.heads x .fills none = true → own (c.gAt 3) → s.wholeWords x (c.gAt 3) n →
      s.runs (.fills x) x fun t => steps t [3] ∧ (t.copy x.key).preds = c.preds ∧
        s.storesOwn t x (c.gAt 3).toNat n (BitVec.ofNat 128 ((c.gAt 0).toNat % 2 ^ x.w.bits)) ∧
        s.passes t x .fills (s.nextPc x none .fills) none) ∧
    (s.heads x (.cmps p) none = true → own (c.gAt 2) → own (c.gAt 3) →
      (s.fetched x (.cmps p) none).tcmRead x.t x.c (c.gAt 2).toNat n = (u, some q) →
      (u.tcmRead x.t x.c (c.gAt 3).toNat n).2 = some r →
      s.runs (.cmps x p) x fun t => steps t [2, 3] ∧ decides t (decide (q.toNat % 2 ^ x.w.bits = r.toNat % 2 ^ x.w.bits)) ∧
        s.storesNothing t x ∧ s.passes t x (.cmps p) (s.nextPc x none (.cmps p)) none) ∧
    (s.heads x (.scans p a) none = true → own (c.gAt 2) →
      (s.fetched x (.scans p a) none).tcmRead x.t x.c (c.gAt 2).toNat n = (u, some q) →
      s.runs (.scans x p a) x fun t => steps t [2] ∧
        decides t (decide (q.toNat % 2 ^ x.w.bits = (c.rd a).toNat % 2 ^ x.w.bits)) ∧
        s.storesNothing t x ∧ s.passes t x (.scans p a) (s.nextPc x none (.scans p a)) none)

/-! FLA: control registers and synchronisation. -/

/-- MFC writes the register's value as it stands before its own retirement (R148). MTC's value is readable at once, and the old value
stays in force for two instructions, whatever register it names (R89, R148); SPT and SPS are the banks of g15. -/
def Obligations.ControlRegisterMoves : Prop :=
  ∀ (s : State) (x : Ctx) (d a : Reg) (k : BitVec 16),
    let c := s.copy x.key
    let n := k.toNat
    let opens (t : State) : Prop := (t.copy x.key).shadow.getLast? = some ⟨n, c.readCr n, 2⟩ ∧ s.storesNothing t x ∧
      (t.copy x.key).preds = c.preds ∧ (t.copy x.key).pc = s.nextPc x none (.mtc a k) ∧ (t.copy x.key).retcnt = c.retcnt + 1
    (s.heads x (.mfc d k) none = true → s.runs (.mfc x d k) x fun t => s.writesReg t x (.mfc d k) d (c.readCr n) none) ∧
    (s.heads x (.mtc a k) none = true → n ≠ 0x0C → n ≠ 0x0D →
      s.runs (.mtc x a k) x fun t => opens t ∧ (∀ m, (t.copy x.key).gAt m = c.gAt m) ∧
        (∀ m, m ≠ 0x71 → (t.copy x.key).crv m = if m = n then crNext c.level n (c.crv n) (c.rd a) else c.crv m)) ∧
    (s.heads x (.mtc a k) none = true → n = 0x0C ∨ n = 0x0D →
      s.runs (.mtc x a k) x fun t => opens t ∧
        (∀ m, (t.copy x.key).gAt m = if m = (if n = 0x0C then spBank .task else spBank .system) then c.rd a else c.gAt m) ∧
        (∀ m, m ≠ 0x71 → (t.copy x.key).crv m = c.crv m))

/-- HOLD n opens a window of min(n, NIMAX) groups behind it (R149); inside an open window it cannot lengthen it (the model's reading,
assumption 40). MSYNC ends every open shadow (R91). Neither changes a register.

WAIT retires at once where a stamp with an index above its own exists, and closes an open window; otherwise the copy stalls
(R149, R150). FENCE and FENCE.RULE retire once what they wait for is done, and the copy stalls until then (R151). -/
def Obligations.WindowsWaitsAndFences : Prop :=
  (∀ (s : State) (x : Ctx) (n : BitVec 16),
     let c := s.copy x.key
     (s.heads x (.hold n) none = true → s.runs (.hold x n) x fun t =>
       (t.copy x.key).holdRem = (if c.holdRem = 0 then min n.toNat (bitsOf (c.inForce 5) 12 0)
         else min (c.holdRem - 1) (min n.toNat (bitsOf (c.inForce 5) 12 0))) ∧
       s.sameRegs t x ∧ s.storesNothing t x ∧ s.passes t x (.hold n) (s.nextPc x none (.hold n)) none) ∧
     (s.heads x .msync none = true → s.runs (.msync x) x fun t => (t.copy x.key).shadow = [] ∧
       s.sameRegs t x ∧ s.storesNothing t x ∧ s.passes t x .msync (s.nextPc x none .msync) none)) ∧
  (∀ (s : State) (x : Ctx),
     let c := s.copy x.key
     let gone (t : State) (i : Fla) : Prop :=
       s.sameRegs t x ∧ s.storesNothing t x ∧ s.passes t x i (s.nextPc x none i) none
     (s.heads x .wait none = true → s.stampAbove x.t x.c = true →
       s.runs (.wait x) x fun t => gone t .wait ∧ (t.copy x.key).holdRem = 0) ∧
     (s.heads x .wait none = true → s.stampAbove x.t x.c = false →
       s.runs (.wait x) x fun t => (t.copy x.key).hold = .wait (flaLen x none .wait) ∧ (t.copy x.key).pc = c.pc ∧
         (t.copy x.key).retcnt = c.retcnt ∧ s.sameRegs t x) ∧
     (s.heads x .fence none = true → s.fenceOpen x.t x.c false = true → s.runs (.fence x) x fun t => gone t .fence) ∧
     (s.heads x .fence none = true → s.fenceOpen x.t x.c false = false → s.runs (.fence x) x fun t =>
       (t.copy x.key).hold = .fence false (flaLen x none .fence) ∧ (t.copy x.key).pc = c.pc ∧ s.sameRegs t x) ∧
     (s.heads x .fenceRule none = true → s.fenceOpen x.t x.c true = true →
       s.runs (.fenceRule x) x fun t => gone t .fenceRule) ∧
     (s.heads x .fenceRule none = true → s.fenceOpen x.t x.c true = false → s.runs (.fenceRule x) x fun t =>
       (t.copy x.key).hold = .fence true (flaLen x none .fenceRule) ∧ (t.copy x.key).pc = c.pc ∧ s.sameRegs t x))

/-- RETE restores return address and STATUS, its reserved bits clear (MIE kept when leaving System), counts VSTAT.NEST down, and closes
the window: outside the emergency from the frame at the stack pointer, which leaves the stack; in the emergency from the frame at 0x0800,
with Machine's g15 from 0x0810, and the emergency ends (R169). -/
def Obligations.ReteRestoresTheFrame : Prop :=
  ∀ (s u : State) (x : Ctx) (q r : Quad),
    let c := s.copy x.key
    let st : Word := (q >>> 64).truncate 64
    let frame (a : Nat) : Prop := (s.fetched x .rete none).tcmRead x.t x.c a 16 = (u, some q)
    let back (t : State) : Prop := (t.copy x.key).pc = q.truncate 64 ∧ (t.copy x.key).retcnt = c.retcnt + 1 ∧
      (t.copy x.key).crv 0 = reteStatus c st ∧ (t.copy x.key).level.code = bitsOf st 1 0 ∧
      bitsOf ((t.copy x.key).crv 3) 31 16 = bitsOf (c.crv 3) 31 16 - 1 ∧ (t.copy x.key).emerg = false ∧
      (t.copy x.key).preds = c.preds ∧ (t.copy x.key).holdRem = 0 ∧ s.storesNothing t x
    s.heads x .rete none = true →
      (bitsOf st 1 0 ≠ 3 → c.level.code ≤ bitsOf st 1 0 → c.emerg = false → classify c.sp.toNat = .tcm → frame c.sp.toNat →
        s.runs (.rete x) x fun t => back t ∧ ∀ n, (t.copy x.key).gAt n = if n = spBank c.level then c.sp + 16 else c.gAt n) ∧
      (bitsOf st 1 0 ≠ 3 → c.level.code ≤ bitsOf st 1 0 → c.emerg = true → frame 0x800 → (u.tcmRead x.t x.c 0x810 8).2 = some r →
        s.runs (.rete x) x fun t => back t ∧ ∀ n, (t.copy x.key).gAt n = if n = 15 then r.truncate 64 else c.gAt n)

/-- Under REP and REPU one element of an arithmetic instruction writes its register, counts g1 down, and leaves the pc where it is
until g1 is 0 (R140, R141). CRCS reads its element from the TCM, steps g2 when its CRC feed is done, and waits at the TMI for that
(R146). -/
def Obligations.RepeatedElements : Prop :=
  ∀ (s u : State) (x : Ctx) (r : RepKind) (op : AluOp) (d a : Reg) (b : Src2) (q : Quad),
    let c := s.copy x.key
    let i := Fla.alu op d a b
    (s.heads x i (some r) = true → d.val ≠ 1 → s.runs (.repeatElement x r i) x fun t =>
      (∀ n, (t.copy x.key).gAt n = if n = c.slotOf d then (aluRes op x.w (c.rd a) (srcVal c b)).1
        else if n = 1 then c.gAt 1 - 1 else c.gAt n) ∧
      (t.copy x.key).preds = c.preds ∧ (t.copy x.key).retcnt = c.retcnt + 1 ∧
      (t.copy x.key).pc = (if c.gAt 1 = 1 then s.nextPc x (some r) i else c.pc) ∧ s.storesNothing t x) ∧
    (s.heads x .crcs none = true → classify (c.gAt 2).toNat = .tcm →
      (s.fetched x .crcs none).tcmRead x.t x.c (c.gAt 2).toNat x.w.bytes = (u, some q) →
      s.runs (.crcs x) x fun t =>
        (∃ w pr, (t.copy x.key).hold = .mem ⟨.crc, (c.gAt 2).toNat, x.w.bytes, false, q, false⟩ w pr) ∧
        s.sameRegs t x ∧ (t.copy x.key).pc = c.pc ∧ s.storesNothing t x)

/-! FLA: what every instruction has in common. -/

/-- Every FLA command moves the group of its instruction on the copy that it names, and the voter then compares the tints that every
running copy has retired (R50). A copy that does not run, or that sleeps, moves no group (the model's choice,
assumption 2); where the tints that stand agree, the comparison changes nothing but the tints themselves. -/
def Obligations.FlaCommandsRunGroups : Prop :=
  ∀ (c : Instr) (s : State) (x : Ctx) (rep : Option RepKind) (i : Fla), c.fla = some (x, rep, i) →
    exec c s = .next ((s.moveGroup x i rep).voteDue x.t) ∧
    ((s.copy x.key).st ≠ .running ∨ s.sleepHeld x.t = true → s.ahead x.t = false → exec c s = .next (s.voteDue x.t)) ∧
    (∀ t, s.dueConflict t = none → ∀ k,
      (s.voteDue t).copy k = { s.copy k with tints := ((s.voteDue t).copy k).tints } ∧
      (s.voteDue t).triad k = { s.triad k with voter := ((s.voteDue t).triad k).voter, injTints := ((s.voteDue t).triad k).injTints } ∧
      s.voteDue t = { s with copies := (s.voteDue t).copies, triads := (s.voteDue t).triads })

/-- A guarded-false instruction of any kind retires as one group with no access, no register write and no execution-time fault
(R41, R109). -/
def Obligations.GuardedFalseWritesNothing : Prop :=
  ∀ (c : Instr) (s : State) (x : Ctx) (rep : Option RepKind) (i : Fla), c.fla = some (x, rep, i) → s.skips x i rep = true →
    s.runs c x fun t => s.sameRegs t x ∧ s.storesNothing t x ∧ (t.copy x.key).pc = s.nextPc x rep i ∧
      (t.copy x.key).retcnt = (s.copy x.key).retcnt + 1 ∧ (t.copy x.key).pend = (s.copy x.key).pend ∧ s.keepsRest t x

/-- An instruction of any kind that faults, with its target stack in the TCM, enters its vector in its place: the frame pushed,
FAULTADR and FAULTINF written, and no register of its own (R82, R121, R160, R162). -/
def Obligations.FaultsEnterTheirVector : Prop :=
  ∀ (c : Instr) (s : State) (x : Ctx) (rep : Option RepKind) (i : Fla) (f : FaultInfo), c.fla = some (x, rep, i) →
    s.faultsWith x i rep f →
    let p := (s.copy x.key).endShadows fun _ => false
    let tg := faultTarget p f.vec
    let sp := p.gAt (spBank tg)
    p.emerg = false → 1 ≤ f.vec → f.vec ≤ 7 → f.vec ≠ 6 → classify (sp - 16).toNat = .tcm →
    accFault p tg ⟨.frame, sp - 16, 16, false, .lit (p.crv 0 ++ p.pc : BitVec 128), true⟩ = none →
    s.runs c x fun t => enteredFrom p (t.copy x.key) f.vec tg ∧
      (t.copy x.key).crv 0x12 = infAt (s.copy x.key) f.inf ∧ (∀ a, f.adr = some a → (t.copy x.key).crv 0x11 = a)

/-! Register pages. -/

/-- The access types of every register of every page (R4, R5): what a write makes of each bit. A bit that the write does not cover,
or that no field names, keeps its value. -/
def Obligations.AccessTypes : Prop :=
  ∀ (k : PageKind) (row : RegRow) (old : Word) (w : Wr) (locked : Bool), row ∈ regsHdr ++ k.rows →
    (∀ f ∈ row.fields, ∀ b, f.lo ≤ b → b ≤ f.hi →
      (nextValue row old w locked).getLsbD b =
        if w.cover.getLsbD b = false then old.getLsbD b
        else match f.ty with
          | .rw | .rws => w.v.getLsbD b
          | .rwl => if locked then old.getLsbD b else w.v.getLsbD b
          | .w1c => old.getLsbD b && !w.v.getLsbD b
          | .w1s => old.getLsbD b || w.v.getLsbD b
          | .ro | .wo => old.getLsbD b) ∧
    (∀ b, (∀ f ∈ row.fields, ¬ (f.lo ≤ b ∧ b ≤ f.hi)) → (nextValue row old w locked).getLsbD b = old.getLsbD b)

/-- A write of 4 or 8 bytes of a plain register stores the value that its access types give, and PGGEN counts it where a counted
field changed (R5, R425); no other register changes. A write of 1 to PGLOCK locks the page (R424); one to a CLRCNT bit leaves
its page's counters 0.

What a page refuses (R7, R8, R408, R423): a nonzero write to a reserved bit of a safety or locked page changes nothing else and
sets PGERR bit 0, a write of a locked field sets bit 1 and leaves that field, a write that WARDENONLY shuts out sets bit 3; each
names its initiator and offset in PGERR and reports to the page's fault source. An access that reaches no page is a bus error and
changes only what its firewall recorded. -/
def Obligations.PageWritesAndErrors : Prop :=
  (∀ (s : State) (iid page off n : Nat) (v : Word) (k : PageKind) (i : Nat) (new : Word),
     let w := wrAt iid page off n v
     (s.reaches iid page off n v k i new → s.settled → plainReg k w.off = true →
       s.does (.registerWrite iid page off n v) fun t =>
         t.reg page w.off = new ∧ s.onlyRegs t [(page, w.off)] ∧
         (∀ row, regRow k w.off = some row → 0x100 ≤ w.off → countsWrites k = true →
           (s.reg page w.off ^^^ new) &&& countedMask row ≠ 0 →
           AMap.get t.pggen (fun _ => 0) page = AMap.get s.pggen (fun _ => 0) page + 1)) ∧
     (s.reaches iid page 0x30 8 1 k i new →
       exec (.pglockWrite iid page) s = .next (s.setReg page 0x30 new) ∧ new.getLsbD 0 = true) ∧
     (∀ b, clrcntBit k off = some b → pageKind s.dies page = some (k, i) →
       s.reaches iid page off 8 (withBits (s.reg page off) b b 1) k i new →
       (k = .eth → s.laneProto (16 + i) = 1 ∨ off < 0x200) → (k = .ddrc → bitsOf (s.reg page off) 5 2 = 0) →
       (k = .lane → s.laneProto i ≠ 3 ∧ (i < 16 → s.laneProto i ≠ 2)) →
       s.does (.clrcnt iid page off) fun t => ∀ c ∈ clearedBy k off, t.fld page c.1 c.2.1 c.2.2 = 0)) ∧
  (∀ (s u : State) (iid page off n : Nat) (v : Word) (k : PageKind) (i : Nat) (row : RegRow) (new : Word),
     let w := wrAt iid page off n v
     let open' := s.bit pgImage 0x100 0 = false ∨ wardenOnly k w.off = false ∨ iid = 0x0200
     let marked (t : State) (b : Nat) : Prop :=
       t.bit page 0x20 b = true ∧ t.fld page 0x20 63 48 = iid % 65536 ∧ t.fld page 0x20 43 32 = w.off ∧
       s.reported t (pageErrSource k i).1
     off < 0x1000 → s.settled →
       (s.pageFor iid (regAddr page off) n .store = (s, some (k, i)) → open' → s.planWrite k w = .reserved →
         s.does (.registerWrite iid page off n v) fun t => marked t 0 ∧ s.onlyRegsAndFaults t [(page, 0x20)]) ∧
       (s.pageFor iid (regAddr page off) n .store = (s, some (k, i)) → open' →
         s.planWrite k w = .go row (s.reg page w.off) new true → plainReg k w.off = true → w.off ≠ 0x20 →
         s.does (.registerWrite iid page off n v) fun t =>
           marked t 1 ∧ t.reg page w.off = new ∧ s.onlyRegsAndFaults t [(page, 0x20), (page, w.off)]) ∧
       (s.pageFor iid (regAddr page off) n .store = (s, some (k, i)) → ¬ open' →
         s.does (.registerWrite iid page off n v) fun t => marked t 3 ∧ s.onlyRegsAndFaults t [(page, 0x20)]) ∧
       (s.pageFor iid (regAddr page off) n .store = (u, none) →
         (∀ t, off = 0x100 → pageKind s.dies page = some (.triad, t) → s.regionOn (t / 4) = true) → exec (.registerWrite iid page off n v) s = .next u))

/-! The triads. -/

/-- A request that the interrupt unit of a triad accepts is stamped for its leading copy's RETCNT + 4, for B + 4 in a mordanting
pause, for RETCNT + 1 where that copy stalls in WAIT; a request of a vector that has a stamp merges into it (R62, R64). A 1 in
bit 32 + i of IRQSET requests vector 32 + i (R167). With no running copy the request is dropped.

A copy whose index has reached the delivery index of a stamp that is acceptable enters the lowest such vector, its frame in the
TCM, with no instruction of its own, unless the instruction before it belongs to slot B of the group that has just retired (R86, R161);
the stamp stands until every running copy has taken it (R64, R160, R163, R165). -/
def Obligations.InterruptsAreStampedAndEntered : Prop :=
  (∀ (s : State) (t v l iid : Nat) (new : Word),
     let d := s.triad t
     let k := (s.copy (3 * t + l)).retcnt
     (t < s.nTriads → vectorOk v = true → s.leader t = some l → s.awake t →
       exec (.interruptRequest t v) s = .next (s.stamped t v ((if d.mord = .pause then d.boundary else k) + 4))) ∧
     (t < s.nTriads → vectorOk v = true → s.leader t = some l → d.mord ≠ .pause → (d.stamps.any fun e => e.vec == v) = false →
       (∃ n, (s.copy (3 * t + l)).hold = .wait n) →
       s.does (.interruptRequest t v) fun u => (u.triad t).stamps = d.stamps ++ [⟨v, k + 1, 0, none, 3⟩]) ∧
     (s.leader t = none → exec (.interruptRequest t v) s = .next s) ∧
     (t < 64 → v < 32 → s.leader t = some l → s.awake t →
       s.reaches iid (pgTriad t) 0x168 8 (BitVec.ofNat 64 (2 ^ (32 + v))) .triad t new →
       exec (.irqsetWrite iid t (BitVec.ofNat 64 (2 ^ (32 + v)))) s =
         .next (s.stamped t (32 + v) ((if d.mord = .pause then d.boundary else k) + 4)))) ∧
  (∀ (s : State) (t c : Nat) (e : Stamp),
     let x : Ctx := { t := t, c := c }
     let p := s.copy (3 * t + c)
     let tg := stampTarget p e.vec
     let sp := p.gAt (spBank tg)
     let u := (s.fetchWindow t c p.pc.toNat).1
     let q := u.copy (3 * t + c)
     s.takesGroups x = true → s.ahead t = false → (s.fetchWindow t c p.pc.toNat).2 = true →
     (∀ y rep i, decodeFla t c (fetchAt q) = .ok y rep i → q.takesB y rep i = false) →
     u.staggerHeld t c = false → u.skewHeld t c = false → p.pend = none → p.blocked = false →
     e.vec < 64 → (dueStamps (s.triad t) c p.retcnt).any (fun f => f.vec == 6 || f.vec == 9) = false →
     lowestStamp ((dueStamps (s.triad t) c p.retcnt).filter fun f => decide (16 ≤ f.vec) && acceptable p f.vec) = some e →
     classify (sp - 16).toNat = .tcm →
     accFault p tg ⟨.frame, sp - 16, 16, false, .lit (p.crv 0 ++ p.pc : BitVec 128), true⟩ = none →
     s.runs (.exceptionEntry t c) x fun u =>
       enteredFrom p (u.copy (3 * t + c)) e.vec tg ∧
       (∀ f ∈ (u.triad t).stamps, f.vec = e.vec → bitAt f.taken c = true) ∧
       (∀ j, j / 3 ≠ t → u.copy j = s.copy j))

/-- The voter (R50): in Triple the tints of one index that are equal leave it, one that differs from two equal ones ejects its copy,
and three different ones stop the triad; in a Pair two that differ stop it. The tint of a group whose slot B is open stays (R48, R86).

A copy that has retired nothing for LAGLIM while another waits for it is ejected in Triple, for divergence kind 4, TIME having
reached that moment (R47, R51); a copy that none waits for stays. -/
def Obligations.VotingEjectsAndStops : Prop :=
  (∀ (s : State) (t a b c : Nat) (r : TintRec) (rest : List TintRec) (x y : Word),
     let p := s.copy (3 * t + c)
     let k := r.index
     let d := s.triad t
     t < s.nTriads → p.tints = r :: rest → p.tintOpen k = false → s.injArmed (pgTriad t) 3 c = false → s.quietTmi t →
     d.injTints = [] → (∀ q ∈ rest, q.index ≠ k) → (∀ q, q < 3 → q ≠ c → (s.copy (3 * t + q)).tints = []) →
       (s.running t = [0, 1, 2] → [a, b, c].Perm [0, 1, 2] → d.voter = [(a, k, x), (b, k, y)] →
         (x = y → tintValue r = x → exec (.tintArrival t c) s =
           .next ((s.setCopy (3 * t + c) { p with tints := rest }).setTriad t { d with voter := [] })) ∧
         (x = y → tintValue r ≠ x → s.does (.tintArrival t c) fun u =>
           s.ejected u t c k 0 ∧ u.copy (3 * t + a) = s.copy (3 * t + a) ∧ u.copy (3 * t + b) = s.copy (3 * t + b) ∧
           s.reported u (5 * t + c)) ∧
         (x ≠ y → tintValue r ≠ x → tintValue r ≠ y → s.does (.tintArrival t c) fun u =>
           u.stoppedFor t 1 ∧ s.reported u (5 * t + 3))) ∧
       (s.running t = [a, c] ∨ s.running t = [c, a] → d.voter = [(a, k, x)] →
         (tintValue r = x → exec (.tintArrival t c) s =
           .next ((s.setCopy (3 * t + c) { p with tints := rest }).setTriad t { d with voter := [] })) ∧
         (tintValue r ≠ x → s.does (.tintArrival t c) fun u => u.stoppedFor t 2 ∧ s.reported u (5 * t + 3))) ∧
       (∀ b, b < 3 → (s.copy (3 * t + b)).tintOpen (s.copy (3 * t + b)).retcnt.pred = true → s.tintsDue t = [] →
         ((s.copy (3 * t + b)).tints.head?.map fun q => q.index) = some (s.copy (3 * t + b)).retcnt.pred →
         exec (.tintArrival t b) s = .next s)) ∧
  (∀ (s : State) (t c : Nat),
     let p := s.copy (3 * t + c)
     let lags := (s.running t).any fun y => y != c && s.waitsFor t y c
     t < s.nTriads → c < 3 → p.st = .running → s.quietTmi t →
       (lags = true → s.running t = [0, 1, 2] → s.noTints t → s.does (.lagLimit t c) fun u =>
         (s.advance (p.lastRetire + 1000 * s.lagLimit t)).ejected u t c p.retcnt 4 ∧
         u.now = max s.now (p.lastRetire + 1000 * s.lagLimit t) ∧ s.reported u (5 * t + c)) ∧
       (lags = false → exec (.lagLimit t c) s = .next s))

/-- An access outside the copy's own TCM waits at the head for the TMI: nothing is written and the pc stands (R52, R143).

The replay buffer (R53, R71): the first copy at an index enters its load; a copy whose request is the same joins the entry; in
Triple, one that differs from two equal requests is ejected for divergence kind 2. -/
def Obligations.FabricLoadsReplay : Prop :=
  (∀ (s : State) (x : Ctx) (d a : Reg) (o : Disp),
     let c := s.copy x.key
     let b := c.rd a + dispVal o
     let waits (t : State) (k : ReqKind) (q : Quad) : Prop :=
       (∃ r w, (t.copy x.key).hold = .mem r w false ∧ r.kind = k ∧ r.addr = b.toNat ∧ r.size = x.w.bytes ∧
         (k = .store → r.data = q)) ∧
       (t.copy x.key).pc = c.pc ∧ (t.copy x.key).retcnt = c.retcnt ∧ s.sameRegs t x ∧ s.storesNothing t x ∧ s.keepsRest t x
     (s.heads x (.ld d a o) none = true → classify b.toNat ≠ .tcm → s.runs (.ld x d a o) x fun t => waits t .load 0) ∧
     (s.heads x (.st d a o) none = true → classify b.toNat ≠ .tcm →
       s.runs (.st x d a o) x fun t => waits t .store (BitVec.ofNat 128 ((c.rd d).toNat % 2 ^ x.w.bits)))) ∧
  (∀ (s : State) (t c : Nat) (r : MemReq) (w : Work) (e : Replay),
     let k := 3 * t + c
     let p := s.copy k
     let d := s.triad t
     t < s.nTriads → c < 3 → s.settled → p.st = .running → p.hold = .mem r w false → reqIsReplay r = true → d.gate = [] →
     s.stillTmi t →
       (d.replay = [] → s.does (.replayLoadRequest t c) fun u =>
         (∃ f ∈ (u.triad t).replay, f.index = p.retcnt ∧ f.ord = w.ord ∧ f.req = r ∧ f.same = [c]) ∧
         (u.copy k).hold = .mem r w true ∧ (u.copy k).retcnt = p.retcnt) ∧
       (d.replay = [e] → e.index = p.retcnt → e.ord = w.ord → e.todo = [] → e.result = none → e.got = [] → e.dissent = none →
         (e.req = r → exec (.replayLoadRequest t c) s =
           .next ((s.setCopy k { p with hold := .mem r w true }).setTriad t
             { d with replay := [{ e with same := e.same ++ [c] }] })) ∧
         (e.req ≠ r → e.orphan = false → 2 ≤ e.same.length → s.running t = [0, 1, 2] → s.noTints t →
           s.does (.replayLoadRequest t c) fun u => s.ejected u t c p.retcnt 2 ∧ s.reported u (5 * t + c))))

/-- The output gate (R52, R55): the first copy's request is held and nothing leaves the triad; once a second running copy presents the
same store of region SRAM at the same index, it is released, takes a tag, and goes to the region's port as one request.

A response reaches the TMI (R56, R69, R256): a device load's ends the wait of its copy, whose register takes the bytes; one whose
entry is gone is dropped; one under a tag that is not outstanding is a protocol fault. -/
def Obligations.OutputGate : Prop :=
  (∀ (s : State) (t c a n tag : Nat) (r : MemReq) (w : Work) (e : Gate),
     let k := 3 * t + c
     let p := s.copy k
     let d := s.triad t
     t < s.nTriads → c < 3 → s.settled → p.st = .running → p.hold = .mem r w false → reqIsReplay r = false → d.replay = [] →
     s.stillTmi t →
       (d.gate = [] → s.does (.gatedRequest t c) fun u =>
         (∃ g, (u.triad t).gate = [g] ∧ g.index = p.retcnt ∧ g.ord = w.ord ∧ g.reqs = [(c, r)] ∧ g.released = false) ∧
         (u.copy k).hold = .mem r w true ∧ u.resps = s.resps ∧ u.tags = s.tags ∧ u.port = s.port ∧ u.ddrQ = s.ddrQ ∧
         u.vmeIn = s.vmeIn ∧ u.out = s.out) ∧
       (d.gate = [e] → e.index = p.retcnt → e.ord = w.ord → e.reqs = [(a, r)] → a ≠ c → e.released = false → e.tag = none →
         e.resp = none → r.kind = .store → r.split = false → classify r.addr = .sram n → s.regionOn n = true →
         s.bridgeCuts t (.sram n) = false → s.fwDenies n t (fwNeed .store) r.addr r.size = none →
         s.copyTag t (min a c) = some tag → a < 3 →
         s.does (.gatedRequest t c) fun u =>
           (∃ g ∈ (u.triad t).gate, g.index = p.retcnt ∧ g.released = true ∧ g.tag = some (tag, 0)) ∧
           u.portOf n = s.portOf n ++ [⟨t, .store, r.addr, r.size, r.data, r.flag, .tmi t tag, tag, s.fwGen n⟩] ∧
           u.tags = s.tags ++ [⟨tag, s.now, .tmi t tag, some (n, s.fwGen n)⟩])) ∧
  (∀ (s : State) (t tag : Nat) (q : Quad) (resp : Resp) (x : Ctx) (d' a : Reg) (o : Disp) (r : MemReq) (e : Gate),
     let d := s.triad t
     let c := s.copy x.key
     let i := Fla.ld d' a o
     t < s.nTriads → s.settled → s.tintsDue t = [] → s.ahead t = false →
       (s.resps.find? (forTmi t) = some (.tmi t tag, resp) → s.quietTmi t → (s.tags.any fun u => u.tag == tag && u.origin == .tmi t tag) →
         exec (.tmiResponse t) s = .next { s with
           resps := s.resps.erase (.tmi t tag, resp), tags := s.tags.filter fun u => u.tag != tag }) ∧
       (s.resps.find? (forTmi t) = some (.tmi t tag, resp) → s.quietTmi t →
         (s.tags.any fun u => u.tag == tag && u.origin == .tmi t tag) = false →
         s.does (.tmiResponse t) fun u => u.resps = s.resps.erase (.tmi t tag, resp) ∧ s.reported u 0x1EE) ∧
       (s.resps.find? (forTmi t) = some (.tmi t tag, .ok q) → (s.tags.any fun u => u.tag == tag && u.origin == .tmi t tag) →
         x.t = t → x.c < 3 → c.st = .running → c.hold = .mem r (.instr x i none [] []) true → s.held t x.c = false →
         (∀ b, b < 3 → b ≠ x.c → (s.copy (3 * t + b)).hold = .none) → s.noTints t → reqIsReplay r = false → r.split = false → r.size = x.w.bytes →
         reqParts r = [(r.addr, r.size, 0)] → d.replay = [] → d.gate = [e] → e.index = c.retcnt → e.ord = 0 → e.agreed = some r →
         e.reqs.contains (x.c, r) = true → e.got = [] → e.released = true → e.tag = some (tag, 0) → e.todo = [] → e.resp = none →
         e.bad = none → e.acc = 0 →
         s.does (.tmiResponse t) fun u =>
           (u.copy x.key).hold = .none ∧ (u.copy x.key).retcnt = c.retcnt + 1 ∧ (u.copy x.key).pc = s.nextPc x none i ∧
           (∀ n, (u.copy x.key).gAt n =
             if n = c.slotOf d' then BitVec.ofNat 64 (q.toNat % 2 ^ x.w.bits) else c.gAt n) ∧
           (u.copy x.key).preds = c.preds))

/-- The step monitor (R94): a block's average and the highest one stand in STEPMON; one above the worst-case step of the level
reports. While the service port is free the scrubber steps through the TCM and has corrected words written back, after which they read
without error (R221, R223). -/
def Obligations.MonitorAndScrub : Prop :=
  ∀ (s : State) (t c avg wa : Nat) (v : Word) (rest : List Nat),
    let k := 3 * t + c
    let p := s.copy k
    let pg := pgCore k
    let lim := s.fld pg 0x118 15 0
    let awake := s.powerState t ≠ 5 ∧ s.powerState t ≠ 6
    t < s.nTriads → c < 3 →
      (p.st = .running → awake → s.does (.stepBlockEnd t c avg) fun u =>
        u.fld pg 0x110 47 32 = min avg 65535 ∧ u.fld pg 0x110 63 48 = max (s.fld pg 0x110 63 48) (min avg 65535) ∧
        (s.stepBound t < avg → s.reported u (5 * t + 4)) ∧
        (avg ≤ s.stepBound t → lim = 0 ∨ avg ≤ lim → s.onlyRegs u [(pg, 0x110)]) ∧
        (lim ≠ 0 → lim < avg → u.fcol.head = (s.fcol.head + 1) % 2 ^ 32)) ∧
      (p.st ≠ .running ∨ ¬ awake → exec (.stepBlockEnd t c avg) s = .next s) ∧
      (s.tcmPowered t c = true → awake → s.servicePort t c = false → p.tcm.readWord p.scrubPos 0 = .good v →
        exec (.tcmScrub t c) s = .next (s.setCopy k { p with scrubPos := (p.scrubPos + 1) % 16384 })) ∧
      (s.tcmPowered t c = true → awake → s.servicePort t c = false → p.tcm.readWord p.scrubPos 0 = .fixed v → s.does (.tcmScrub t c) fun u =>
        (u.copy k).scrubPos = (p.scrubPos + 1) % 16384 ∧ p.scrubPos ∈ (u.copy k).writeBack ∧ (u.copy k).tcm = p.tcm ∧
        u.bit pg 0x148 48 = true ∧ s.reported u (0x140 + 6 * (t / 4))) ∧
      (s.tcmPowered t c = true → awake → s.servicePort t c = false → p.tcm.readWord p.scrubPos 0 = .bad →
        s.running t = [0, 1, 2] → s.quietTmi t → s.noTints t → s.does (.tcmScrub t c) fun u => s.ejected u t c p.retcnt 3) ∧
      (s.servicePort t c = true → exec (.tcmScrub t c) s = .next s ∧ exec (.tcmWriteBack t c) s = .next s) ∧
      (s.tcmPowered t c = true → s.powerState t ≠ 6 → s.servicePort t c = false → p.writeBack = wa :: rest → p.tcm.readWord wa 0 = .fixed v →
        s.does (.tcmWriteBack t c) fun u =>
          u = s.setCopy k { p with writeBack := rest, tcm := p.tcm.setWord wa v } ∧ (u.copy k).tcm.readWord wa 0 = .good v)

/-- Mordanting (R74 to R78): a round copies the source's TCM, corrected, and goes on to the next or to awaiting the pause; the pause
begins where both pair copies stand together; its end makes the returning copy the source's equal and the triad Triple; a check
error or MORDTMO abandons it. -/
def Obligations.MordantingProceeds : Prop :=
  ∀ (s : State) (t a b : Nat),
    let d := s.triad t
    let k := 3 * t + d.mordCopy
    let src := s.copy (3 * t + a)
    let n := d.dirty.length
    let round := s.fld (pgTriad t) 0x170 11 8
    let last := n ≤ s.fld (pgTriad t) 0x178 23 20 ∨ 8 ≤ round
    let failed (u : State) : Prop :=
      (u.triad t).mord = .abandoned ∧ u.fld (pgTriad t) 0x170 55 53 = 2 ∧ (u.copy k).st ≠ .mordanting ∧ s.reported u (5 * t + 4)
    let waits (c : Copy) : Prop := ∃ len, c.hold = .wait len
    t < s.nTriads →
      (d.mord = .rounds → s.mordSource t = some a → badTcm src.tcm = none → s.does (.mordantingRoundEnd t true) fun u =>
        (u.copy k).tcm = cleanTcm src.tcm ∧ u.fld (pgTriad t) 0x170 21 12 = n % 1024 ∧
        (last → (u.triad t).mord = .awaiting ∧ (∀ l, s.leader t = some l → (u.triad t).boundary = (s.copy (3 * t + l)).retcnt)) ∧
        (¬ last → (u.triad t).mord = .rounds ∧ (u.triad t).dirty = [] ∧ u.fld (pgTriad t) 0x170 11 8 = round + 1)) ∧
      (d.mord = .rounds → s.mordSource t = some a → s.does (.mordantingRoundEnd t false) failed) ∧
      (d.mord = .awaiting → s.running t = [a, b] → tintConflict (s.tintsOf t a) (s.tintsOf t b) = none →
        (if s.pauseAt t then src.retcnt = d.boundary ∧ (s.copy (3 * t + b)).retcnt = d.boundary ∧ src.slotA = none ∧
            (s.copy (3 * t + b)).slotA = none
          else waits src ∧ waits (s.copy (3 * t + b)) ∧ src.retcnt = (s.copy (3 * t + b)).retcnt ∧ s.openRun t = false) →
        s.does (.mordantingPause t) fun u =>
          u.triad t = { d with mord := .pause, boundary := src.retcnt, mordSince := s.now, voter := [], injTints := [] } ∧
          u.copy (3 * t + a) = { src with tints := [] } ∧
          u.copy (3 * t + b) = { s.copy (3 * t + b) with tints := [] }) ∧
      (d.mord = .pause → s.mordSource t = some a → badTcm src.tcm = none → d.stamps = [] → a ≠ d.mordCopy →
        s.does (.mordantingComplete t true) fun u =>
          u.copy k = (s.copy k).returning src s.now ∧ (u.triad t).mode = 1 ∧ (u.triad t).mord = .completed ∧
          (∀ j, j ≠ k → u.copy j = s.copy j) ∧ u.fcol.head = (s.fcol.head + 1) % 2 ^ 32 ∧
          (d.afterEject.contains d.mordCopy = true →
            AMap.get (u.triad t).readm (fun _ => []) d.mordCopy = (s.now :: AMap.get d.readm (fun _ => []) d.mordCopy).take 3)) ∧
      (d.mord = .pause → s.mordSource t = some a → s.does (.mordantingComplete t false) failed) ∧
      (d.mord = .awaiting → s.does (.mordtmoExpiry t) fun u =>
        (u.triad t).mord = .abandoned ∧ u.fld (pgTriad t) 0x170 55 53 = 3 ∧
        u.now = max s.now (d.mordSince + s.fld (pgTriad t) 0x178 15 0 * 1000000) ∧
        u.fcol.head = (s.fcol.head + 1) % 2 ^ 32) ∧
      (d.mord ≠ .awaiting → exec (.mordtmoExpiry t) s = .next s)

/-- TMODE (R68): an unstarted triad of a table that does not use it starts at the start vector, stops, drops a copy, takes one back by
mordanting, powers on and off; a transition that has no row is refused whole with TSTAT.REFUSE, and so is any but Out while mordanting
runs (R77). Power-on in a region that is off receives a domain-off response (R351), and PWR reports its refusal (R15, R350; DEDUCED,
assumption 80). -/
def Obligations.ModeTransitions : Prop :=
  ∀ (s : State) (iid t v c : Nat) (new : Word),
    let d := s.triad t
    let w := BitVec.ofNat 64 v
    let cmd := Instr.tmodeWrite iid t w
    (t < s.nTriads → s.regionOn (t / 4) = false → s.openSlot iid = true → s.bridgeCuts iid (.page (pgTriad t)) = false → v = 5 →
      s.settled → s.does cmd fun u => u.bit pgPwr 0x108 20 = true ∧ u.bit pgPwr 0x150 2 = true ∧ u.switching = s.switching ∧
        (u.triad t).mode = d.mode ∧ (s.bit pgPwr 0x148 2 = false → s.onlyRegs u [(pgPwr, 0x108), (pgPwr, 0x150)])) ∧
    (t < s.nTriads → v < 8 → s.reaches iid (pgTriad t) 0x100 8 w .triad t new → d.entry = 0 →
    s.powerState t ≠ 5 → s.powerState t ≠ 6 →
      (v = d.mode → exec cmd s = .next s) ∧
      (v = 6 ∨ v = 7 → v ≠ d.mode → exec cmd s = .next (s.setFld (pgTriad t) 0x110 16 16 1)) ∧
      ((d.isolated || s.bit (pgFwall (t / 4)) 0x108 0 || s.bit pgBist 0x128 t) = true → v ≠ 0 → v ≠ d.mode →
        exec cmd s = .next (s.setFld (pgTriad t) 0x110 16 16 1)) ∧
      ((d.isolated || s.bit (pgFwall (t / 4)) 0x108 0 || s.bit pgBist 0x128 t) = false →
        (d.mode = 5 → isRunMode v = true → (∀ c, c < 3 → s.isRetired t c = false) → s.does cmd fun u =>
          (u.triad t).mode = v ∧ ∀ c ∈ modeLetters v, (u.copy (3 * t + c)).st = .running ∧ (u.copy (3 * t + c)).pc = 0 ∧
            (u.copy (3 * t + c)).retcnt = 0 ∧ (u.copy (3 * t + c)).tcm = (s.copy (3 * t + c)).tcm) ∧
        (isRunMode d.mode = true → v = 5 → s.does cmd fun u => u.stoppedFor t 6) ∧
        (d.mode = 1 → isRunMode v = true → v ≠ 1 → d.mordBusy = false → s.quietTmi t → d.voter = [] → s.does cmd fun u =>
          (u.triad t).mode = v ∧ (u.copy (3 * t + thirdOf v)).st = .out ∧
          ∀ c ∈ modeLetters v, u.copy (3 * t + c) = s.copy (3 * t + c)) ∧
        (isRunMode d.mode = true → d.mode ≠ 1 → v = 1 → d.mordBusy = false → s.mordOk t (thirdOf d.mode) = true →
          s.does cmd fun u => (u.triad t).mord = .rounds ∧ (u.triad t).mordCopy = thirdOf d.mode ∧
            (u.copy (3 * t + thirdOf d.mode)).st = .mordanting ∧ u.fld (pgTriad t) 0x170 11 8 = 1) ∧
        (d.mode = 0 → v = 5 → s.regionOn (t / 4) = true → s.tableUses t = false → AMap.find? s.switching t = none →
          s.does cmd fun u => AMap.find? u.switching t = some true ∧ u.powerState t = 1) ∧
        (d.mode = 0 → v = 5 → s.regionOn (t / 4) = true → s.tableUses t = true →
          exec cmd s = .next (s.setFld (pgTriad t) 0x110 16 16 1)) ∧
        (isRunMode d.mode = true → d.mordBusy = true → v ≠ 5 → v ≠ d.mode →
          exec cmd s = .next (s.setFld (pgTriad t) 0x110 16 16 1)) ∧
        (d.mode = 5 → v = 0 → s.tableUses t = false → AMap.find? s.switching t = none → s.does cmd fun u =>
          AMap.find? u.switching t = some false ∧ u.powerState t = 8 ∧ (u.triad t).mode = 0 ∧
          (c < 3 → u.copy (3 * t + c) = Copy.off))))

/-- Writes of a triad's and a copy's registers: TCFG and RADM take values in their ranges and refuse others whole with
TSTAT.REFUSE (R46, R79), TCFG every value while mordanting runs (R77); CCTL.CLRMON clears STEPMON (R94). -/
def Obligations.TriadRegisterWrites : Prop :=
  ∀ (s : State) (iid t key : Nat) (v new : Word),
    let st := bitsOf new 5 0
    let sk := bitsOf new 26 16
    let ok := 2 ≤ st ∧ 2 * st + 1 ≤ sk ∧ sk ≤ 1024 ∧ bitsOf new 47 32 ≠ 0
    let moved := s.stagger t ≠ st ∨ s.skew t ≠ sk
    let m := (s.triad t).mode
    let win := bitsOf new 16 0
    (t < 64 → s.reaches iid (pgTriad t) 0x108 8 v .triad t new →
      (ok → (¬ moved ∨ m = 0 ∨ m = 5) → (s.triad t).mordBusy = false →
        s.does (.tcfgWrite iid t v) fun u => u.reg (pgTriad t) 0x108 = new ∧ s.onlyRegs u [(pgTriad t, 0x108)]) ∧
      (¬ ok ∨ moved ∧ m ≠ 0 ∧ m ≠ 5 ∨ (s.triad t).mordBusy = true →
        exec (.tcfgWrite iid t v) s = .next (s.setFld (pgTriad t) 0x110 16 16 1))) ∧
    (t < 64 → s.reaches iid (pgTriad t) 0x180 8 v .triad t new →
      (1 ≤ win → win ≤ 86400 →
        s.does (.radmwinWrite iid t v) fun u => u.reg (pgTriad t) 0x180 = new ∧ s.onlyRegs u [(pgTriad t, 0x180)]) ∧
      (win = 0 ∨ 86400 < win → exec (.radmwinWrite iid t v) s = .next (s.setFld (pgTriad t) 0x110 16 16 1))) ∧
    (key < 192 → s.reaches iid (pgCore key) 0x140 8 2 .core key new →
      exec (.clrmon iid key) s = .next (s.setReg (pgCore key) 0x110 0))

/-! The timebase, the schedule engines and the table loads. -/

/-- Frames and sources of TIME (R179 to R183): a frame follows the one before by FRAMELEN, numbered one higher, and gives every job
that it selects a new run; an alarm requests its vector and is disarmed or moves past TIME; a change of source waits for lock,
and sources 1 and 2 are refused on a board without crystal and reference clock (R435); a source that fails leaves the internal
oscillator in use. -/
def Obligations.FramesAndSources : Prop :=
  ∀ (s : State) (iid n v j tk l : Nat) (jr : JobRec) (new : Word),
    let tb := s.timeB
    let len := hdrFrameLen tb.active * 10
    let src := s.fld pgTime 0x108 1 0
    let ctl := pgTime
    let tg := s.fld pgTime (0x180 + 8 * n) 13 8
    let due := (s.reg pgTime (0x160 + 8 * n)).toNat
    let per := s.fld pgTime (0x180 + 8 * n) 63 32
    (tb.actGen ≠ 0 → tb.armed = false → s.settled → s.frameDone → s.does .frameStart fun u =>
      u.timeB = { tb with time := max tb.time (tb.frameStart + len), frameNo := tb.frameNo + 1, frameStart := tb.frameStart + len } ∧
      (n < s.nRegions → (s.engine n).state = 1 → (s.engine n).resume = false → (j, jr) ∈ jobs (s.engine n).active →
        u.relTick jr = some tk → (u.engine n).run j = newRun (tb.frameNo + 1) tk jr.isCopy) ∧
      (s.fld pgFcol 0x118 2 0 ≠ 2 → u.regs = s.regs)) ∧
    (tb.actGen = 0 → tb.armed = false → s.settled → exec .frameStart s = .next s) ∧
    (n < 4 → s.bit pgTime (0x180 + 8 * n) 0 = true → s.leader tg = some l → s.wakeEnabled 2 n = false →
      s.does (.alarmFire n) fun u => u.now = max s.now due ∧ (∃ e ∈ (u.triad tg).stamps, e.vec = 18 + n) ∧
        (per = 0 → u.bit pgTime (0x180 + 8 * n) 0 = false) ∧
        (per ≠ 0 → u.reg pgTime (0x160 + 8 * n) = BitVec.ofNat 64 (due + ((max s.now due - due) / per + 1) * per))) ∧
    (s.bit pgTime (0x180 + 8 * n) 0 = false → exec (.alarmFire n) s = .next s) ∧
    (v < 4 → s.reaches iid ctl 0x100 8 (withBits (s.reg ctl 0x100) 1 0 v) .timebase 0 new → s.xtal = false → v = 1 ∨ v = 2 →
      exec (.srcWrite iid v) s = .next s) ∧
    (v < 4 → s.reaches iid ctl 0x100 8 (withBits (s.reg ctl 0x100) 1 0 v) .timebase 0 new → s.xtal = true ∨ v = 0 ∨ v = 3 →
      s.does (.srcWrite iid v) fun u =>
      u.timeB = { tb with pendSrc := if v = src then none else some v } ∧ u.fld pgTime 0x108 1 0 = src ∧
      u.bit pgTime 0x108 3 = decide (v ≠ src) ∧ (v ≠ src → u.bit pgTime 0x108 2 = false)) ∧
    (tb.pendSrc = none → exec .sourceLock s = .next (s.setFld pgTime 0x108 2 2 1)) ∧
    (tb.pendSrc = some v → s.does .sourceLock fun u => u.timeB = { tb with pendSrc := none } ∧
      u.fld pgTime 0x108 1 0 = v % 4 ∧ u.fld pgTime 0x108 4 2 = 1 ∧ s.onlyRegs { u with timeB := tb } [(pgTime, 0x108)]) ∧
    (src = 0 → exec .sourceFailure s = .next s) ∧
    (src ≠ 0 → s.does .sourceFailure fun u => u.fld pgTime 0x108 1 0 = 0 ∧ u.bit pgTime 0x108 2 = false ∧
      u.bit pgTime 0x108 4 = false ∧ s.reported u 0x1ED ∧ s.onlyRegsAndFaults u [(pgTime, 0x108)]) ∧
    (src ≠ 2 → exec .ppsinEdge s = .next s) ∧
    (src = 2 → s.does .ppsinEdge fun u => u = { s with timeB := u.timeB } ∧ u.timeB.ppsAcc = 0 ∧ u.now = s.now ∧
      ((s.now + u.timeB.ppsGain) % 1000000000 = u.timeB.ppsLose ∧ (u.timeB.ppsGain = 0 ∨ u.timeB.ppsLose = 0)))

/-- Table loads and the switch (R211, R212, R214, R452): TBLDATA goes to the inactive bank at OFFSET, which moves on, and cancels an
armed switch; TBLCHK records its result; SWFRAME arms the switch or cancels it at once; at the due frame the banks change; SCTL.EN
stops an engine at once and resumes it at the next frame. -/
def Obligations.TablesAreLoadedAndSwitched : Prop :=
  ∀ (s : State) (iid n : Nat) (v new : Word) (f : ChkFail),
    let tb := s.timeB
    let p := pgSched n
    let o := s.fld p 0x110 15 3
    let cleared := s.enginePages.foldl (fun s p => s.setChk p 0 0) s
    let en := withBits (s.reg p 0x100) 0 0
    (s.reaches iid p 0x118 8 v .sched n new → s.svc.op = none → s.does (.tbldataWrite iid p v) fun u =>
      (u.engine n).inactive = bankPut (s.engine n).inactive o v ∧ (u.engine n).active = (s.engine n).active ∧
      u.fld p 0x110 15 3 = (o + 1) % 8192 ∧ u.timeB.checked = none ∧ u.timeB.armed = false ∧
      (tb.armed = true → u.fld pgTime 0x158 2 0 = 4 ∧ u.fld pgTime 0x158 15 8 = 4)) ∧
    (s.reaches iid pgTime 0x138 8 v .timebase 0 new → s.svc.op = none → s.does (.tbldataWrite iid pgTime v) fun u =>
      u.timeB.inactive = bankPut tb.inactive (s.fld pgTime 0x130 15 3) v ∧ u.timeB.active = tb.active ∧
      u.fld pgTime 0x130 15 3 = (s.fld pgTime 0x130 15 3 + 1) % 8192 ∧ u.timeB.checked = none ∧ u.timeB.armed = false) ∧
    (s.reaches iid pgTime 0x140 8 1 .timebase 0 new → cleared.tableCheck = none → s.does (.tblchk iid) fun u =>
      u.timeB.checked = some (hdrGen tb.inactive) ∧ u.fld pgTime 0x158 23 16 = 0 ∧
      (tb.armed = false → u.fld pgTime 0x158 2 0 = 1)) ∧
    (s.reaches iid pgTime 0x140 8 1 .timebase 0 new → cleared.tableCheck = some f → s.does (.tblchk iid) fun u =>
      u.timeB.checked = none ∧ u.fld pgTime 0x158 23 16 = f.code % 256 ∧ (tb.armed = false → u.fld pgTime 0x158 2 0 = 0)) ∧
    (s.reaches iid pgTime 0x150 8 v .timebase 0 new → s.svc.op = none → s.does (.swframeWrite iid v) fun u =>
      u.reg pgTime 0x150 = new ∧
      (if tb.actGen = 0 ∧ tb.checked ≠ some (s.reg pgTime 0x148) then
          u.timeB.armed = false ∧ u.fld pgTime 0x158 2 0 = 4 ∧ u.fld pgTime 0x158 15 8 = 1
        else if tb.actGen ≠ 0 ∧ new.toNat ≤ tb.frameNo then
          u.timeB.armed = false ∧ u.fld pgTime 0x158 2 0 = 4 ∧ u.fld pgTime 0x158 15 8 = 3
        else u.timeB.armed = true ∧ u.fld pgTime 0x158 2 0 = 2)) ∧
    (tb.actGen ≠ 0 → tb.armed = true → (s.reg pgTime 0x150).toNat = tb.frameNo + 1 → s.checkedForGen = true → s.settled →
      s.frameDone → (tb.frameNo + 1 - tb.firstFrame) % hdrCycle tb.active = 0 → s.precOk = true → s.does .frameStart fun u =>
        u.timeB.active = tb.inactive ∧ u.timeB.inactive = tb.active ∧ u.timeB.actGen = s.reg pgTime 0x148 ∧
        u.timeB.armed = false ∧ u.timeB.firstFrame = tb.frameNo + 1 ∧ u.fld pgTime 0x158 2 0 = 3 ∧
        (n < s.nRegions → s.bit pgPwr 0x138 n = true →
          (u.engine n).active = (s.engine n).inactive ∧ (u.engine n).inactive = (s.engine n).active)) ∧
    (tb.actGen ≠ 0 → tb.armed = true → (s.reg pgTime 0x150).toNat = tb.frameNo + 1 → s.checkedForGen = false → s.settled →
      s.frameDone → s.does .frameStart fun u => u.timeB.active = tb.active ∧ u.timeB.armed = false ∧ u.fld pgTime 0x158 2 0 = 4 ∧
        u.fld pgTime 0x158 15 8 = 1) ∧
    (n < 16 → s.bit p 0x100 0 = true → s.reaches iid p 0x100 8 (en 0) .sched n new → (s.engine n).state = 1 →
      s.does (.sctlEnWrite iid n false) fun u => u.engine n = { s.engine n with state := 3, resume := false } ∧
        u.bit p 0x100 0 = false) ∧
    (n < 16 → s.bit p 0x100 0 = false → s.reaches iid p 0x100 8 (en 1) .sched n new → (s.engine n).state = 3 →
      s.does (.sctlEnWrite iid n true) fun u => u.engine n = { s.engine n with resume := true } ∧ u.bit p 0x100 0 = true)

/-- Runs (R184 to R189): a RELEASE slot releases its job with vector 16 and the job registers, or loses the run with the cause of the
first condition of R184 that fails; DONE completes it before its deadline has passed; the end of tick DEADLINE or SPAREDL loses it with vector 17; a lost run stays
open until its stop is acknowledged; a DONE store with no open run is a stray. What the engine's order puts before a slot happens before it (R188): the
statements are of slots with nothing before them, and the last clause of one with one event before it. -/
def Obligations.RunsAreReleasedAndEnd : Prop :=
  ∀ (s : State) (n i j l iid job : Nat) (r : SlotRec) (o : OpenRun) (new : Word),
    let e := s.engine n
    let jr := jobRec e.active r.index
    let run := e.run r.index
    let frame := s.timeB.frameNo
    let stale := run.stale || s.inputsStale n jr.job
    let later (u : State) (tick : Nat) : Prop := u.now = max s.now (s.tickTime tick)
    let p := pgSched n
    let endOf (x : JobRec) : Nat := if x.isCopy then x.spareDl else x.deadline
    let done (k : Nat) := BitVec.ofNat 64 (job % 4096 * 2 ^ 32 + k)
    let lostAs (u : State) (j st c : Nat) : Prop :=
      ((u.engine n).run j).state = st ∧ ((u.engine n).run j).cause = c ∧ u.reg p 0x148 = s.reg p 0x148 + 1
    n < s.nRegions →
      (s.slotDue n i 2 = some r → s.foremost n (.slot 2 i) → run.state = 1 → jr.isCopy = false → s.releaseCause n jr.triad jr.job = 0 →
        s.leader jr.triad = some l → s.settled → s.does (.release n i) fun u =>
          (u.engine n).run r.index = { run with state := 2, stale := stale } ∧
          (u.engine n).openOf jr.triad = some ⟨jr.job, r.index, run.frame, false⟩ ∧
          (∃ x ∈ (u.triad jr.triad).stamps, x.vec = 16 ∧ x.job = some (jobId run.frame false stale jr.job jr.entry,
            jobWindow jr.inBase jr.inLen, jobWindow jr.outBase jr.outLen)) ∧
          u.reg p 0x140 = s.reg p 0x140 + 1 ∧ later u r.time ∧ (u.engine n).acted = e.acted ++ [i]) ∧
      (s.slotDue n i 2 = some r → s.foremost n (.slot 2 i) → run.state = 1 → jr.isCopy = false → s.releaseCause n jr.triad jr.job ≠ 0 →
        s.settled → s.does (.release n i) fun u =>
          lostAs u r.index 4 (s.releaseCause n jr.triad jr.job) ∧ later u r.time ∧
          (jr.spare ≠ 0xFF → u.notices = s.notices ++ [⟨.loss, jr.spare / 4, jr.job, frame⟩])) ∧
      (s.engineRuns n = true → s.foremost n (.deadline false j) → s.settled → (jobRec e.active j).isCopy = false → (e.run j).state = 2 →
        e.openOf (jobRec e.active j).triad = some o → s.leader (jobRec e.active j).triad = some l →
        s.does (.deadlineEnd n j) fun u =>
          lostAs u j 4 1 ∧ later u ((jobRec e.active j).deadline + 1) ∧
          (u.engine n).openOf (jobRec e.active j).triad = some { o with lost := true } ∧
          ∃ x ∈ (u.triad (jobRec e.active j).triad).stamps, x.vec = 17) ∧
      (s.engineRuns n = true → s.foremost n (.deadline true j) → s.settled → (jobRec e.active j).isCopy = true → (e.run j).state = 8 →
        e.openOf (jobRec e.active j).spare = some o → s.leader (jobRec e.active j).spare = some l →
        s.does (.sparedlEnd n j) fun u =>
          lostAs u j 10 1 ∧ later u ((jobRec e.active j).spareDl + 1) ∧
          (u.engine n).openOf (jobRec e.active j).spare = some { o with lost := true } ∧
          ∃ x ∈ (u.triad (jobRec e.active j).spare).stamps, x.vec = 17) ∧
      (s.reaches iid p 0x120 8 (done 0) .sched n new → s.engineRuns n = true → e.openOf iid = some o → o.lost = false →
        o.job = job % 4096 → iid / 4 = n → (o.frame = frame → s.now < s.tickTime (endOf (jobRec e.active o.rec') + 1)) →
        s.does (.doneComplete iid n job) fun u =>
          ((u.engine n).run o.rec').state = (if (jobRec e.active o.rec').isCopy then 9 else 3) ∧
          ((u.engine n).run o.rec').ok = true ∧ (u.engine n).openOf iid = none ∧
          ((jobRec e.active o.rec').isCopy = false → (jobRec e.active o.rec').spare ≠ 0xFF →
            u.notices = s.notices ++ [⟨.completion, (jobRec e.active o.rec').spare / 4, (jobRec e.active o.rec').job, frame⟩])) ∧
      (s.reaches iid p 0x120 8 (done 0) .sched n new → s.engineRuns n = true → e.openOf iid = none →
        s.does (.doneComplete iid n job) fun u =>
          u.reg p 0x168 = s.reg p 0x168 + 1 ∧ u.engines = s.engines ∧ u.fcol.head = (s.fcol.head + 1) % 2 ^ 32) ∧
      (s.reaches iid p 0x120 8 (done 1) .sched n new → s.engineRuns n = true → e.openOf iid = some o → o.lost = true →
        o.job = job % 4096 → iid / 4 = n → s.does (.doneStopAck iid n job) fun u =>
          (u.engine n).openOf iid = none ∧ (u.engine n).runs = e.runs) ∧
      (∀ key x ev, firstEvent (s.tickEvents n true) = some (x, ev) → ((key, TickEvent.slot 2 i) ∈ s.tickEvents n true) →
        (∀ y, (y, TickEvent.slot 2 i) ∈ s.tickEvents n true → y = key) → x < key →
        firstEvent ((s.tickDo n ev).tickEvents n true) = some (key, .slot 2 i) →
        exec (.release n i) s = .next ((s.tickDo n ev).releaseSlot n i).settle)

/-- Notices and takeover (R189, R194 to R196): a completion notice ends the spare's watch; a loss notice, or none by DEADLINE + 100,
has the spare engine take the run over, own its commits and tell the primary engine, which hands the run over; the re-run moves
follow one another, and after the last the spare run is released, or lost where it is too late. -/
def Obligations.SpareEnginesTakeOver : Prop :=
  ∀ (s s1 : State) (n j l : Nat) (x : Notice) (m : MoveRun),
    let e := s.engine n
    let jr := jobRec e.active j
    let r := e.run j
    let taken (u : State) : Prop :=
      ((u.engine n).run j).own = true ∧ ∃ y ∈ u.notices, y.kind = .takeover ∧ y.dst = jr.triad / 4 ∧ y.job = jr.job
    let k := jr.moveFirst + r.nextMove
    n < s.nRegions →
      (s.takeNotice .completion n = some (x, s1) → s1.watching n x = some j →
        exec (.completionNotice n) s = .next (s1.setEngine n (e.setRun j { r with state := 0 }))) ∧
      (s.takeNotice .completion n = some (x, s1) → s1.watching n x = none → exec (.completionNotice n) s = .next s1) ∧
      (s.takeNotice .takeover n = some (x, s1) → e.recOf x.job false = some j → s.engineRuns n = true → r.frame = x.frame →
        exec (.takeoverNotice n) s = .next (s1.setEngine n
          (e.setRun j { r with handed := true, state := if r.state = 4 then 5 else r.state }))) ∧
      (s.takeNotice .loss n = some (x, s1) → s1.watching n x = some j → s.settled → jr.moveCnt = 0 → s.does (.lossNotice n) fun u =>
        taken u ∧
        (jr.spareLat < s.tickNow → ((u.engine n).run j).state = 10) ∧
        (s.tickNow ≤ jr.spareLat → s.tickNow < jr.spareDl → s.releaseCause n jr.spare jr.job = 0 → s.leader jr.spare = some l →
          jr.isCopy = true → ((u.engine n).run j).state = 8 ∧ ∃ y ∈ (u.triad jr.spare).stamps, y.vec = 16)) ∧
      (s.engineRuns n = true → r.state = 6 → s.foremost n (.watch j) → s.settled → jr.moveCnt = 0 → s.does (.noticeTimeout n j) fun u =>
        taken u ∧ u.now = max s.now (s.tickTime (jr.deadline + 100))) ∧
      (s.engineRuns n = true → r.state = 7 → s.foremost n (.rerun j) → e.work false k = some m → m.rerun = some j → m.st = 1 → s.settled →
        r.nextMove + 1 = jr.moveCnt → jr.isCopy = true → s.does (.rerunMoveEnd n j) fun u =>
          (jr.spareDl ≤ s.tickNow → ((u.engine n).run j).state = 10 ∧ ((u.engine n).run j).cause = 1) ∧
          (s.tickNow < jr.spareDl → s.releaseCause n jr.spare jr.job = 0 → s.leader jr.spare = some l →
            ((u.engine n).run j).state = 8 ∧ ∃ y ∈ (u.triad jr.spare).stamps, y.vec = 16)) ∧
      (s.engineRuns n = true → r.state = 7 → s.foremost n (.rerun j) → e.work false k = some m → m.rerun = some j → m.st = 2 → s.settled →
        (moveRec e.active k).required = true → jr.isCopy = true → s.does (.rerunMoveEnd n j) fun u =>
          ((u.engine n).run j).state = 10 ∧ ((u.engine n).run j).cause = 6)

/-- Moves, votes and commits of a running engine (R190 to R193, R197, R198): a move or commit whose bytes are read and written ends
well, one whose window ends first fails; a vote's digest covers the bytes that its run supplies; the agreeing set decides at the end
of its window; a commit with nothing to write marks its run. -/
def Obligations.MovesVotesAndCommits : Prop :=
  ∀ (s s3 s4 : State) (n i o : Nat) (r : SlotRec) (bs : List Byte) (m : MoveRun) (b : Ballot) (mask qmin vc : Nat),
    let e := s.engine n
    let s1 := s.slotTake n i r
    let mv := moveRec e.active r.index
    let c := commitRec e.active r.index
    let g := s1.governing n c r.time
    let frame := s.timeB.frameNo
    let w0 : MoveRun := ⟨frame, 0, 0, s.tickTime (r.time + r.dur), mv.src, false, none, []⟩
    let s2 := s1.setEngine n ((s1.engine n).setWork false r.index w0)
    let src := if s1.agreed n r.index c then s1.commitSrc n c g else c.fall
    let p := pgSched n
    let s5 := (s1.markCommit n g 12).count p 0x158
    let w1 : MoveRun := ⟨frame, 0, 0, s.tickTime (r.time + r.dur), o, true, none, []⟩
    let ok : Prop := (∀ d, d < 8 → bitAt mask d = true → d ∈ s.agreeing n i mask b) ∨
      (commitRec e.active i).quorum = true ∧ qmin ≤ (s.agreeing n i mask b).length
    let mine : Prop := owns c g = true
    n < s.nRegions →
      (s.slotDue n i 1 = some r → s.foremost n (.slot 1 i) → 1 ≤ mv.len → mv.len ≤ 64 → isPlain mv.src = true → isPlain mv.dst = true →
        s.staleSource mv.src mv.len = false → s2.memRead (0x100 + n) mv.src mv.len = (s3, some bs) →
        s3.memWrite (0x100 + n) mv.dst bs = (s4, true) → s4.settled → s.does (.move n i) fun u =>
          (u.engine n).work false r.index = some { w0 with st := 1, pos := mv.len } ∧ u.sram = s4.sram ∧ u.ddr = s4.ddr) ∧
      (s.slotDue n i 1 = some r → s.foremost n (.slot 1 i) → 1 ≤ mv.len → s.staleSource mv.src mv.len = true → s.settled → s.does (.move n i) fun u =>
        (u.engine n).work false r.index = some { w0 with st := 2 } ∧ u.reg p 0x160 = s.reg p 0x160 + 1 ∧ u.sram = s.sram ∧
        u.ddr = s.ddr) ∧
      (s.engineRuns n = true → s.foremost n (.work false i) → e.work false i = some m → m.st = 0 → s.settled → s.does (.moveWindowEnd n i false) fun u =>
        (u.engine n).work false i = some { m with st := 2 } ∧ u.reg p 0x160 = s.reg p 0x160 + 1 ∧ u.now = max s.now m.windowEnd) ∧
      (s.engineRuns n = true → s.foremost n (.work true i) → e.work true i = some m → m.st = 0 → s.settled → s.does (.moveWindowEnd n i true) fun u =>
        (u.engine n).work true i = some { m with st := 2 } ∧ s.reported u (0x140 + 6 * n + 3)) ∧
      (s.slotDue n i 3 = some r → s.foremost n (.slot 3 i) → s.settled → mine → s1.commitSrc n c g = .nothing → s.does (.vote n i) fun u =>
        AMap.find? (u.engine n).ballots r.index = some ⟨frame, 0, s.tickTime (r.time + r.dur), false, false, false⟩) ∧
      (s.slotDue n i 3 = some r → s.foremost n (.slot 3 i) → s.settled → mine → s1.commitSrc n c g = .pool o → bs = poolBytes e.active o c.len →
        s.does (.vote n i) fun u => AMap.find? (u.engine n).ballots r.index =
          some ⟨frame, voteDigest c.dst bs, s.tickTime (r.time + r.dur), false, false, false⟩) ∧
      (s.slotDue n i 3 = some r → s.foremost n (.slot 3 i) → s.settled → ¬ mine → exec (.vote n i) s = .next s1) ∧
      (s.engineRuns n = true → s.foremost n (.ballot i) → s.settled → AMap.find? e.ballots i = some b → b.judged = false → b.frame = frame →
        groupRec s.timeB.active (commitRec e.active i).group = some (mask, qmin, vc) → s.does (.voteWindowEnd n i) fun u =>
          u.now = max s.now b.windowEnd ∧ ∃ b', AMap.find? (u.engine n).ballots i = some b' ∧ b'.judged = true ∧
            (b'.agreed = true ↔ ok)) ∧
      (s.slotDue n i 4 = some r → s.foremost n (.slot 4 i) → mine → (c.voteOnly = true ∨ src = .nothing) → s.settled →
        exec (.commit n i) s = .next (s1.markCommit n g 13)) ∧
      (s.slotDue n i 4 = some r → s.foremost n (.slot 4 i) → mine → c.voteOnly = false → src = .pool o → 1 ≤ c.len → c.len ≤ 64 → isPlain c.dst = true →
        (s5.setEngine n ((s5.engine n).setWork true r.index w1)).memWrite (0x100 + n) c.dst (poolBytes e.active o c.len) =
          (s4, true) → s4.settled → s.does (.commit n i) fun u => u.sram = s4.sram ∧ u.ddr = s4.ddr ∧
          u.reg p 0x158 = s.reg p 0x158 + 1 ∧ (u.engine n).work true r.index = some { w1 with st := 1, pos := c.len }) ∧
      (s.slotDue n i 4 = some r → s.foremost n (.slot 4 i) → ¬ mine → s.settled → exec (.commit n i) s = .next s1)

/-- Link schedule engines (R199, R200): a TX slot opens its record's window; the handover ends it and counts in CNTTX; the end of the
window drops what is left and counts as late; RXCHK marks its buffer fresh where DATA covered all of it, else stale. -/
def Obligations.LinkEngineSlots : Prop :=
  ∀ (s s1 : State) (q i k : Nat) (r : SlotRec) (x : TxRun) (bs : List Byte),
    let e := s.lengine q
    let w := AMap.get e.written (fun _ => []) r.index
    let len := (laneRec e.active r.index).len
    let fresh := coversAll (w.length + 1) w 0 len
    let p := pgLsched q
    q < 8 → s.settled →
      (s.lslotDue q i 8 = some r → s.lforemost q true i → len ≠ 0 → s.does (.tx q i) fun u =>
        AMap.find? (u.lengine q).tx r.index = some ⟨s.tickTime (r.time + r.dur)⟩ ∧ (u.lengine q).acted = e.acted ++ [i] ∧
        u.now = max s.now (s.tickTime r.time) ∧ u.out = s.out) ∧
      (AMap.find? e.tx k = some x → s.vme.heldIn = [] → (laneRec e.active k).len = 0 → s.does (.txHandoverComplete q k) fun u =>
        AMap.find? (u.lengine q).tx k = none ∧ u.reg p 0x128 = s.reg p 0x128 + 1) ∧
      (AMap.find? e.tx k = some x → s.vme.heldIn = [] → (laneRec e.active k).len ≠ 0 → (laneRec e.active k).vc ≠ 0xFF →
        s.memRead (0x120 + q) (laneRec e.active k).buf (laneRec e.active k).len = (s1, some bs) → s1.settled →
        s1.vme.heldIn = [] → s1.lengine q = e → s1.reg p 0x128 = s.reg p 0x128 →
        s1.vcOpen (s1.linkOfLane (4 * q + (laneRec e.active k).lane)) (laneRec e.active k).vc = true →
        s.does (.txHandoverComplete q k) fun u =>
          AMap.find? (u.lengine q).tx k = none ∧ u.reg p 0x128 = s.reg p 0x128 + 1) ∧
      (AMap.find? e.tx k = some x → s.lforemost q false k → s.vme.heldIn = [] → s.does (.txWindowEnd q k) fun u =>
        AMap.find? (u.lengine q).tx k = none ∧ u.reg p 0x130 = s.reg p 0x130 + 1 ∧ u.now = max s.now x.windowEnd ∧ u.out = s.out) ∧
      (s.lslotDue q i 9 = some r → s.lforemost q true i → s.vmeOn = false → s.does (.rxchk q i) fun u =>
        (r.index < 64 → u.bit p 0x120 r.index = fresh) ∧ (r.index ∈ (u.lengine q).stale ↔ fresh = false) ∧
        AMap.get (u.lengine q).written (fun _ => []) r.index = [] ∧
        u.reg p 0x138 = s.reg p 0x138 + (if fresh then 0 else 1))

/-! Region SRAM and DDR4. -/

/-- Region SRAM (R217, R219, R224 to R226): the first request at a region's port stores or loads its bytes and is answered; a bank
writes a corrected word back without error; the end of the zero fill leaves zeros and READY, a failed one reports. -/
def Obligations.RegionSramServes : Prop :=
  ∀ (s : State) (n wa : Nat) (r : FabReq) (rest : List FabReq) (ws : List Nat) (v : Word),
    let m := s.sramOf n
    let mine := s.portOf n = r :: rest ∧ s.bistHolds n r = false ∧ s.sramReady n = true ∧ 1 ≤ r.size ∧ r.size ≤ 16 ∧
      (∃ t tag, r.origin = .tmi t tag)
    n < s.nRegions →
      (s.settled → mine → r.kind = .store → partialBad m r.addr r.size = [] → partialFixed m r.addr r.size = [] →
        s.ctxOf n 1 = [] → s.does (.sramAccess n) fun u =>
          (∀ p a, u.byteAt p a = if p = .sram n ∧ r.addr ≤ a ∧ a < r.addr + r.size then quadByte r.data (a - r.addr)
            else s.byteAt p a) ∧
          u.portOf n = rest ∧ u.resps = s.resps ++ [(r.origin, .ok 0)] ∧ u.regs = s.regs ∧
          (∀ t g, (t, g) ∈ u.resv ↔ (t, g) ∈ s.resv ∧ (g < granule r.addr ∨ granule (r.addr + r.size - 1) < g))) ∧
      (s.settled → mine → r.kind = .load → (s.injEcc (pgRegion n) (sramBank r.addr)).left = 0 →
        (∀ wa, r.addr / 8 ≤ wa → wa ≤ (r.addr + r.size - 1) / 8 → m.synAt wa = 0) → s.does (.sramAccess n) fun u =>
          (∃ q, u.resps = s.resps ++ [(r.origin, .ok q)] ∧ ∀ k, k < r.size → quadByte q k = s.byteAt (.sram n) (r.addr + k)) ∧
          u.portOf n = rest ∧ (∀ p a, u.byteAt p a = s.byteAt p a) ∧ u.regs = s.regs) ∧
      (s.settled → s.portOf n = [] → exec (.sramAccess n) s = .next s) ∧
      (AMap.get s.sramWb (fun _ => []) n = wa :: ws → m.readWord wa 0 = .fixed v → s.does (.sramWriteBack n) fun u =>
        (u.sramOf n).readWord wa 0 = .good v ∧ AMap.get u.sramWb (fun _ => []) n = ws ∧ u.regs = s.regs ∧
        ∀ p a, ¬ (p = .sram n ∧ a / 8 = wa) → u.byteAt p a = s.byteAt p a) ∧
      (s.regionOn n = true → s.bit (pgRegion n) 0x100 1 = true → s.does (.zeroFillComplete n true) fun u =>
        (∀ p a, u.byteAt p a = if p = .sram n then 0 else s.byteAt p a) ∧ u.fld (pgRegion n) 0x100 1 0 = 1 ∧
        ∀ page off, off < 0x1000 → (page, off) ≠ (pgRegion n, 0x100) → u.reg page off = s.reg page off) ∧
      (s.regionOn n = true → s.bit (pgRegion n) 0x100 1 = true → s.does (.zeroFillComplete n false) fun u =>
        u.bit (pgRegion n) 0x100 1 = false ∧ s.reported u (0x140 + 6 * n + 5) ∧
        s.onlyRegsAndFaults u [(pgRegion n, 0x100)]) ∧
      (s.regionOn n = false ∨ s.bit (pgRegion n) 0x100 1 = false → exec (.zeroFillComplete n true) s = .next s)

/-- DDR4 accesses and upkeep (R228, R229, R230, R232, R235): the first request of a channel that serves alone stores into it, of a
Mirrored pair, whose channels hold the same, into both; a request above the capacity is an error; a maintenance window begins at the
next multiple of MPER behind the window before it, and its burst moves the patrol scrub on.

The states of a DDR4 channel (R233 to R240): each command moves it as its row says, or is refused with DSTAT.REFUSE; training ends
in Ready with its contents undefined, in Resync, or in Offline where it fails or takes more than 50 ms. -/
def Obligations.Ddr4Channels : Prop :=
  (∀ (s : State) (k : Nat) (r : FabReq) (rest : List FabReq),
     let o := r.addr - ddrBase k
     let mine := s.ddrQOf k = r :: rest ∧ (∃ t tag, r.origin = .tmi t tag) ∧ r.kind = .store ∧ 1 ≤ r.size ∧ r.size ≤ 16
     let fits := o + r.size ≤ s.ddrGiB k * 0x40000000
     let whole (c : Nat) : Prop := partialBad (s.ddrOf c) o r.size = [] ∧ partialFixed (s.ddrOf c) o r.size = []
     let stored (u : State) (cs : List Nat) : Prop :=
       (∀ p a, u.byteAt p a = if (∃ c ∈ cs, p = .ddr c) ∧ o ≤ a ∧ a < o + r.size then quadByte r.data (a - o) else s.byteAt p a) ∧
       u.ddrQOf k = rest ∧ u.resps = s.resps ++ [(r.origin, .ok 0)] ∧ u.regs = s.regs
     let m := s.ddrMper k
     let pos := s.fld (pgDdrc k) 0x128 29 0
     let w := s.windowAt k
     let after (y : Nat) : Prop := y % m = 0 ∧ s.now ≤ y ∧ ∀ x, AMap.find? s.ddrWin k = some x → x < y
     k < 8 → s.settled →
       (mine → fits → s.ddrServe k = .one k → whole k → s.does (.ddr4Request k) fun u => stored u [k]) ∧
       (mine → fits → s.ddrServe k = .both k → whole k → whole (k + 1) →
         (∀ a, s.byteAt (.ddr k) a = s.byteAt (.ddr (k + 1)) a) → s.does (.ddr4Request k) fun u => stored u [k, k + 1]) ∧
       (s.ddrQOf k = r :: rest → (∃ t tag, r.origin = .tmi t tag) → (¬ fits ∨ s.ddrServe k = .none) →
         s.does (.ddr4Request k) fun u => u.ddrQOf k = rest ∧ u.resps = s.resps ++ [(r.origin, .err)] ∧ u.ddr = s.ddr) ∧
       (s.ddrQOf k = [] → exec (.ddr4Request k) s = .next s) ∧
       (s.ddrAwake k = true → s.ddrQOf k = [] → s.fld (pgDdrc k) 0x100 39 32 = 1 → AMap.get s.ddrWb (fun _ => []) k = [] →
         s.dstate k ≠ 6 → s.dstate (partner k) ≠ 6 → (∀ j, j < 8 → ∃ v, (s.ddrOf k).readWord (8 * pos + j) 0 = .good v) →
         pos + 1 < s.ddrGiB k * 0x1000000 → pos + 1 < 2 ^ 30 → s.does (.maintenanceWindow k) fun u =>
           u.fld (pgDdrc k) 0x128 29 0 = pos + 1 ∧ u.now = w ∧ after w ∧ (∀ y, after y → w ≤ y) ∧ u.ddr = s.ddr ∧
           ∀ page off, off < 0x1000 → (page, off) ≠ (pgDdrc k, 0x128) → u.reg page off = s.reg page off) ∧
       (s.ddrAwake k = false → exec (.maintenanceWindow k) s = .next s)) ∧
  (∀ (s : State) (iid k us : Nat) (v new : Word),
     let p := pgDdrc k
     let st := s.dstate k
     let y := k + 1
     let refuse := s.setFld p 0x110 8 8 1
     let dctl (b : Nat) : Prop := s.reaches iid p 0x108 8 ((s.reg p 0x108 &&& 2) ||| BitVec.ofNat 64 b) .ddrc k new
     let okCfg := (st = 0 ∨ st = 1) ∧ bitsOf new 15 14 < 2 ∧ bitsOf new 39 32 ≤ 32
     let start := s.ddrOn k = true ∧ s.bit p 0x100 0 = true ∧ (st = 1 ∨ st = 7 ∧ s.mirrored k = false)
     let init := st = 3 ∧ s.mirrored k = false
     let retire := st ≠ 8 ∧ (s.mirrored k = false ∨ st = 4)
     k < 8 →
       (s.reaches iid p 0x100 8 v .ddrc k new → okCfg →
         s.does (.dcfgWrite iid k v) fun u => u.reg p 0x100 = new ∧ s.onlyRegs u [(p, 0x100)]) ∧
       (s.reaches iid p 0x100 8 v .ddrc k new → ¬ okCfg → s.locked p = false → exec (.dcfgWrite iid k v) s = .next refuse) ∧
       (dctl 4 → exec (.start iid k) s = .next (if start then s.setDstate k 2 else refuse)) ∧
       (dctl 8 → exec (.init iid k) s = .next (if init then s.setDstate k 9 else refuse)) ∧
       (dctl 16 → exec (.retrain iid k) s = .next (if s.mirrored k = true ∧ st = 4 then (s.setDstate k 5).setDstate (partner k) 3
         else if s.mirrored k = true ∧ st = 7 ∧ s.dstate (partner k) = 3 then s.setDstate k 5 else refuse)) ∧
       (dctl 32 → retire → s.does (.retire iid k) fun u => u.dstate k = 8 ∧ u.bit p 0x110 9 = true ∧
         (s.mirrored k = true → s.dstate (partner k) = 4 → u.dstate (partner k) = 3)) ∧
       (dctl 32 → ¬ retire → exec (.retire iid k) s = .next refuse) ∧
       (k % 2 = 0 → s.bit p 0x108 1 = false → s.reaches iid p 0x108 8 2 .ddrc k new → s.does (.mirror iid k true) fun u =>
         if st = 3 ∧ s.dstate y = 3 ∧ s.reg p 0x100 = s.reg (pgDdrc y) 0x100 then
           u.bit p 0x108 1 = true ∧ u.dstate k = 3 ∧ u.dstate y = 6 ∧
           AMap.get u.ddrDirty (fun _ => []) y = List.range (s.ddrGiB k * 1024)
         else u = refuse) ∧
       (k % 2 = 0 → s.bit p 0x108 1 = true → s.reaches iid p 0x108 8 0 .ddrc k new → st = 4 → s.dstate y = 4 →
         s.does (.mirror iid k false) fun u => u.bit p 0x108 1 = false ∧ u.dstate k = 3 ∧ u.dstate y = 3) ∧
       (st = 2 ∨ st = 5 → us ≤ 50000 → s.does (.trainingComplete k true us) fun u =>
         u.dstate k = (if st = 2 then 3 else 6) ∧ u.fld p 0x138 31 16 = us ∧
         (st = 2 → ∃ e, ∀ a, u.byteAt (.ddr k) a = (Ram.unwritten e).byte a)) ∧
       (st = 2 ∨ st = 5 → 50000 < us → s.does (.trainingComplete k true us) fun u =>
         u.dstate k = 7 ∧ s.reported u (0x1B0 + 4 * k + 3)) ∧
       (st = 2 ∨ st = 5 → s.does (.trainingComplete k false us) fun u =>
         u.dstate k = 7 ∧ u.fld p 0x138 31 16 = min us 65535 ∧ s.reported u (0x1B0 + 4 * k + 3)) ∧
       (st = 2 ∨ st = 5 → s.does (.trainingTimeout k) fun u =>
         u.dstate k = 7 ∧ u.fld p 0x138 31 16 = 50000 ∧ s.reported u (0x1B0 + 4 * k + 3)) ∧
       (st ≠ 2 → st ≠ 5 → exec (.trainingComplete k true us) s = .next s) ∧
       (st = 9 → s.does (.initComplete k) fun u => u.dstate k = 3 ∧
         ∀ q a, u.byteAt q a = if q = .ddr k then 0 else s.byteAt q a) ∧
       (st ≠ 9 → exec (.initComplete k) s = .next s) ∧
       (st = 10 → s.ddrOn k = true →
         exec (.selfRefreshExitComplete k) s = .next (s.setDstate k
           (if s.mirrored k = true ∧ (s.dstate (partner k) = 10 ∨ s.dstate (partner k) = 4) then 4 else 3))))

/-! Firewalls, flits, tags and CRC units. -/

/-- The firewall's commands, flits, tags and CRC contexts (R251, R252, R254 to R263): COMMIT makes the shadow the active set and counts
a generation; a flit in order is expected next by one more, one that breaks the tags' rule raises the fabric-protocol fault (R37), a bad
one is discarded and reported, with the notice that it carries (R194); a tag that times out is free again;
a feed moves its context on; contexts are initialised, set and refused. -/
def Obligations.GuardsAndChecks : Prop :=
  ∀ (s : State) (iid n i mask tag : Nat) (v new : Word) (f : FlitIn) (r : FabReq) (e : TagUse),
    let p := pgFwall n
    let c := pgCrcu n
    let x := ctxAt i
    let want := AMap.get s.flitRx (fun _ => 0) f.path
    let ahead := (f.seq % 4096 + 4096 - want % 4096) % 4096
    let sent : State := { s with flitTx := AMap.set s.flitTx (fun _ => 0) f.path ((f.seq + 1) % 4096) }
    let kept : State := { sent with flitRx := AMap.set s.flitRx (fun _ => 0) f.path ((f.seq + 1) % 4096) }
    let carried := match f.load with
      | .request _ => true
      | .response => true
      | _ => false
    let feeds := (s.ctxOf n 0).filter fun j => s.ccfg n j 13 12 == r.iid % 4
    let bytes := quadBytes r.data r.size
    let poly := s.ccfg n i 5 4
    let on := bitsOf (s.reg c (x 0)) 0 0 = 1
    let takes := bitsOf new 9 8 ≠ 3 ∧ (bitsOf new 0 0 = 1 → bitsOf new 9 8 = 0 → s.slotTaken n i (bitsOf new 13 12) = false)
    let refused := s.setFld c 0x108 8 8 1
    (n < 16 → s.reaches iid p 0x100 8 (v ||| 2) .fwall n new → s.locked p = false → s.does (.commitFwall iid n v) fun u =>
      (∀ k, k < 32 → u.reg p (fwActive k 0) = s.reg p (fwShadow k 0) ∧ u.reg p (fwActive k 8) = s.reg p (fwShadow k 8) ∧
        u.reg p (fwActive k 0x10) = s.reg p (fwShadow k 0x10)) ∧
      u.fwGen n = s.fwGen n + 1 ∧ u.reg p 0x110 = BitVec.ofNat 64 (u.fwOverlap n + b2n (u.fwOverlap n != 0) * 2 ^ 32) ∧
      (u.fwOverlap n ≠ 0 → s.reported u (0x140 + 6 * n + 4))) ∧
    (n < 16 → s.bit p 0x100 1 = false → s.reaches iid p 0x100 8 (withBits (s.reg p 0x100) 2 2 1) .fwall n new →
      s.does (.clrdeny iid n) fun u => u.fld p 0x120 47 32 = 0 ∧ s.onlyRegs u [(p, 0x120), (p, 0x100)]) ∧
    (f.good = true → s.flitInject f = none → f.endpoint = true → f.resync = true ∨ ahead = 0 →
      (s.tagFault f = false → exec (.flitArrival f) s = .next kept) ∧
      (s.tagFault f = true → s.does (.flitArrival f) fun u => u = { kept with fcol := u.fcol } ∧ s.reported u 0x1EE)) ∧
    (f.good = true → s.flitInject f = none → f.endpoint = true → f.resync = false → 1 ≤ ahead → ahead ≤ 2047 →
      s.does (.flitArrival f) fun u => AMap.get u.flitRx (fun _ => 0) f.path = (f.seq + 1) % 4096 ∧
        s.reported u (flitSeqSource f.die).1 ∧ u.port = s.port ∧ u.resps = s.resps) ∧
    (f.good = false → s.flitInject f = none → s.does (.flitArrival f) fun u =>
      s.reported u (flitCrcSource f.die).1 ∧ (carried = true → ∀ q ∈ u.vmeIn, q.tag ≠ f.tag) ∧ u.flitRx = s.flitRx ∧
      u.tags = s.tags ∧ u.regs = s.regs ∧ (∀ z d j, f.load = .notice z d j → s.reported u 0x1EE ∧
        u.notices = match s.notices.find? fun y => y.kind == z && y.dst == d && y.job == j with
          | some y => s.notices.erase y
          | none => s.notices)) ∧
    (f.good = true → s.flitInject f = none → f.endpoint = false → exec (.flitArrival f) s = .next sent) ∧
    (s.tags.find? (fun t => t.tag == tag) = some e → (∃ t m, e.origin = .tmi t m ∧ s.quietTmi t ∧ s.noTints t) →
      s.does (.tagTimeout tag) fun u => u.tags = s.tags.filter (fun t => t.tag != tag) ∧ s.reported u 0x1EE ∧ u.now = max s.now (e.since + 1000000)) ∧
    (s.tags.find? (fun t => t.tag == tag) = none → exec (.tagTimeout tag) s = .next s) ∧
    (n < s.nRegions → s.portOf n = [r] → r.kind = .crc → s.bistHolds n r = false → s.bit p 0x108 0 = false → feeds = [i] → s.ccfg n i 63 32 = 0 → i < 8 →
      s.does (.crcFeed n) fun u =>
        u.reg c (x 0x18) = BitVec.ofNat 64 (bytes.foldl (fun w b => (BitVec.ofNat 64 (crcByte poly w b)).toNat)
          (s.crcValue n i)) ∧
        u.reg c (x 0x20) = s.reg c (x 0x20) + BitVec.ofNat 64 bytes.length ∧ u.portOf n = [] ∧
        u.resps = s.resps ++ [(r.origin, .ok 0)] ∧
        ∀ page off, off < 0x1000 → (page, off) ∉ [(c, x 0x18), (c, x 0x20)] → u.reg page off = s.reg page off) ∧
    (n < s.nRegions → s.portOf n = [r] → r.kind = .crc → s.bistHolds n r = false →
      feeds = [] ∨ s.bit p 0x108 0 = true → s.does (.crcFeed n) fun u =>
        u.portOf n = [] ∧ u.resps = s.resps ++ [(r.origin, .err)] ∧ s.fld c 0x108 47 32 ≤ u.fld c 0x108 47 32) ∧
    (n < 16 → i < 8 → mask < 256 → s.reaches iid c 0x100 8 (withBits (s.reg c 0x100) 7 0 mask) .crcu n new →
      s.does (.crctlInit iid n mask) fun u =>
        (u.reg c (x 0x18) = if bitAt mask i then BitVec.ofNat 64 (crcInit poly) else s.reg c (x 0x18)) ∧
        (u.reg c (x 0x20) = if bitAt mask i then 0 else s.reg c (x 0x20)) ∧ u.reg c (x 0) = s.reg c (x 0)) ∧
    (n < 16 → i < 8 → s.reaches iid c (x 0) 8 v .crcu n new →
      (¬ on → takes → s.does (.ccfgWrite iid n i v) fun u => u.reg c (x 0) = new ∧ s.onlyRegs u [(c, x 0)]) ∧
      (¬ on → ¬ takes → exec (.ccfgWrite iid n i v) s = .next refused) ∧
      (on → bitsOf new 0 0 = 0 → s.does (.ccfgWrite iid n i v) fun u =>
        u.reg c (x 0) = withBits (s.reg c (x 0)) 0 0 0 ∧ s.onlyRegs u [(c, x 0)]) ∧
      (on → bitsOf new 0 0 = 1 → s.locked c = false → exec (.ccfgWrite iid n i v) s = .next refused)) ∧
    (n < 16 → i < 8 → s.reaches iid c (x 0x18) 8 v .crcu n new → s.does (.cvalueWrite iid n i false v) fun u =>
      u.reg c (x 0x18) = BitVec.ofNat 64 (new.toNat % 2 ^ crcWidth poly) ∧ s.onlyRegs u [(c, x 0x18)]) ∧
    (n < 16 → i < 8 → s.reaches iid c (x 0x20) 8 v .crcu n new → s.does (.cvalueWrite iid n i true v) fun u =>
      u.reg c (x 0x20) = new ∧ s.onlyRegs u [(c, x 0x20)])

/-! The fault collector and fault injection. -/

/-- Fault sources and FCOL's own timers (R264 to R267, R273, R276): an event of a live source waits, or merges into the one of its
source that waits; a masked, absent or dark source is silent; a broken pair is an event of its own; sweeps find broken pairs, leaks
clear the threshold counts, the healthy ERROUT toggles. A check error or a rail fault inside a running copy diverges it (R51; the rail
fault: DEDUCED, assumption 53), an internal check of the voter or TMI stops the triad with cause 7 (R68).

FCOL takes the event that waits first (R267, R270 to R274, R286): it counts the event and its class, writes its record, and its
entry's action takes effect: SWAP stops the triad, REGION-SAFE shuts the region, DEVICE-SAFE and RESET the device; below its
threshold an event receives no action. -/
def Obligations.FaultsAreTakenByFcol : Prop :=
  (∀ (s : State) (src code unit pair : Nat) (detail : Word),
     let f := s.fcol
     let live := srcPresent s.dies src = true ∧ s.srcLive src = true ∧ f.masked.contains src = false
     let t := src / 5
     let x := src % 5
     let alone := s.copySource src = none
     let plain := (alone ∨ code ≠ 4) ∧ ¬ (src < 0x140 ∧ x = 3 ∧ code = 5 ∧ isRunMode (s.triad t).mode = true) ∧
       ¬ (src < 0x140 ∧ x = 4 ∧ code = 2 ∧ (s.triad t).mordBusy = true)
     let inside := src < 0x140 ∧ x < 3 ∧ s.running t = [0, 1, 2] ∧ s.quietTmi t ∧ s.noTints t
     let ev : FaultEv := ⟨src, code, unit, detail, false, false, false⟩
     let held := f.waiting.any fun w => w.src == src && w.rail == false
     let sweep := f.lastSweep + s.fld pgFcol 0x1C8 15 0 * 1000000
     (plain → live → held = false → exec (.faultEvent src code unit detail) s = .next { s with fcol := { f with waiting := f.waiting ++ [ev] } }) ∧
     (plain → live → held = true → s.does (.faultEvent src code unit detail) fun u =>
       u = { s with fcol := { f with waiting := u.fcol.waiting } } ∧ u.fcol.waiting.length = f.waiting.length ∧
       ∃ w ∈ u.fcol.waiting, w.src = src ∧ w.merged = true) ∧
     (plain → ¬ live → exec (.faultEvent src code unit detail) s = .next s) ∧
     (¬ live → exec (.railFault src pair) s = .next s) ∧
     (inside → s.does (.faultEvent src 4 unit detail) fun u => s.ejected u t x (s.copy (3 * t + x)).retcnt 3 ∧ s.reported u src) ∧
     (inside → live → s.does (.railFault src pair) fun u => s.ejected u t x (s.copy (3 * t + x)).retcnt 3 ∧
       AMap.get u.fcol.pairs (fun _ => 1) src = pair % 4) ∧
     (src < 0x140 → x = 3 → isRunMode (s.triad t).mode = true → s.does (.faultEvent src 5 unit detail) fun u =>
       u.stoppedFor t 7 ∧ s.reported u src) ∧
     (alone → live → s.does (.railFault src pair) fun u => (∃ w ∈ u.fcol.waiting, w.src = src ∧ w.rail = true) ∧
       AMap.get u.fcol.pairs (fun _ => 1) src = pair % 4 ∧ u = { s with fcol := u.fcol }) ∧
     (alone → live → s.bit pgFcol 0x100 2 = true → s.does (.railSweep [src]) fun u =>
       (∃ w ∈ u.fcol.waiting, w.src = src ∧ w.rail = true) ∧ u.now = max s.now sweep ∧ u.fcol.lastSweep = max s.now sweep) ∧
     (s.bit pgFcol 0x100 2 = false → exec (.railSweep [src]) s = .next s) ∧
     (s.leakMs ≠ 0 → s.does .leakClear fun u => u.fcol.thr = [] ∧ u.now = max s.now (f.lastLeak + s.leakMs * 1000000) ∧
       u.fcol.lastLeak = u.now ∧ u.fcol.waiting = f.waiting) ∧
     (s.leakMs = 0 → exec .leakClear s = .next s) ∧
     exec .erroutToggle s = .next (if f.errShown then s else { s with fcol := { f with errPhase := !f.errPhase } })) ∧
  (∀ (s : State) (e : FaultEv) (rest : List FaultEv) (l : Nat),
     let f := s.fcol
     let r := s.rentry e.src
     let n := (e.src - 0x140) / 6
     let t := e.src / 5
     let plain := e.rail = false ∧ (e.injected = false ∨ s.bit pgFcol 0x100 1 = false)
     let acts := 3 ≤ r.cls ∨ r.thresh < 2 ∨ r.thresh ≤ s.thrOf e.src + 1
     let logged (u : State) (act : Nat) : Prop :=
       u.fcol.head = (f.head + 1) % 2 ^ 32 ∧ ∃ x, AMap.find? u.fcol.log (f.head % 256) = some x ∧
         bitsOf x.w1 15 0 = e.src % 65536 ∧ bitsOf x.w1 31 24 = act ∧ x.w2 = e.detail ∧ x.w0 = BitVec.ofNat 64 s.now
     let noted (u : State) (act : Nat) : Prop := ∃ m x, AMap.find? u.fcol.log m = some x ∧
       bitsOf x.w1 15 0 = e.src ∧ bitsOf x.w1 31 24 = act ∧ x.w2 = e.detail
     f.waiting = e :: rest → s.settled → plain → e.src < 0x1F2 → e.unit < 256 → s.dsafe = false →
       (acts → r.action ≤ 2 → bitAt r.notify 2 = false → (r.action = 1 → s.leader r.ntriad = some l) → s.does .takeEvent fun u =>
         logged u r.action ∧ u.fcol.waiting = rest ∧
         AMap.get u.fcol.evcnt (fun _ => 0) e.src = min (AMap.get f.evcnt (fun _ => 0) e.src + 1) 0xFFFFFFFF ∧
         (r.action = 1 → ∃ y ∈ (u.triad r.ntriad).stamps, y.vec = 24) ∧
         (r.action = 0 → u.triads = s.triads ∧ u.copies = s.copies)) ∧
       (r.cls ≤ 2 → 2 ≤ r.thresh → s.thrOf e.src + 1 < r.thresh → bitAt r.notify 2 = false → s.does .takeEvent fun u =>
         logged u 0 ∧ u.thrOf e.src = s.thrOf e.src + 1 ∧ u.triads = s.triads ∧ u.copies = s.copies) ∧
       (acts → r.action = 4 → e.src < 0x140 → isRunMode (s.triad t).mode = true → s.does .takeEvent fun u =>
         u.stoppedFor t 5 ∧ logged u 4) ∧
       (acts → r.action = 6 → 0x140 ≤ e.src → e.src < 0x1A0 → s.regionOn n = true → s.bit (pgFwall n) 0x108 0 = false →
         s.does .takeEvent fun u => u.bit (pgFwall n) 0x108 0 = true ∧ (u.engine n).state = 2 ∧
           (∀ j, j < 4 → isRunMode (u.triad (4 * n + j)).mode = false) ∧ logged u 6) ∧
       (acts → r.action = 7 → e.src < 0x1A0 → s.starting = false → s.does .takeEvent fun u =>
         u.fcol.dsafe = true ∧ noted u 7 ∧ ∀ t, t < s.nTriads → isRunMode (u.triad t).mode = false) ∧
       (acts → r.action = 8 → e.src < 0x1A0 → s.starting = false → f.resetDue = none → s.fld pgWarden 0x108 3 0 ≠ 4 →
         s.does .takeEvent fun u => u.fcol.dsafe = true ∧ u.fcol.resetDue = some (s.now + 1000000) ∧ noted u 8))

/-- The reaction table and FCOL's registers (R282 to R284, R287 to R289): the check records its result, RSWGEN arms the exchange of a
checked generation, which exchanges the pages; FLOGSEL shows its record; CLRFIRST, CLRLOG; ARM acts only under INJEN. -/
def Obligations.ReactionTableAndLog : Prop :=
  ∀ (s : State) (iid page i c x : Nat) (v new : Word) (k : PageKind),
    let f := s.fcol
    let st := s.fld pgFcol 0x118 2 0
    let ctl (b : Nat) := withBits (s.reg pgFcol 0x100) b b 1
    let kind := bitsOf new 6 4
    (s.reaches iid pgFcol 0x120 8 1 .fcol 0 new → s.reactionCheck = none → s.does (.rtblchk iid) fun u =>
      u.fcol.checked = some (s.reg 0x0006 0x908) ∧ u.fld pgFcol 0x118 23 16 = 0 ∧
      u.fld pgFcol 0x118 2 0 = (if st = 2 then 2 else 1) ∧ s.onlyRegsAndFaults u [(pgFcol, 0x118)]) ∧
    (s.reaches iid pgFcol 0x120 8 1 .fcol 0 new → s.reactionCheck = some (c, x) → s.does (.rtblchk iid) fun u =>
      u.fcol.checked = none ∧ u.fld pgFcol 0x118 23 16 = c % 256 ∧ u.fld pgFcol 0x118 47 32 = x % 65536 ∧
      u.fld pgFcol 0x118 2 0 = (if st = 2 then 2 else 0) ∧ s.onlyRegsAndFaults u [(pgFcol, 0x118)]) ∧
    (s.reaches iid pgFcol 0x110 8 v .fcol 0 new → s.svc.op = none → s.does (.rswgenWrite iid v) fun u =>
      u.reg pgFcol 0x110 = new ∧ u.fld pgFcol 0x118 2 0 = (if f.checked = some new then 2 else 4) ∧ u.fcol = f) ∧
    (st = 2 → f.checked = some (s.reg pgFcol 0x110) → s.timeB.actGen = 0 → s.svc.op = none → AMap.wf s.regs regReset = true →
      s.does .reactionBankExchange fun u =>
        u.fcol.gen = s.reg pgFcol 0x110 ∧ u.fcol.checked = none ∧ u.fcol.thr = [] ∧ u.fld pgFcol 0x118 2 0 = 3 ∧
        (∀ off, 0x100 ≤ off → off < 0x1000 → u.reg 4 off = s.reg 6 off ∧ u.reg 6 off = s.reg 4 off ∧
          u.reg 5 off = s.reg 7 off ∧ u.reg 7 off = s.reg 5 off)) ∧
    (st ≠ 2 → s.svc.op = none → exec .reactionBankExchange s = .next s) ∧
    (s.reaches iid pgFcol 0x140 8 v .fcol 0 new → s.does (.flogselWrite iid v) fun u =>
      let y := s.logSlot (bitsOf new 7 0)
      u.reg pgFcol 0x148 = y.w0 ∧ u.reg pgFcol 0x150 = y.w1 ∧ u.reg pgFcol 0x158 = y.w2 ∧ u.reg pgFcol 0x160 = y.w3 ∧
      s.onlyRegs u [(pgFcol, 0x140), (pgFcol, 0x148), (pgFcol, 0x150), (pgFcol, 0x158), (pgFcol, 0x160)]) ∧
    (s.bit pgFcol 0x100 3 = false → s.reaches iid pgFcol 0x100 8 (ctl 4) .fcol 0 new → s.does (.clrfirst iid) fun u =>
      u.fcol = { f with first := none } ∧ s.onlyRegsAndFaults u [(pgFcol, 0x100)]) ∧
    (s.bit pgFcol 0x100 4 = false → s.reaches iid pgFcol 0x100 8 (ctl 3) .fcol 0 new → s.does (.clrlog iid) fun u =>
      u.fcol = { f with log := [], head := 0 } ∧ s.onlyRegsAndFaults u [(pgFcol, 0x100)]) ∧
    (s.reaches iid page 0x28 8 (v ||| 1) k i new →
      (s.bit pgFcol 0x100 0 = false → s.does (.arm iid page v) fun u =>
        u.bit page 0x20 2 = true ∧ u.reg page 0x28 = s.reg page 0x28 ∧ s.onlyRegsAndFaults u [(page, 0x20)]) ∧
      (s.bit pgFcol 0x100 0 = true → kind ≠ 0 → bitAt (injKinds s.dies page) kind = false → exec (.arm iid page v) s = .next s) ∧
      (s.bit pgFcol 0x100 0 = true → kind ≠ 5 → kind ≠ 6 → (kind = 0 ∨ bitAt (injKinds s.dies page) kind = true) →
        exec (.arm iid page v) s = .next { s.setReg page 0x28 new with injMade := AMap.drop page s.injMade }))

/-! Lanes, links and Ethernet. -/

/-- The rows of R293 up to Active: LCTL.EN, signal, Clause 73 (R294), the exchange of three equal CAP frames and READY (R295), the
chosen mode (R296), quarantine with its code (R297), training, confirmation. A CAP frame that fails its check (R301), bits 7:2 of its FLAGS too, is counted,
reported and discarded; the acknowledgement that a good one carries is taken (R305).

The rows of R293 from Active on (R306, R311 to R313, R318): a failure and a spare's time limit leave the lane Failed with its
FAILWHY; RETUNE takes an Active lane out but the link's only one; RENEG returns a Failed or Quarantined lane to Detect, the end of a
link's 1 ms in Down its enabled lanes; SENDINDIGO sends the pattern; a pattern that is no enabled wake source changes nothing. -/
def Obligations.LaneStates : Prop :=
  (∀ (s : State) (iid l k page ab i flags : Nat) (fec : Bool) (c p : Cap) (rx : BvlRx) (new : Word),
     let st := s.laneState l
     let proto := s.laneProto l
     let x := s.lane l
     let pl := pgLane l
     let ctl := s.reg pl 0x100
     let own := s.ownCap l
     let q := s.quarantineCode l c
     let v := chosenVersion own.vermask c.vermask
     let common (r : Nat) : Prop := r ∈ [2, 4, 6, 7, 9] ∧ bitAt (s.fld pl 0x100 8 0) (r - 1) = true ∧ bitAt ab (r - 1) = true
     let others := ((s.linkLanes (s.linkOfLane l)).filter fun y => y != l && s.laneState y == 5).length
     let usable : Prop := proto = 1 ∨ proto = 2 ∧ 16 ≤ l ∧ s.xtal = true
     let bvl := s.laneBvl l = true
     let a := s.acked (s.linkOfLane l) rx.hdr
     let good := frameGood rx (.cap c) = true ∧ flags = 0
     let mate := (s.activeLanes i).headD i
     rx.lane = l → s.injArmed (pgLaneq (l / 4)) 4 (l % 4) = false →
     l < 32 → s.settled → (∀ j, (s.link j).peerOut = []) →
       (s.reaches iid pl 0x100 8 (withBits ctl 16 16 1) .lane l new → st = 0 → bitsOf ctl 16 16 = 0 → s.quadOn (l / 4) = true →
         usable → s.quadIsolated (l / 4) = false → s.dsafe = false →
         s.does (.lctlEnWrite iid l true) fun u => u.laneState l = 1) ∧
       (s.reaches iid pl 0x100 8 (withBits ctl 16 16 0) .lane l new → bitsOf ctl 16 16 = 1 → usable →
         s.does (.lctlEnWrite iid l false) fun u => u.laneState l = 0) ∧
       (st = 1 → bvl → x.spareFor = none → s.does (.signalDetect l) fun u =>
         u.laneState l = 2 ∧ u.bit pl 0x108 8 = true ∧ u.fld pl 0x108 15 12 = 8 ∧ (u.lane l).cap = none) ∧
       (st = 8 ∨ st = 6 → s.bit pl 0x108 8 = false → s.does (.signalDetect l) fun u => u.laneState l = 1) ∧
       (st = 0 ∨ st = 10 → exec (.signalDetect l) s = .next s) ∧
       (st = 1 → proto = 2 → s.bit pl 0x108 8 = true → common k → (∀ r, common r → k ≤ r) →
         s.does (.autoNegotiation l ab fec page) fun u => u.laneState l = 3 ∧ u.fld pl 0x108 15 12 = k) ∧
       (st = 1 → proto = 2 → s.bit pl 0x108 8 = true → (∀ r, ¬ common r) → x.noAbility = false →
         s.does (.autoNegotiation l ab fec page) fun u =>
           u.laneState l = 1 ∧ u.lane l = { x with noAbility := true } ∧ s.reported u (quadSrc l 1)) ∧
       (st = 1 → bvl → x.spareFor ≠ none → s.does (.signalDetect l) fun u => u.laneState l = 1 ∧ u.bit pl 0x108 8 = true) ∧
       (bvl → st = 2 ∨ st = 4 ∨ st = 6 → exec (.capSend l) s = .next { s with out := s.out ++ [.cap l own] }) ∧
       (bvl → [2, 4, 5, 6, 7].contains st = true → ¬ good → s.does (.cap rx flags c) fun u =>
         u.fld pl 0x120 63 48 = min (s.fld pl 0x120 63 48 + 1) 65535 ∧ u.lanes = s.lanes ∧ u.laneState l = st ∧
         s.reported u (quadSrc l 0)) ∧
       (¬ bvl ∨ [2, 4, 5, 6, 7].contains st = false → exec (.cap rx flags c) s = .next s) ∧
       (bvl → good → st = 2 → x.cap = none →
         exec (.cap rx flags c) s = .next (a.setLane l { x with cap := some c, count := 1, partnerReady := c.ready })) ∧
       (bvl → good → st = 2 → x.cap = some p → sameCap p c = true → 2 ≤ x.count → q = 0 → exec (.cap rx flags c) s = .next (a.setLane l
         { x with cap := some c, count := x.count + 1, ready := true, partnerReady := c.ready, version := v,
                  rate := (chosenRate own.ratemask c.ratemask v).getD 8, lanes := min own.maxlanes c.maxlanes })) ∧
       (bvl → good → st = 2 → x.cap = some p → sameCap p c = true → 2 ≤ x.count → q ≠ 0 → c.srcdev < 256 → s.does (.cap rx flags c) fun u =>
         u.laneState l = 6 ∧ u.fld pl 0x108 15 12 = 8 ∧ u.fld pl 0x110 55 52 = q ∧ u.fld pl 0x110 47 40 = c.srcdev) ∧
       (st = 2 → x.ready = true → x.partnerReady = true → x.rate ≠ 0 → x.rate < 16 → s.does (.rateChange l) fun u =>
         u.laneState l = 3 ∧ u.fld pl 0x108 15 12 = x.rate) ∧
       (st = 3 → bvl → s.does (.equaliserConverged l) fun u => u.laneState l = 4) ∧
       (st = 3 ∧ ¬ bvl ∨ st = 9 → s.does (.equaliserConverged l) fun u => u.laneState l = 5) ∧
       (st = 3 ∨ st = 9 → s.does (.trainingLimit l) fun u => u.laneState l = 8 ∧ u.fld pl 0x108 19 16 = 5) ∧
       (bvl → good → st = 4 → x.spareFor = none → x.cap = some p → sameCap { p with state := c.state } c = true →
         s.does (.cap rx flags c) fun u => u.laneState l = if others < x.lanes then 5 else 7) ∧
       (bvl → good → st = 4 → x.spareFor = none → x.cap = some p → sameCap { p with state := c.state } c = false →
         s.does (.cap rx flags c) fun u => u.laneState l = 1) ∧
       (bvl → good → st = 4 → x.spareFor = some i → s.fld (pgLane mate) 0x110 47 40 ≠ c.srcdev → s.does (.cap rx flags c) fun u =>
         u.laneState l = 1 ∧ (u.lane l).spareFor = some i) ∧
       (st = 4 → s.does (.confirmTimeout l) fun u => u.laneState l = 1 ∧ u.reg pl 0x118 = 0)) ∧
  (∀ (s : State) (iid l why i : Nat) (new : Word),
     let st := s.laneState l
     let proto := s.laneProto l
     let x := s.lane l
     let k := s.linkOfLane l
     let pl := pgLane l
     let ctl := s.reg pl 0x100
     let bvl := s.laneBvl l = true
     let sane := proto ≠ 3 ∧ (l < 16 → proto ≠ 2)
     let standby := (s.linkLanes k).any fun y => s.laneState y == 7
     l < 32 → s.settled → (∀ j, (s.link j).peerOut = []) →
       (st = 5 → 1 ≤ why → why ≤ 4 → s.does (.laneFailure l why) fun u =>
         u.laneState l = 8 ∧ u.fld pl 0x108 19 16 = why ∧ (bvl → s.reported u (quadSrc l 1))) ∧
       (st ≠ 5 → st ≠ 6 → st ≠ 8 → exec (.laneFailure l why) s = .next s) ∧
       (x.spareFor = some i → s.does (.spareTimeout l) fun u =>
         u.laneState l = 8 ∧ u.fld pl 0x108 19 16 = 6 ∧ (u.lane l).spareFor = none) ∧
       (x.spareFor = none → exec (.spareTimeout l) s = .next s) ∧
       (s.reaches iid pl 0x100 8 (withBits ctl 18 18 1) .lane l new → st = 5 → sane →
         (bvl → s.activeLanes k ≠ [l] ∨ standby = true → s.does (.retune iid l) fun u => u.laneState l = 9) ∧
         (¬ bvl → s.does (.retune iid l) fun u => u.laneState l = 9) ∧
         (bvl → s.activeLanes k = [l] → standby = false → s.does (.retune iid l) fun u =>
           u.laneState l = 5 ∧ u.bit pl 0x108 20 = true)) ∧
       (s.reaches iid pl 0x100 8 (withBits ctl 17 17 1) .lane l new → sane → st = 8 ∨ st = 6 →
         s.does (.reneg iid l) fun u => u.laneState l = 1 ∧ u.reg pl 0x118 = 0) ∧
       (s.reaches iid pl 0x100 8 (withBits ctl 24 24 1) .lane l new → sane → bitsOf ctl 18 17 = 0 →
         st = 5 ∨ st = 1 ∨ st = 10 → s.does (.sendindigo iid l) fun u => u.out = s.out ++ [.indigo l] ∧ u.laneState l = st) ∧
       (s.wakeEnabled 1 l = false → exec (.indigoDetect l) s = .next s) ∧
       (s.wakeEnabled 1 l = true → s.asleep = false → s.fld pgPwr 0x108 1 0 = 1 →
         (s.triad (s.fld pgPwr 0x108 37 32)).entry ≠ 0 → s.pastAbort (s.fld pgPwr 0x108 37 32) = true → s.wakeLatch = none →
         exec (.indigoDetect l) s = .next { s with wakeLatch := some (1, l) }) ∧
       (k < 32 → s.linkState k = 5 → l ∈ s.linkLanes k → st ≠ 0 → st ≠ 6 → st ≠ 10 → s.bit pl 0x100 16 = true →
         s.does (.downExpiry k) fun u => u.laneState l = 1 ∧ u.now = max s.now ((s.link k).downSince + 1000000)) ∧
       (s.linkState i ≠ 5 → exec (.downExpiry i) s = .next s))

/-- Sequence numbers and retries of a link (R301, R303 to R306): a frame ahead of its turn is held, one behind is a duplicate and is
acknowledged again, a bad one is discarded with a NAK; an acknowledgement frees the retry buffer; a NAK and a time-out put the
unacknowledged frames of the VC into the retry queue, from which they go out again in order, marked RETRY, on the link's Active lanes, until
RETRYMAX, which takes the link Down; a gap's frames are dropped after 200 ns. What a link that is not open for the VC would send stays. -/
def Obligations.LinkFramesAreOrdered : Prop :=
  ∀ (s : State) (rx : BvlRx) (i vc n a k w st code arg : Nat) (bs msg : List Byte) (v : VoteRec) (e : Kept) (f : HeldFrame),
    let h := rx.hdr
    let j := s.linkOfLane rx.lane
    let t := s.acked j h
    let want := (t.link j).expect h.vc
    let held := (t.link j).held
    let frames : List (Instr × BvlBody) := [(.data rx bs, .data bs), (.req rx a k w bs, .req a k w bs), (.rsp rx st bs, .rsp st bs),
      (.voteFrame rx v, .vote v), (.svc rx code arg msg, .svc code arg msg)]
    let again (vc n : Nat) (x : Kept) : Bool := x.hdr.vc == vc && seqLe n x.hdr.seq
    let tired (u : State) (i vc n : Nat) : Bool :=
      (u.link i).retry.any fun x => again vc n x && decide (u.lfld i 0x100 31 24 ≤ x.tries)
    let idle (u : State) (i : Nat) : Prop := (u.link i).wait = [] ∧ (u.link i).again = [] ∧ (u.link i).ctl = []
    let resent (u : State) (i vc n : Nat) : List (BvlHdr × BvlBody) :=
      ((u.link i).retry.filter (again vc n)).filterMap fun y =>
        ((u.link i).retry.find? fun z => z.hdr.vc == y.hdr.vc && z.hdr.seq == y.hdr.seq).map fun z =>
          ({ z.hdr with retry := true }, z.body)
    let goesOut (u v : State) (i : Nat) (r : List (BvlHdr × BvlBody)) : Prop := ∃ ls : List Nat, ls.length = r.length ∧
      v.out = u.out ++ (ls.zip r).map (fun y => .bvl i y.1 y.2.1 y.2.2) ∧ (u.activeLanes i ≠ [] → ∀ l ∈ ls, l ∈ u.activeLanes i)
    let nak (i vc : Nat) : Out := .bvl i (s.nextLane i .nak) (s.header vc ((s.link i).expect vc) 0 false false) .nak
    s.settled → (∀ m, (s.link m).peerOut = []) → i < 32 →
      (∀ x ∈ frames, s.takesFrame rx x.2 → h.seq ≠ want → seqLe want h.seq = true →
        (∀ y ∈ held, ¬ (y.hdr.vc = h.vc ∧ y.hdr.seq = h.seq)) → held.length < 16 →
        exec x.1 s = .next (t.setLink j { t.link j with held := held ++ [⟨h, x.2, t.now⟩] })) ∧
      (∀ x ∈ frames, s.takesFrame rx x.2 → seqLe want h.seq = false →
        exec x.1 s = .next ((t.lcount j 0x140).sendCtl j h.vc 0 (some (h.vc, (want + 65535) % 65536)) .ack)) ∧
      (∀ x ∈ frames, s.hearsFrame rx x.2 → frameGood rx x.2 = false → idle s j → s.does x.1 fun u =>
        u.reg (linkPage j) (linkOff j 0x140) = s.reg (linkPage j) (linkOff j 0x140) + 1 ∧ s.reported u (quadSrc rx.lane 0) ∧
        u.out = s.out ++ (if rx.vcOk = true ∧ s.vcOpen j h.vc = true then [nak j h.vc] else []) ∧
        (u.link j).retry = (s.link j).retry ∧ (u.link j).held = (s.link j).held ∧ (u.link j).rxSeq = (s.link j).rxSeq) ∧
      (s.takesFrame rx .ack → exec (.ack rx) s = .next t) ∧
      (idle s j → h.ack = some (vc, n) → t.out = s.out ∧ t.regs = s.regs ∧
        (t.link j).retry = (s.link j).retry.filter fun x => !(x.hdr.vc == vc && seqLe x.hdr.seq n)) ∧
      (s.takesFrame rx .nak → idle t j → t.vcOpen j h.vc = true → tired t j h.vc h.seq = false → s.does (.nak rx) fun u =>
        goesOut t u j (resent t j h.vc h.seq)) ∧
      (s.takesFrame rx .nak → tired t j h.vc h.seq = true → s.does (.nak rx) fun u =>
        u.linkState j = 5 ∧ (u.link j).retry = [] ∧ (u.link j).held = [] ∧ (u.link j).downSince = s.now ∧
        s.reported u (quadSrc j 1)) ∧
      ((s.link i).retry.find? (fun x => x.hdr.vc == vc) = some e → s.linkState i ≠ 0 → s.linkState i ≠ 5 → idle s i →
        s.vcOpen i vc = true → tired s i vc e.hdr.seq = false → s.does (.retryTimeout i vc) fun u =>
          goesOut s u i (resent s i vc e.hdr.seq) ∧ u.now = max s.now (e.since + 100 * s.lfld i 0x100 23 16)) ∧
      ((s.link i).retry.find? (fun x => x.hdr.vc == vc) = some e → s.linkState i ≠ 0 → s.linkState i ≠ 5 → idle s i →
        s.vcOpen i vc = false → tired s i vc e.hdr.seq = false → s.does (.retryTimeout i vc) fun u => u.out = s.out) ∧
      ((s.link i).retry.find? (fun x => x.hdr.vc == vc) = some e → s.linkState i ≠ 0 → s.linkState i ≠ 5 →
        tired s i vc e.hdr.seq = true → s.does (.retryTimeout i vc) fun u => u.linkState i = 5 ∧ (u.link i).retry = []) ∧
      ((s.link i).held.find? (fun x => x.hdr.vc == vc) = some f → idle s i → s.does (.reorderTimeout i vc) fun u =>
        (u.link i).held = ((s.link i).held.filter fun x => x.hdr.vc != vc) ∧
        u.out = s.out ++ (if s.vcOpen i vc = true then [nak i vc] else []) ∧ u.now = max s.now (f.since + 200)) ∧
      ((∀ x ∈ (s.link i).held, x.hdr.vc ≠ vc) → exec (.reorderTimeout i vc) s = .next s)

/-- What a frame that follows in order does (R302, R307, R309, R310, R312, R315): DATA goes to its RX record's pointer or is discarded;
REQ is issued at its target in pieces, a bad one answered with an error; RSP answers the request of its tag; VOTE goes to the
engine that holds its commit or is discarded with an advisory, one of an earlier frame counts as stray (R198); SVC 1 takes a lane out of
the rotation; TIME leaves its stamps, and the link followed moves TIME (R316; DESIGN CHOICE between two frames, assumption 27). -/
def Obligations.LinkFramesAreDelivered : Prop :=
  ∀ (s s3 : State) (rx : BvlRx) (q k n c a kind w tag status code arg tx rl tl y t tg : Nat) (bs msg : List Byte) (v : VoteRec)
    (p : PeerOut),
    let h := rx.hdr
    let i := s.linkOfLane rx.lane
    let b := s.acked i h
    let g := b.accepted i h
    let rec' := laneRec (g.lengine q).active k
    let ptr := AMap.get (g.lengine q).rxPtr (fun _ => 0) k
    let here : Prop := 16 ≤ i ∨ h.frameno = s.timeB.frameNo % 65536
    let size := if w = 6 then 64 else 2 ^ (w % 4)
    let load : Bool := kind == 1
    let base := if i < 16 then 0x8000 + 1024 * i else 0x2000 + 512 * (i - 16)
    let o : Origin := .peer i h.srcdev h.tag 0
    let x : PeerIn := ⟨h.srcdev, h.tag, h.plane, load, a, size, 0, if kind = 1 then [] else bs.take size, g.now⟩
    let req : FabReq := ⟨0x0300 + h.srcdev, if load then .load else .store, a, min 16 size,
      if load then 0 else BitVec.ofNat 128 (ofBytes ((bs.take size).take (min 16 size))), false, o, tag, 0⟩
    let good : Prop := (kind = 1 ∨ kind = 2) ∧ (w ≤ 3 ∨ w = 6) ∧ peerRange a = true
    let sent := ((g.setLink i { g.link i with peerIn := (g.link i).peerIn ++ [x] }).takeTag tag o).route req h.plane
    let lk := b.link i
    let flw := b.follow i tx rl tl
    let timeBody : BvlBody := .time tx rl tl
    s.settled →
      (s.takesFrame rx timeBody → i < 16 → b.lfld i 0x108 27 24 ≠ 1 → b.followLink ≠ some i ∨ b.fld pgTime 0x100 1 0 ≠ 3 →
        exec (.time rx tx rl tl) s = .next (b.setLink i { lk with timeLast := some (b.now, tx) })) ∧
      (s.takesFrame rx timeBody → i < 16 → b.lfld i 0x108 27 24 ≠ 1 → b.followLink = some i → b.fld pgTime 0x100 1 0 = 3 →
        b.timeB.pendSrc = none → s.does (.time rx tx rl tl) fun u =>
          flw.delay = (if tl = 0 then 0 else ((flw.arrived - tl) - (tx - rl)) / 2) ∧ flw.target = tx + flw.delay ∧
          u.lfld i 0x118 31 16 = flw.delay * 100 % 65536 ∧ u.bit (linkPage i) (linkOff i 0x118) 3 = decide (flw.row < 2) ∧
          (u.link i).timeLast = some (flw.arrived, tx) ∧ u.bit pgTime 0x108 4 = false ∧ u.now = flw.time) ∧
      (b.inOrder i h →
        (s.takesFrame rx (.data bs) → here → g.rxRecord i h.vc = none → exec (.data rx bs) s = .next g) ∧
        (s.takesFrame rx (.data bs) → ¬ here → exec (.data rx bs) s = .next (g.lcount i 0x140)) ∧
        (s.takesFrame rx (.data bs) → here → g.rxRecord i h.vc = some (q, k) → rec'.len < ptr + bs.length →
          exec (.data rx bs) s = .next (g.lcount i 0x140)) ∧
        (s.takesFrame rx (.data bs) → here → g.rxRecord i h.vc = some (q, k) → ptr + bs.length ≤ rec'.len →
          g.laneWrite q rec' (pieces (bs.length + 1) (rec'.buf + ptr) bs.length) bs 0 = (s3, n) → s3.settled →
          (∀ e ∈ (s3.link i).held, e.hdr.vc ≠ h.vc) → s.does (.data rx bs) fun u =>
            u.sram = s3.sram ∧ u.ddr = s3.ddr ∧ AMap.get (u.lengine q).rxPtr (fun _ => 0) k = ptr + bs.length ∧
            (n ≠ 0 → AMap.get (u.lengine q).written (fun _ => []) k =
              AMap.get (s3.lengine q).written (fun _ => []) k ++ [(ptr, ptr + n)]) ∧
            (n = 0 → (u.lengine q).written = (s3.lengine q).written)) ∧
        (s.takesFrame rx (.req a kind w bs) → i < 16 → ¬ good → exec (.req rx a kind w bs) s = .next (g.sendFrame i 1 h.tag h.plane (.rsp 1 []))) ∧
        (s.takesFrame rx (.req a kind w bs) → i < 16 → good → g.freeTag base 1024 = some tag → (∀ e ∈ (sent.link i).held, e.hdr.vc ≠ h.vc) →
          exec (.req rx a kind w bs) s = .next sent.settle) ∧
        (s.takesFrame rx (.rsp status bs) → i < 16 → (g.link i).peerOut.find? (fun z => z.tag == h.tag) = some p → p.origin = .tmi t tg →
          exec (.rsp rx status bs) s = .next ((g.setLink i { g.link i with peerOut := (g.link i).peerOut.erase p }).respond p.origin
            (if status = 0 then .ok (if p.load then BitVec.ofNat 128 (ofBytes (bs.take p.size)) else 0) else .err))) ∧
        (s.takesFrame rx (.vote v) → i < 16 → g.voteHolders v = [] → exec (.voteFrame rx v) s = .next ((g.lcount i 0x140).advisory (pgBvl i) 2 0xFF)) ∧
        (s.takesFrame rx (.vote v) → g.voteHolders v = [(n, c)] → g.engineRuns n = true → v.frame < g.timeB.frameNo →
          exec (.voteFrame rx v) s = .next (g.lateVote n)) ∧
        (s.takesFrame rx (.vote v) → g.voteHolders v = [(n, c)] → g.engineRuns n = true → g.timeB.frameNo ≤ v.frame → AMap.find? (g.engine n).ballots c = none →
          (∀ z ∈ (g.engine n).votes, ¬ (z.dev = v.dev ∧ z.group = v.group ∧ z.key = v.key ∧ z.frame = v.frame)) →
          exec (.voteFrame rx v) s = .next (g.setEngine n { g.engine n with votes := (g.engine n).votes ++ [v] })) ∧
        (s.takesFrame rx (.svc 1 arg msg) → s.linkUp i = true → (g.linkLanes i)[arg]? = some y → y ∈ g.activeLanes i → 2 ≤ (g.activeLanes i).length →
          s.does (.svc rx 1 arg msg) fun u => y ∈ (u.link i).away ∧ u.linkState i ≠ 5 ∧ y ∉ u.activeLanes i) ∧
        (s.takesFrame rx (.svc code arg msg) → code = 0 ∨ 5 ≤ code → exec (.svc rx code arg msg) s = .next g))

/-- What a link does of itself, and its registers (R270, R299, R305 to R307, R315, R317): TIME frames of a master, and of a follower;
holdover and its end; the 500 us of a peer transaction; BLCFG, refused as a whole off its ranges or with the link up; RESTART. -/
def Obligations.LinkTimersAndRegisters : Prop :=
  ∀ (s : State) (iid i q l tag dev t tg role : Nat) (z : Nat × Nat) (p : PeerOut) (x : PeerIn) (v new : Word),
    let k := s.link i
    let last := k.timeLast.getD (0, 0)
    let src := s.fld pgTime 0x100 1 0
    let stamps : BvlBody := .time s.now last.1 last.2
    let lanes := bitsOf new 2 0
    let mask := bitsOf new 47 32
    let old := s.lfld i 0x100 47 32
    let off := linkOff i 0x100
    let others (m : Nat) : Prop := m < 16 ∧ m ≠ i ∧ bitAt mask m = true
    let ranges : Prop := (i < 16 → lanes = 1 ∨ lanes = 2 ∨ lanes = 4) ∧ (16 ≤ i → lanes = 1) ∧ bitsOf new 31 24 ≠ 0 ∧ bitsOf new 23 16 ≠ 0
    let free : Prop := i < 16 → bitAt mask i = true ∧ ∀ m, others m →
      i < m ∧ s.ownLink m = false ∧ (s.linkState m = 6 → s.linkOfLane m = i)
    i < 32 → s.settled →
      (i < 16 → s.lfld i 0x118 1 0 = role → role = 1 ∧ src ≠ 3 ∨ role = 2 ∧ src = 3 → s.vcOpen i 0 = true →
        s.partnerMaster i = true → s.lfld i 0x108 27 24 ≠ 1 → k.wait = [] → k.again = [] → k.ctl = [] → s.does (.timeSend i) fun u =>
          u.out = s.out ++ [.bvl i (s.nextLane i (stamps)) (s.header 0 0 0 false false) (stamps)]) ∧
      (s.lfld i 0x118 1 0 = 0 → exec (.timeSend i) s = .next s) ∧
      (s.followLink = some i → k.timeLast = some z → s.bit (linkPage i) (linkOff i 0x118) 2 = true → s.fld pgTime 0x108 1 0 = 3 →
        s.bit pgTime 0x108 4 = false → s.does .holdover fun u =>
          u.bit pgTime 0x108 4 = true ∧ s.reported u 0x1ED ∧ u.now = max s.now (z.1 + 10000) ∧ u.fld pgTime 0x108 1 0 = 3) ∧
      (s.followLink = none → exec .holdover s = .next s) ∧
      (s.bit pgTime 0x108 4 = true → s.followLink = some i → k.timeLast = some z → s.fld pgTime 0x108 1 0 ≠ 0 →
        s.does .holdoverExpiry fun u => u.fld pgTime 0x108 1 0 = 0 ∧ u.bit pgTime 0x108 4 = false ∧ s.reported u 0x1ED ∧
          u.now = max s.now (z.1 + 1000010000)) ∧
      (s.bit pgTime 0x108 4 = false → exec .holdoverExpiry s = .next s) ∧
      (k.peerOut.find? (fun y => y.tag == tag) = some p → p.origin = .tmi t tg → s.does (.peerHoldTimeout i tag false dev) fun u =>
        u.resps = s.resps ++ [(p.origin, .err)] ∧ u.link i = { k with peerOut := k.peerOut.erase p } ∧
        u.now = max s.now (p.since + 500000)) ∧
      (k.serving dev tag = some x → exec (.peerHoldTimeout i tag true dev) s =
        .next (((s.advance (x.since + 500000)).setLink i (k.dropServing x.dev x.tag)).sendFrame i 1 x.tag x.plane (.rsp 1 []))) ∧
      (s.reaches iid (linkPage i) off 8 v (if i < 16 then .bvl else .eth) (i % 16) new → (16 ≤ i → s.laneProto i = 1) →
        s.locked (linkPage i) = false →
        (ranges → free → s.linkState i = 0 ∨ s.linkState i = 5 → s.does (.blcfgWrite iid i v) fun u =>
          u.reg (linkPage i) off = new ∧
          (i < 16 → ∀ m, others m → u.linkState m = 6 ∧ u.linkOfLane m = i) ∧
          (i < 16 → ∀ m, m < 16 → m ≠ i → bitAt old m = true → bitAt mask m = false → u.linkState m = 0 ∧ u.linkOfLane m = m)) ∧
        (¬ ranges ∨ ¬ free ∨ s.linkState i ≠ 0 ∧ s.linkState i ≠ 5 →
          exec (.blcfgWrite iid i v) s = .next (s.setLfld i 0x108 16 16 1))) ∧
      (q < 8 → l < 4 → s.reaches 0x0201 (pgLaneq q) 0x100 8 1 .laneq q new → s.quadIsolated q = true → s.does (.restart 0x0201 q) fun u =>
        u.quadIsolated q = false ∧ u.bit (pgLaneq q) 0x108 8 = false ∧
        (s.laneState (4 * q + l) = 10 → u.laneState (4 * q + l) =
          if s.bit (pgLane (4 * q + l)) 0x100 16 = false ∨ s.quadOn q = false then 0
          else if s.dsafe = true ∧ 4 ≤ q then 10 else 1))

/-- The MACs of the rack lanes and the management ports (R319, R321, R344): a frame past the filter is counted; a PAUSE or PFC frame
and a frame of less than 64 bytes is discarded; a best-effort frame goes to the buffer of the next receive descriptor, which returns with its length and status, or is
dropped; the frame of a transmit descriptor is sent with its FCS and the descriptor returned, one of a length that a MAC does not send returns
with ERR (DESIGN CHOICE, assumption 69); one that software owns stops its ring; a tail write stores the tail.

CAN FD (R341, R342): a header write queues its mailbox, one of a queued mailbox is refused; the frame in front is sent, or
loses arbitration, or fails and counts, up to bus-off, and is repeated but for ONESHOT; a received frame that a filter takes goes to the ring, or is dropped where the ring has no room; RECOVER
and the recovery sequence end bus-off. -/
def Obligations.EthernetAndCanFrames : Prop :=
  (∀ (s s1 s2 s3 : State) (iid m : Nat) (rx ok ok2 : Bool) (v new : Word) (f : EthFrame) (d bs : List Byte),
     let p := macPage m
     let ptr := if rx then 0x130 else 0x128
     let type := frameType f.bytes
     let status := ethStatus f
     let size := f.bytes.length
     let takes : Prop := s.macOn m = true ∧ s.macTakes m f.bytes = true
     let c := s.count p (if status ≠ 0 then 0x150 else 0x148)
     let ring : Prop := ¬ (16 ≤ m ∧ status = 0 ∧ type = s.fld pgSvc 0x110 15 0) ∧
       ¬ (m < 16 ∧ s.fld (pgEth m) 0x110 15 0 ≠ 0 ∧ type = s.fld (pgEth m) 0x110 15 0)
     let head := s.fld p 0x130 43 32
     let a := s.descAt m 0x120 head
     let empty : Prop := s.fld p 0x120 63 60 = 0 ∨ head = s.fld p 0x130 11 0
     let own : Prop := bitAt (ofBytes ((d.drop 10).take 2)) 0 = true
     let room := ofBytes ((d.drop 8).take 2)
     let flags := if status = 0 then 2 else 6
     let back (now : Nat) := d.take 8 ++ toBytes size 2 ++ toBytes flags 2 ++ toBytes status 4 ++ toBytes now 8 ++
       List.replicate 8 0
     let thead := s.fld p 0x128 43 32
     let b := s.descAt m 0x118 thead
     let idle : Prop := s.macOn m = false ∨ s.fld p 0x118 63 60 = 0 ∨ thead = s.fld p 0x128 11 0
     let sent := (s2.emit (.eth m (ethWire bs) s2.now)).count p 0x140
     let unsent := s1.setFld p 0x138 1 1 0
     let done (flags now : Nat) := d.take 10 ++ toBytes flags 2 ++ List.replicate 4 0 ++ toBytes now 8 ++ List.replicate 8 0
     m < 18 → s.settled →
       (s.reaches iid p ptr 8 v (if m < 16 then .eth else .mgmt) (m % 16) new → s.does (.tailWrite iid m rx v) fun u =>
         u.reg p ptr = new ∧ s.onlyRegs u [(p, ptr)]) ∧
       (¬ takes → exec (.ethernetFrame m f) s = .next s) ∧
       (takes → size < 60 → exec (.ethernetFrame m f) s = .next (s.count p 0x150)) ∧
       (takes → 60 ≤ size → status = 0 → type = 0x8808 → exec (.ethernetFrame m f) s = .next (s.count p 0x160)) ∧
       (takes → 60 ≤ size → status ≠ 0 ∨ type ≠ 0x8808 → ring →
         (empty → exec (.ethernetFrame m f) s = .next (c.count p 0x158)) ∧
         (¬ empty → c.memRead (macIid m) a 32 = (s1, some d) → s1.settled → ¬ own →
           exec (.ethernetFrame m f) s = .next ((s1.setFld p 0x138 2 2 1).count p 0x158)) ∧
         (¬ empty → c.memRead (macIid m) a 32 = (s1, some d) → own → size ≤ room →
           (s1.setFld p 0x138 2 2 0).memWrite (macIid m) (ofBytes (d.take 8)) f.bytes = (s2, ok) →
           s2.memWrite (macIid m) a (back s2.now) = (s3, ok2) → s3.settled → s3.fld p 0x120 63 60 ≤ 12 →
           s.does (.ethernetFrame m f) fun u => u.sram = s3.sram ∧ u.ddr = s3.ddr ∧
             u.fld p 0x130 43 32 = (s3.fld p 0x130 43 32 + 1) % 2 ^ s3.fld p 0x120 63 60)) ∧
       (idle → exec (.transmitDescriptorReturned m) s = .next s) ∧
       (¬ idle → s.memRead (macIid m) b 32 = (s1, some d) → s1.settled → ¬ own →
         exec (.transmitDescriptorReturned m) s = .next (s1.setFld p 0x138 1 1 1)) ∧
       (¬ idle → s.memRead (macIid m) b 32 = (s1, some d) → own → s.fld p 0x118 63 60 ≤ 12 →
         (ethLength room = true → unsent.memRead (macIid m) (ofBytes (d.take 8)) room = (s2, some bs) →
           sent.memWrite (macIid m) b (done 2 sent.now) = (s3, ok) → s3.settled → s.does (.transmitDescriptorReturned m) fun u =>
             u.sram = s3.sram ∧ u.ddr = s3.ddr ∧ u.out = s3.out ∧
             u.fld p 0x128 43 32 = (thead + 1) % 2 ^ s.fld p 0x118 63 60) ∧
         (ethLength room = false → unsent.memWrite (macIid m) b (done 4 unsent.now) = (s3, ok) → s3.settled →
           s.does (.transmitDescriptorReturned m) fun u => u.sram = s3.sram ∧ u.ddr = s3.ddr ∧ u.out = s3.out ∧
             u.fld p 0x128 43 32 = (thead + 1) % 2 ^ s.fld p 0x118 63 60))) ∧
  (∀ (s s1 : State) (iid k m r : Nat) (ms : List Nat) (v new hdr : Word) (bs : List Byte),
     let p := pgCan k
     let c := s.can k
     let data := (List.range 8).foldl (fun a j => a ++ toBytes (s.reg p (0x400 + 0x80 * m + 8 * j)).toNat 8) []
     let tec := s.fld p 0x110 15 8
     let n := s.fld p 0x300 63 60
     let head := s.fld p 0x308 43 32
     let takes : Prop := s.canOn k = true ∧ s.canMatch k (bitsOf hdr 28 0) = true
     let full : Prop := n = 0 ∨ head = s.fld p 0x308 11 0
     let rec' := toBytes s.now 8 ++ toBytes hdr.toNat 8 ++ (bs ++ List.replicate 64 0).take 64 ++ List.replicate 48 0
     k < 4 → s.settled →
       (m < 16 → s.reaches iid p (mbHead m) 8 v .canfd k new →
         (s.fld p (mbState m) 1 0 ≠ 1 → s.does (.mailboxHeaderWrite iid k m v) fun u =>
           u.reg p (mbHead m) = new ∧ u.fld p (mbState m) 1 0 = 1 ∧ (u.can k).queue = c.queue ++ [m]) ∧
         (s.fld p (mbState m) 1 0 = 1 → exec (.mailboxHeaderWrite iid k m v) s = .next (s.setFld p 0x110 24 24 1))) ∧
       (m < 16 → c.queue = m :: ms → s.canOn k = true → s.does (.canFrameSent k 0) fun u =>
         u.out = s.out ++ [.can k (s.reg p (mbHead m)) data] ∧ (u.can k).queue = ms ∧ u.fld p (mbState m) 1 0 = 2 ∧
         u.fld p 0x110 15 8 = tec - 1) ∧
       (m < 16 → c.queue = m :: ms → s.canOn k = true → 0 < r → s.does (.canFrameSent k r) fun u =>
         (r = 1 → u.fld p 0x110 15 8 = tec) ∧ (1 < r → u.fld p 0x110 15 8 = min (tec + 8) 255) ∧ u.out = s.out ∧
         (s.bit p 0x108 2 = true → (u.can k).queue = ms ∧ u.fld p (mbState m) 1 0 = 3) ∧
         (s.bit p 0x108 2 = false → (u.can k).queue = c.queue) ∧
         (1 < r → 255 < tec + 8 → u.fld p 0x110 1 0 = 2 ∧ s.reported u 0x1EB)) ∧
       (c.queue = [] ∨ s.canOn k = false → exec (.canFrameSent k r) s = .next s) ∧
       (¬ takes → exec (.canFrameReceived k hdr bs) s = .next s) ∧
       (takes → full → exec (.canFrameReceived k hdr bs) s = .next (s.setCan k { c with dropped := c.dropped + 1 })) ∧
       (takes → ¬ full → n ≤ 12 → s.memWrite 0x0240 (s.fld p 0x300 47 5 * 32 + 128 * head) rec' = (s1, true) → s1.settled →
         s.does (.canFrameReceived k hdr bs) fun u =>
           u.sram = s1.sram ∧ u.ddr = s1.ddr ∧ u.fld p 0x308 43 32 = (head + 1) % 2 ^ n) ∧
       (s.reaches iid p 0x108 8 (s.reg p 0x108 ||| 8) .canfd k new → s.does (.recover iid k) fun u =>
         (s.fld p 0x110 1 0 = 2 → (u.can k).recovering = true) ∧ (s.fld p 0x110 1 0 ≠ 2 → u.cans = s.cans)) ∧
       (c.recovering = true → s.does (.recoverySequenceComplete k) fun u =>
         (u.can k).recovering = false ∧ u.fld p 0x110 1 0 = 0 ∧ u.fld p 0x110 15 8 = 0 ∧ u.fld p 0x110 23 16 = 0) ∧
       (c.recovering = false → exec (.recoverySequenceComplete k) s = .next s))

/-! The VME port. -/

/-- The outbound side of the VME port (R324 to R327, R332, R333, R335): an access is translated by the enabled window that holds it
and queued, a triad's store answered at once while its posted room lasts, one that no window takes answered with a bus error; the
entry in front goes out in its cycles and is answered; BERR, the bus timer and the 900 us limit end it with an error that is recorded and
reported; the bus timer ends an inbound write that waits; an IACK cycle fills the FIFO; discovery reads C and R, judges the claims, probes,
and ends the entry's DBUSY.

The bus side and the registers of the VME port (R325, R329, R331 to R335): a cycle in an enabled image stores or loads and is
answered with DTACK, a barred one with BERR, its CR as a ROM; SYSRESET* drops the queue; levels asserted bring IACK cycles; an IACK answers the level
of VIRQ with STATID; VINTPOP takes the oldest entry; writes off their ranges are refused whole. -/
def Obligations.VmePort : Prop :=
  (∀ (s : State) (r : FabReq) (e : VmeEntry) (rs : List FabReq) (es : List VmeEntry) (q : Quad) (done t g w n p c : Nat) (v : CrView)
     (d : Disc) (bs : List Byte) (x : Nat × VmeCycle) (xs : List (Nat × VmeCycle)),
     let at' := s.reg pgVmemap (owReg w 0x18)
     let part := bitsOf at' 12 8
     let sp := bitsOf at' 5 4
     let va := r.addr - (s.reg pgVmemap (owReg w 0)).toNat + (s.reg pgVmemap (owReg w 0x10)).toNat
     let post : Prop := r.iid < 64 ∧ (r.kind = .store ∨ r.kind = .frame)
     let usable : Prop := s.dbusy part = false ∧ s.pres part 6 4 ≠ 0 ∧ bitAt (s.pres part 11 8) sp = true
     let gone : State := { s with vmeIn := rs }
     let entry (b : Bool) : VmeEntry := ⟨.access r, va, sp, part, bitsOf at' 1 1 == 1, bitsOf at' 2 2 == 1, b, s.now, false⟩
     let noIrq : Prop := s.vme.lines = [] ∧ s.bit pgVme 0x118 16 = false
     let noDisc : Prop := s.vme.disc = none ∧ ∀ p, p < 32 → s.dbusy p = false
     let front : Prop := s.vme.queue = e :: es ∧ noIrq ∧ noDisc ∧ e.work = .access r ∧ s.ownCycle e = false
     let cycles := s.entryCycles e
     let upTo (n : Nat) := (cycles.filter fun c => decide (c.addr ≤ e.vaddr + n)).map .vmeCycle
     let width := if s.fld pgVme 0x120 25 24 = 0 then 256 else if s.fld pgVme 0x120 25 24 = 1 then 65536 else 4294967296
     let failed (u : State) (a cause : Nat) : Prop :=
       u.vme.queue = es ∧ u.reg pgVme 0x150 = s.reg pgVme 0x150 + 1 ∧ s.reported u 0x1E8 ∧
       (e.posted = false → u.resps = s.resps ++ [(r.origin, .err)]) ∧ (e.posted = true → u.resps = s.resps) ∧
       (s.bit pgVme 0x138 0 = false →
         u.reg pgVme 0x130 = BitVec.ofNat 64 a ∧ u.bit pgVme 0x138 0 = true ∧ u.fld pgVme 0x138 7 4 = cause)
     s.settled → r.origin = .tmi t g →
       (s.vmeIn = [] → exec .outboundAccess s = .next s) ∧
       (s.vmeIn = r :: rs → s.vmeOn = true → s.owFind r.addr = some w → usable → s.vme.queue.length < 24 → ¬ post →
         exec .outboundAccess s = .next (gone.setVmeQueue (s.vme.queue ++ [entry false]))) ∧
       (s.vmeIn = r :: rs → s.vmeOn = true → s.owFind r.addr = some w → usable → s.vme.queue.length < 24 → post → s.postedCount < 16 →
         s.does .outboundAccess fun u => u.vme.queue = s.vme.queue ++ [entry true] ∧ u.vmeIn = rs ∧
           u.resps = s.resps ++ [(r.origin, .ok 0)] ∧ (u.triad r.iid).posted = (s.triad r.iid).posted + 1) ∧
       (s.vmeIn = r :: rs → s.vmeOn = false ∨ s.owFind r.addr = none ∨ s.owFind r.addr = some w ∧ ¬ usable →
         exec .outboundAccess s = .next (gone.respond r.origin .err)) ∧
       (s.vmeOn = false ∨ s.vme.queue = [] ∧ s.vme.lines = [] → exec (.queueEntry (.ok q)) s = .next s) ∧
       (s.vmeIn = r :: rs → s.vmeOn = true → s.owFind r.addr = some w → usable → 24 ≤ s.vme.queue.length →
         exec .outboundAccess s = .next s) ∧
       (s.vmeOn = true → front → s.does (.queueEntry (.ok q)) fun u =>
         u.vme.queue = es ∧ u.out = s.out ++ cycles.map .vmeCycle ∧ u.reg pgVme 0x140 = s.reg pgVme 0x140 + 1 ∧
         (e.posted = false → u.resps = s.resps ++ [(r.origin, .ok (if r.kind = .load ∨ r.kind = .tas then lowBytes q r.size else 0))]) ∧
         (e.posted = true → u.resps = s.resps ∧ (r.iid < 64 → (u.triad r.iid).posted = (s.triad r.iid).posted - 1))) ∧
       (s.vmeOn = true → front → s.does (.queueEntry (.err done)) fun u =>
         failed u (e.vaddr + done) 0 ∧ u.out = s.out ++ upTo done) ∧
       (s.vmeOn = true → s.vme.slot1 = true → s.vme.heldIn = [] → front → s.does (.busTimer done) fun u =>
         failed u (e.vaddr + done) 1 ∧ u.out = s.out ++ upTo done ∧ u.now = max s.now (e.since + s.busLimit)) ∧
       (s.vmeOn = true → s.vme.slot1 = true → s.vme.heldIn = x :: xs → s.does (.busTimer done) fun u =>
         u.out = s.out ++ [.vmeAnswer false 0] ∧ u.vme.heldIn = xs ∧ u.vme.queue = s.vme.queue) ∧
       (s.vme.slot1 = false → exec (.busTimer done) s = .next s) ∧
       (front → s.does .queueTimeout fun u => failed u e.vaddr 2 ∧ u.now = max s.now (e.since + 900000)) ∧
       (s.vmeOn = true → s.vme.queue = e :: es → e.work = .iack n → s.vme.lines = [n] → s.bit pgVme 0x118 16 = false → noDisc →
         n < 8 → s.does (.queueEntry (.ok q)) fun u => u.vme.lines = [] ∧ u.vme.queue = es ∧
           u.vme.fifo = s.vme.fifo ++ [BitVec.ofNat 64 (2 ^ 63 + n * 2 ^ 32 + q.toNat % width)]) ∧
       (s.vmeOn = true → s.vme.queue = e :: es → e.work = .discover p → s.ownCycle e = false → s.vme.disc = some d → d.p = p → noIrq →
         p < 32 →
         (d.step = .c → q.toNat % 256 ≠ 0x43 → s.does (.queueEntry (.ok q)) fun u =>
           u.dbusy p = false ∧ u.pres p 6 4 = 3 ∧ u.pres p 19 16 = s.pcfg p 35 32 ∧ s.reported u 0x1E9) ∧
         (d.step = .c → q.toNat % 256 = 0x43 → es.length < 24 → (∀ y ∈ es, ∀ z, y.work ≠ .discover z) →
           s.does (.queueEntry (.ok q)) fun u => u.vme.disc = some { d with step := .r } ∧ u.vme.queue =
             es ++ [⟨.discover p, s.pcfg p 12 8 * 0x80000 + 0x23, 4, p, true, false, false, s.now, false⟩]) ∧
         (d.step = .cr → v.sumOk = false ∨ crBad v = true → s.does (.queueEntry (.cr v)) fun u =>
           u.dbusy p = false ∧ u.pres p 6 4 = 4 ∧ s.reported u 0x1E9) ∧
         (d.step = .cr → v.sumOk = true → crBad v = false → d.lowered = 0 →
           topBit v.protos (if s.bit pgVme 0x100 2 then s.pcfg p 43 40 else min (s.pcfg p 43 40) 2) = c →
           s.pcfg p 1 1 = 0 ∨ c = 0 → s.does (.queueEntry (.cr v)) fun u =>
             u.dbusy p = false ∧ u.pres p 6 4 = 1 ∧ u.pres p 19 16 = c ∧ u.pres p 11 8 = v.spaces % 16) ∧
         (d.step = .block c → topBit d.view.protos (c - 1) = 0 → s.does (.queueEntry (.err done)) fun u =>
           u.dbusy p = false ∧ u.pres p 6 4 = 2 ∧ u.pres p 19 16 = 0 ∧ s.reported u 0x1E9) ∧
         (d.step = .single c bs → c < 16 → s.does (.queueEntry (.bytes bs)) fun u =>
           u.dbusy p = false ∧ u.pres p 6 4 = (if d.lowered = 0 then 1 else 2) ∧ u.pres p 19 16 = c))) ∧
  (∀ (s s1 : State) (c : VmeCycle) (iid i n p off : Nat) (v e new : Word) (es : List Word) (bs : List Byte)
     (ps : List Nat),
     let at' := s.reg pgVmemap (iwReg i 0x18)
     let barred : Prop := bitsOf at' 3 3 = 1 ∧ c.sup = false ∨ c.rmw = true ∨ c.write = true ∧ bitsOf at' 2 2 = 0 ∨
       c.write = false ∧ bitsOf at' 1 1 = 0
     let a := c.addr - (s.reg pgVmemap (iwReg i 0)).toNat + (s.reg pgVmemap (iwReg i 0x10)).toNat
     let mine : Prop := s.vmeOn = true ∧ s.slaveIgnores c = false
     let here : Prop := mine ∧ c.space < 4 ∧ s.iwFind c.space c.addr = some i
     let inCr : Prop := mine ∧ c.space = 4 ∧ s.vmeSlot = some (c.addr / 0x80000)
     let noIrq : Prop := s.bit pgVme 0x118 16 = false
     let tmi (o : Origin) : Prop := ∃ t g, o = .tmi t g
     let refused : State := s.setFld pgVme 0x110 13 13 1
     let vr := s.reg pgVme 0x100
     let others : Prop := (vr &&& ~~~ (1 : Word)) ≠ (new &&& ~~~ (1 : Word))
     let setsSys : Prop := bitsOf vr 1 1 = 0 ∧ bitsOf new 1 1 = 1
     let vcfgBad : Prop := bitsOf vr 0 0 = 1 ∧ others ∨ 5 < bitsOf new 27 24 ∨ 1 < bitsOf new 17 16 ∨
       setsSys ∧ (s.vmeSlot ≠ some 1 ∧ s.vmeSlot ≠ none ∨ s.xtal = false) ∨
        bitsOf vr 0 0 = 0 ∧ bitsOf new 0 0 = 1 ∧ s.legacyOn = false
     let after := s.setReg pgVmemap off new
     let mapOk : Prop := if off < 0x300 then after.owOk = true else if off < 0x400 then after.iwOk = true else True
     let pcfgBad : Prop := 6 < bitsOf new 35 32 ∨ 6 < bitsOf new 43 40 ∨ 21 < bitsOf new 12 8 ∨ bitsOf new 43 40 < bitsOf new 35 32 ∨
       protoWidth (bitsOf new 35 32) (bitsOf new 21 20) = false ∨ s.dbusy p = true
     let named := (List.range 32).filter fun x => bitAt (v.toNat % 2 ^ 32) x && decide (s.pcfg x 0 0 = 1)
     s.settled →
       (here → ¬ barred → s.tandemIn i = none → c.write = true → s.memWrite 0x0241 a (toBytes c.data.toNat c.size) = (s1, true) →
         s1.settled → s.does (.inboundCycle c) fun u => u.sram = s1.sram ∧ u.ddr = s1.ddr ∧ u.out = s1.out ++ [.vmeAnswer true 0]) ∧
       (here → ¬ barred → s.tandemIn i = none → c.write = false → s.memRead 0x0241 a c.size = (s1, some bs) → s1.settled →
         s.does (.inboundCycle c) fun u => u.out = s1.out ++ [.vmeAnswer true (BitVec.ofNat 128 (ofBytes bs))]) ∧
       (here → barred → s.does (.inboundCycle c) fun u => u.out = s.out ++ [.vmeAnswer false 0] ∧ s.reported u 0x1E8 ∧
         u.reg pgVme 0x158 = s.reg pgVme 0x158 + 1 ∧ u.sram = s.sram ∧ u.ddr = s.ddr) ∧
       (inCr → c.write = true ∨ c.rmw = true → s.does (.inboundCycle c) fun u => u.out = s.out ++ [.vmeAnswer false 0]) ∧
       (inCr → c.write = false → c.rmw = false → c.size = 1 → (off, n) ∈ [(0x1F, 0x43), (0x23, 0x52)] → c.addr % 0x80000 = off →
         s.does (.inboundCycle c) fun u => u.out = s.out ++ [.vmeAnswer true (BitVec.ofNat 128 n)]) ∧
       (s.vmeOn = false ∨ s.slaveIgnores c = true ∨ c.space < 4 ∧ s.iwFind c.space c.addr = none → exec (.inboundCycle c) s = .next s) ∧
       (s.vmeOn = false → exec .sysresetIn s = .next s) ∧
       (s.vmeOn = true → (∀ x ∈ s.vme.queue, ∀ r, x.work = .access r → tmi r.origin) → s.does .sysresetIn fun u =>
         (∀ x ∈ u.vme.queue, ∃ z, x.work = .discover z) ∧ u.bit pgVme 0x110 12 = true ∧ u.vme.heldIn = [] ∧
         (∀ x ∈ s.vme.queue, ∀ r, x.work = .access r → x.posted = false → (r.origin, .err) ∈ u.resps)) ∧
       (s.does .sysresetExpiry fun u => u.vme.sysrst = false ∧ u = { s with vme := u.vme } ∧
         u.vme.reset = (s.bit pgVme 0x110 11 && !s.vme.stopped && s.bit pgVme 0x108 2)) ∧
       (s.reaches iid pgVme 0x100 8 v .vme 0 new →
         (vcfgBad → exec (.vcfgWrite iid v) s = .next refused) ∧
         (¬ vcfgBad → s.does (.vcfgWrite iid v) fun u => u.reg pgVme 0x100 = new ∧ u.fld pgVme 0x110 11 11 = bitsOf new 1 1 ∧
           u.vme.slot1 = (decide (bitsOf new 1 1 = 1) && !s.vme.stopped) ∧ (setsSys → u.vme.sysrst = true) ∧ (bitsOf new 1 1 = 0 → u.vme.sysrst = false))) ∧
       (s.reaches iid pgVme 0x118 8 v .vme 0 new →
         (s.bit pgVme 0x118 16 = true → exec (.virqWrite iid v) s = .next refused) ∧
         (s.bit pgVme 0x118 16 = false → s.does (.virqWrite iid v) fun u =>
           u.bit pgVme 0x118 16 = decide (bitsOf new 2 0 ≠ 0) ∧ u.fld pgVme 0x118 15 0 = bitsOf new 15 0)) ∧
       (1 ≤ n → n ≤ 7 → s.vmeOn = true → s.bit pgVme 0x118 16 = true → s.fld pgVme 0x118 2 0 = n → s.does (.iack n) fun u =>
         u.bit pgVme 0x118 16 = false ∧ u.out = s.out ++ [.vmeAnswer true (BitVec.ofNat 128 (s.fld pgVme 0x118 15 8))]) ∧
       (s.fld pgVme 0x118 2 0 ≠ n → exec (.iack n) s = .next s) ∧
       (1 ≤ n → n ≤ 7 → s.vmeOn = true → noIrq → s.vme.lines = [] → s.vme.queue = [] → s.vme.fifo.length < 16 → s.bit pgVme 0x120 n = true →
         s.does (.irqAsserted n) fun u => u.vme.lines = [n] ∧ u.vme.queue = [⟨.iack n, 0, 0, 0, false, false, false, s.now, false⟩]) ∧
       (1 ≤ n → n ≤ 7 → noIrq → s.vme.lines = [] → s.bit pgVme 0x120 n = false →
         exec (.irqAsserted n) s = .next { s with vme := { s.vme with lines := [n] } }) ∧
       (s.pageFor iid (regAddr pgVme 0x128) 8 .load = (s, some (.vme, 0)) → noIrq → s.vme.lines = [] → s.vme.fifo = e :: es →
         exec (.vintpopRead iid) s = .next { s with vme := { s.vme with fifo := es } }) ∧
       (s.reaches iid pgVmemap off 8 v .vmemap 0 new → 0x100 ≤ off →
         (mapOk → s.does (.vmemapWrite iid off v) fun u => u.reg pgVmemap off = new ∧ s.onlyRegs u [(pgVmemap, off)]) ∧
         (¬ mapOk → exec (.vmemapWrite iid off v) s = .next refused)) ∧
       (p < 32 → s.reaches iid pgVmepart (0x100 + 0x20 * p) 8 v .vmepart 0 new →
         (¬ pcfgBad → s.does (.pcfgWrite iid p v) fun u =>
           u.reg pgVmepart (0x100 + 0x20 * p) = new ∧ s.onlyRegs u [(pgVmepart, 0x100 + 0x20 * p)]) ∧
         (pcfgBad → exec (.pcfgWrite iid p v) s = .next (s.setFld pgVmepart 0x508 32 32 1))) ∧
       (s.reaches iid pgVmepart 0x500 8 v .vmepart 0 new →
         (s.fld pgVmepart 0x508 31 0 = 0 → s.legacyOn = true → s.vme.disc = none →
           (named = [] → exec (.discWrite iid v) s = .next s) ∧
           (named = p :: ps → s.pcfg p 2 2 = 1 → s.does (.discWrite iid v) fun u =>
             u.dbusy p = false ∧ u.pres p 6 4 = 5 ∧ u.pres p 19 16 = s.pcfg p 35 32) ∧
           (named = p :: ps → s.pcfg p 2 2 = 0 → s.pcfg p 12 8 = 0 → s.does (.discWrite iid v) fun u =>
             u.dbusy p = false ∧ u.pres p 6 4 = 3 ∧ u.pres p 19 16 = s.pcfg p 35 32) ∧
           (named = p :: ps → s.pcfg p 2 2 = 0 → s.pcfg p 12 8 ≠ 0 → s.vme.stopped = false → s.vme.queue.length < 24 →
             (∀ y ∈ s.vme.queue, ∀ z, y.work ≠ .discover z) → s.does (.discWrite iid v) fun u =>
               u.vme.queue = s.vme.queue ++ [⟨.discover p, s.pcfg p 12 8 * 0x80000 + 0x1F, 4, p, true, false, false, s.now, false⟩] ∧
               ∀ x, x < 32 → (u.dbusy x = true ↔ x ∈ named))) ∧
         (s.fld pgVmepart 0x508 31 0 ≠ 0 ∨ s.legacyOn = false →
           exec (.discWrite iid v) s = .next (s.setFld pgVmepart 0x508 32 32 1))))

/-! The fieldbus ports. -/

/-- UART, I2C and GPIO (R343, R346, R347, R395): UDATA queues a character while there is room and takes the oldest received one; an
address character selects what is kept; UART0's characters go to the service channel while channel 2 is on; ICMD issues its bus
command, whose byte or acknowledge enters IRES; GSET and GCLR set and clear outputs; an enabled edge sets GEDGE.

The management ports (R344): MDIO.GO starts a Clause 22 frame, a write meanwhile changes nothing; the frame's end clears GO and,
for a read, stores its data; a PHY that loses its link is reported. -/
def Obligations.LowSpeedPorts : Prop :=
  (∀ (s : State) (iid k ch err data cmd d levels : Nat) (ack : Bool) (cs : List Nat) (rest : List (Nat × Nat)) (v new : Word),
     let u := s.uart k
     let p := pgUart k
     let c := s.i2c k
     let lost : Prop := u.driving = true ∧ s.bit p 0x100 9 = false
     let addressed : Prop := s.bit p 0x100 7 = true ∧ s.bit p 0x118 8 = true
     let slip : Prop := k = 0 ∧ s.chanOn 2 = true
     let cmds : List (Instr × Nat × Nat) := [(.icmdStart iid k, 0, 0), (.icmdWrite iid k data, 1, data % 256), (.icmdReadAck iid k, 2, 0),
       (.icmdReadNack iid k, 3, 0), (.icmdStop iid k, 4, 0)]
     let edge (n : Nat) : Bool :=
       (bitAt levels n && !s.bit pgGpio 0x120 n && s.bit pgGpio 0x130 n) || (!bitAt levels n && s.bit pgGpio 0x120 n && s.bit pgGpio 0x130 (32 + n))
     s.settled →
       (k < 8 → s.reaches iid p 0x108 8 v .uart k new →
         (s.uartOn k = true → u.tx.length < 64 → exec (.udataWrite iid k v) s =
           .next (s.setUart k { u with tx := u.tx ++ [bitsOf v 8 0], driving := s.bit p 0x100 8 })) ∧
         (s.uartOn k = false ∨ 64 ≤ u.tx.length → exec (.udataWrite iid k v) s = .next s)) ∧
       (k < 8 → s.pageFor iid (regAddr p 0x108) 8 .load = (s, some (.uart, k)) →
         (u.rx = d :: cs → exec (.udataRead iid k) s = .next (s.setUart k { u with rx := cs })) ∧
         (u.rx = [] → exec (.udataRead iid k) s = .next s)) ∧
       (k < 8 → s.uartOn k = true → u.tx = d :: cs → s.does (.uartCharacterSent k) fun t =>
         t.out = s.out ++ [.uart k (s.uartBits k d)] ∧ (t.uart k).tx = cs ∧ (cs = [] → (t.uart k).driving = false)) ∧
       (u.tx = [] → exec (.uartCharacterSent k) s = .next s) ∧
       (k < 8 → s.uartOn k = true → ¬ lost → ¬ addressed ∨ u.keep = true ∧ bitAt ch 8 = false → ¬ slip → s.does (.uartCharacter k ch err) fun t =>
         (t.uart k).rx = (if u.rx.length < 64 then u.rx ++ [s.uartBits k ch + s.uartErr k err * 512] else u.rx)) ∧
       (k < 8 → s.uartOn k = true → ¬ lost → addressed → bitAt ch 8 = true → exec (.uartCharacter k ch err) s =
         .next (s.setUart k { u with keep := decide (ch % 256 = s.fld p 0x118 7 0) || decide (ch % 256 = 0xFF) })) ∧
       (k < 8 → addressed → u.keep = false → bitAt ch 8 = false → exec (.uartCharacter k ch err) s = .next s) ∧
       (s.uartOn k = false ∨ lost → exec (.uartCharacter k ch err) s = .next s) ∧
       (s.uartOn 0 = true → slip → ¬ lost → ¬ addressed → ch % 256 ≠ 0xC0 → ch % 256 ≠ 0xDB → s.svc.slipEsc = false →
         s.does (.uartCharacter k ch err) fun t => t.svc.slip = s.svc.slip ++ [BitVec.ofNat 8 ch] ∧ t.uarts = s.uarts) ∧
       (k < 2 → ∀ x ∈ cmds, s.reaches iid (pgI2c k) 0x108 8 (BitVec.ofNat 64 (x.2.1 * 256 + x.2.2)) .i2c k new →
         (c.stopped = false → s.fabio = true → exec x.1 s =
           .next ((s.setI2c k { c with cmds := c.cmds ++ [(x.2.1, x.2.2)], slave := false }).emit (.i2c k x.2.1 x.2.2))) ∧
         (c.stopped = true → exec x.1 s = .next s)) ∧
       (k < 2 → c.cmds = (cmd, d) :: rest → s.does (.i2cCommandComplete k data ack) fun t =>
         (t.i2c k).cmds = rest ∧ (t.i2c k).res = c.res ++ (if cmd = 1 then [if ack then 256 else 0] else if cmd = 2 then [data % 256 + 256]
           else if cmd = 3 then [data % 256] else [])) ∧
       (c.cmds = [] → exec (.i2cCommandComplete k data ack) s = .next s) ∧
       (k < 2 → s.pageFor iid (regAddr (pgI2c k) 0x110) 8 .load = (s, some (.i2c, k)) →
         (c.res = d :: cs → exec (.iresRead iid k) s = .next (s.setI2c k { c with res := cs })) ∧
         (c.res = [] → exec (.iresRead iid k) s = .next s)) ∧
       (k < 2 → s.bit (pgI2c k) 0x100 4 = true → c.stopped = false → s.fabio = true → s.does (.i2cSlaveAddressed k) fun t =>
         (t.i2c k).slave = true ∧ (t.i2c k).res = c.res) ∧
       (s.bit (pgI2c k) 0x100 4 = false → exec (.i2cSlaveAddressed k) s = .next s) ∧
       (s.reaches iid pgGpio 0x110 8 v .gpio 0 new → s.does (.gsetWrite iid v) fun t =>
         t.fld pgGpio 0x108 31 0 = Nat.lor (s.fld pgGpio 0x108 31 0) (bitsOf v 31 0) ∧ s.onlyRegs t [(pgGpio, 0x108)]) ∧
       (s.reaches iid pgGpio 0x118 8 v .gpio 0 new → exec (.gclrWrite iid v) s =
         .next (s.setReg pgGpio 0x108 (s.reg pgGpio 0x108 &&& ~~~ (BitVec.ofNat 64 (bitsOf v 31 0))))) ∧
       (s.fabio = true → s.bit pgFcol 0x1C0 29 = false → s.does (.gpioInputChange levels) fun t => t.fld pgGpio 0x120 31 0 = levels % 2 ^ 32 ∧
         ∀ n, n < 32 → (t.bit pgGpio 0x128 n = true ↔ s.bit pgGpio 0x128 n = true ∨ edge n = true)) ∧
       (s.fabio = false ∨ s.bit pgFcol 0x1C0 29 = true → exec (.gpioInputChange levels) s = .next s)) ∧
  (∀ (s : State) (iid i data : Nat) (v new : Word),
     let p := pgMgmt i
     i < 2 →
       (s.reaches iid p 0x178 8 (v ||| 0x80000000) .mgmt i new →
         (s.bit p 0x178 31 = false → bitsOf new 31 31 = 1 → s.does (.mdioGo iid i v) fun u =>
           u.reg p 0x178 = new ∧ u.out = s.out ++ [.mdio new] ∧ s.onlyRegs { u with out := s.out } [(p, 0x178)]) ∧
         (s.bit p 0x178 31 = true → exec (.mdioGo iid i v) s = .next s)) ∧
       (s.bit p 0x178 31 = true → data < 65536 → s.does (.mdioFrameDone i data) fun u => u.bit p 0x178 31 = false ∧
         u.fld p 0x178 15 0 = (if s.bit p 0x178 28 = true then s.fld p 0x178 15 0 else data) ∧ s.onlyRegs u [(p, 0x178)]) ∧
       (s.bit p 0x178 31 = false → exec (.mdioFrameDone i data) s = .next s) ∧
       (s.does (.mgmtLinkDown i) fun u => u.bit p 0x138 0 = false ∧ s.reported u 0x1EC))

/-! Power. -/

/-- Domains (R349, R350): an accepted RDOM or XDOM write starts the switches it names, one behind a switch under way waits; a refused
one sets REFUSE and PEVT; the end of a switch shows in DOMSTAT and PEVT, a triad comes on in mode Off with no running copy, what
loses power returns to reset values; a late switch is reported. -/
def Obligations.DomainsSwitch : Prop :=
  ∀ (s : State) (iid d c off : Nat) (on late : Bool) (h : Nat × Bool) (v new : Word),
    let rch := changedBits (s.reg pgPwr 0x128) new 16
    let xch := changedBits (s.reg pgPwr 0x130) new 17
    let rbad (x : Nat) : Prop := s.nRegions ≤ x ∨ bitsOf new x x = 0 ∧ s.regionIdle x = false
    let xbad (x : Nat) : Prop := x < 8 ∧ bitsOf new x x = 0 ∧ s.channelHeld x = true
    let begun (u : State) (dom b : Nat) : Prop :=
      (AMap.find? s.switching dom = none → AMap.find? u.switching dom = some (b == 1)) ∧
      (AMap.find? s.switching dom ≠ none → (dom, b == 1) ∈ u.heldSwitch) ∧
      (AMap.find? s.switching dom = none → b = 0 → u.bit pgPwr 0x138 (domBit dom) = false)
    let refused (u : State) (o : Nat) : Prop := u.bit pgPwr 0x108 20 = true ∧ u.bit pgPwr 0x150 2 = true ∧ u.reg pgPwr o = s.reg pgPwr o
    let still : Prop := (∀ x, s.portOf x = []) ∧ (∀ x, s.ddrQOf x = []) ∧ s.ioQuiet ∧ s.bist.run = none ∧ s.bist.queue = []
    let ends (u : State) : Prop :=
      u.bit pgPwr 0x150 0 = true ∧ (late = true → s.reported u 0x1EF) ∧
      (s.heldSwitch.find? (fun x => x.1 == d) = none → AMap.find? u.switching d = none) ∧
      (s.heldSwitch.find? (fun x => x.1 == d) = some h → AMap.find? u.switching d = some h.2)
    s.settled → still →
      (s.reaches iid pgPwr 0x128 8 v .pwr 0 new →
        ((∃ x ∈ rch, rbad x) → s.does (.domainRequest iid true v) fun u => refused u 0x128) ∧
        ((∀ x ∈ rch, ¬ rbad x) → s.does (.domainRequest iid true v) fun u =>
          u.reg pgPwr 0x128 = new ∧ ∀ x ∈ rch, begun u (64 + x) (bitsOf new x x))) ∧
      (s.reaches iid pgPwr 0x130 8 v .pwr 0 new →
        ((∃ x ∈ xch, xbad x) → s.does (.domainRequest iid false v) fun u => refused u 0x130) ∧
        ((∀ x ∈ xch, ¬ xbad x) → s.does (.domainRequest iid false v) fun u =>
          u.reg pgPwr 0x130 = new ∧ ∀ x ∈ xch, begun u (80 + x) (bitsOf new x x))) ∧
      (AMap.find? s.switching d = none → exec (.domainSwitchComplete d late) s = .next s) ∧
      (AMap.find? s.switching d = some true → d < 64 → (s.triad d).entry = 0 → s.heldSwitch = [] →
        s.does (.domainSwitchComplete d late) fun u => u.powerState d = 2 ∧ u.fld pgPwr (tpwr d) 26 24 = s.fld pgPwr (tpwr d) 2 0 ∧
          (u.triad d).mode = 5 ∧ (c < 3 → (u.copy (3 * d + c)).st = if s.isRetired d c then .retired else .out) ∧ ends u) ∧
      (AMap.find? s.switching d = some false → d < 64 → (s.triad d).entry = 0 → s.heldSwitch = [] →
        s.does (.domainSwitchComplete d late) fun u => u.powerState d = 0 ∧ u.fld pgPwr (tpwr d) 26 24 = 0 ∧
          (c < 3 → off < 0x1000 → u.reg (pgCore (3 * d + c)) off = regReset (regKey (pgCore (3 * d + c)) off)) ∧ ends u) ∧
      (AMap.find? s.switching d = some on → 64 ≤ d → d ≤ 96 → s.heldSwitch = [] → s.does (.domainSwitchComplete d late) fun u =>
        u.bit pgPwr 0x138 (domBit d) = on ∧ ends u ∧
        (on = false → d < 80 → u.engine (d - 64) = Engine.empty ∧ (off < 0x1000 →
          u.reg (pgRegion (d - 64)) off = regReset (regKey (pgRegion (d - 64)) off) ∧
          u.reg (pgSched (d - 64)) off = regReset (regKey (pgSched (d - 64)) off)))) ∧
      (AMap.find? s.switching d = some on → d ≤ 96 → s.heldSwitch.find? (fun x => x.1 == d) = some h →
        s.does (.domainSwitchComplete d late) fun u => ends u)

/-- Levels and low power (R354, R359 to R366): TPWR starts a level change where the triad runs, and is refused off its range or where
the triad may not change; a low-power entry passes its stages into Doze, Nap or the device's Sleep, or is abandoned; a request wakes
a triad, an enabled source the device.

Temperatures, regulators and PCTL (R356 to R358, R360): a sample shows in TEMP and warns and trips by its thresholds, in
Deep the I/O die's alone (R12); a regulator
out of its limits is reported by its triad; DMODE takes its three values; CLRABORT clears the count. -/
def Obligations.PowerLevelsAndSleep : Prop :=
  (∀ (s : State) (iid t l v src idx : Nat) (w new : Word),
     let st := s.powerState t
     let d := s.triad t
     let pl := bitsOf new 2 0
     let moves : Prop := pl ≠ s.fld pgPwr (tpwr t) 2 0
     let device : Prop := s.fld pgPwr 0x108 1 0 = 1 ∧ s.fld pgPwr 0x108 37 32 = t
     let bad : Prop := pl = 0 ∨ bitsOf new 9 8 = 3 ∨ moves ∧ (3 ≤ st ∧ st ≤ 7 ∨ d.mordBusy = true ∨ s.tableUses t = true)
     let stage (n : Nat) : State := s.setTriad t { d with entry := n }
     let drained : Prop := d.gate = [] ∧ d.replay = [] ∧ s.tagsIn (24 * t) 24 = []
     let stamped : Prop := ∃ c ∈ s.running t, s.stampAbove t c = true
     let abandoned (u : State) (k cause : Nat) : Prop :=
       (u.triad k).entry = 0 ∧ u.powerState k = 2 ∧ u.fld pgPwr (tpwr k) 26 24 = s.fld pgPwr (tpwr k) 2 0 ∧
       u.fld pgPwr 0x108 19 16 = cause
     t < s.nTriads →
       (s.reaches iid pgPwr (tpwr t) 8 w .pwr 0 new →
         (¬ bad → s.does (.plWrite iid t w) fun u => u.fld pgPwr (tpwr t) 2 0 = pl ∧ u.fld pgPwr (tpwr t) 9 8 = bitsOf new 9 8 ∧
           (moves → st = 2 → u.powerState t = 3) ∧ s.onlyRegs u [(pgPwr, tpwr t)]) ∧
         (bad → exec (.plWrite iid t w) s = .next (s.setFld pgPwr (tpwr t) 28 28 1))) ∧
       (st = 3 → s.does (.levelChangeComplete t) fun u =>
         u.powerState t = 2 ∧ u.fld pgPwr (tpwr t) 26 24 = s.fld pgPwr (tpwr t) 2 0 ∧ u.bit pgPwr 0x150 1 = true) ∧
       (st ≠ 3 → exec (.levelChangeComplete t) s = .next s) ∧
       (d.entry = 0 → exec (.entryStageComplete t) s = .next s) ∧
       (d.entry = 1 ∨ d.entry = 5 → exec (.entryStageComplete t) s = .next (stage (d.entry + 1))) ∧
       (d.entry = 3 → s.does (.entryStageComplete t) fun u => u = { stage 4 with fcol := u.fcol } ∧
         ∀ e ∈ u.fcol.waiting, 5 * t ≤ e.src → 5 * t + 5 ≤ e.src) ∧
       (d.entry = 2 → ¬ drained → exec (.entryStageComplete t) s = .next s) ∧
       (d.entry = 2 → drained → ¬ device → s.fld pgPwr (tpwr t) 9 8 = 1 →
         exec (.entryStageComplete t) s = .next ((stage 0).setPowerState t 5)) ∧
       (d.entry = 2 → drained → device ∨ s.fld pgPwr (tpwr t) 9 8 ≠ 1 → exec (.entryStageComplete t) s = .next (stage 3)) ∧
       (d.entry = 4 → ¬ device → ¬ stamped → s.does (.entryStageComplete t) fun u =>
         u.powerState t = 6 ∧ (u.triad t).entry = 0 ∧ u.fld pgPwr (tpwr t) 26 24 = 0) ∧
       (d.entry = 4 → ¬ device → stamped → s.does (.entryStageComplete t) fun u => u.powerState t = 7) ∧
       (d.entry = 4 → device → s.deviceMaySleep t = true → exec (.entryStageComplete t) s = .next (stage 5)) ∧
       (d.entry = 4 → device → s.deviceMaySleep t = false → s.does (.entryStageComplete t) fun u => abandoned u t 2) ∧
       (d.entry = 6 → s.does (.entryStageComplete t) fun u =>
         (u.triad t).entry = 7 ∧ ∀ k, k < 32 → u.laneState k = if s.laneState k = 0 then 0 else 10) ∧
       (d.entry = 7 → s.does (.entryStageComplete t) fun u =>
         (u.triad t).entry = 8 ∧ u.savedDom = s.reg pgPwr 0x138 ∧ u.fld pgTime 0x108 1 0 = 0 ∧ u.fcol.errShown = true) ∧
       (d.entry = 8 → s.wakeLatch = none → s.does (.entryStageComplete t) fun u =>
         u.fabio = false ∧ u.fab = false ∧ u.reg pgPwr 0x138 = 0 ∧ ∀ k, k < s.nTriads → u.powerState k = 0 ∧ (u.triad k).mode = 0) ∧
       (vectorOk v = true → s.leader t = some l → d.entry = 0 → st = 5 ∨ st = 6 → s.does (.wake t v) fun u =>
         u.powerState t = 7 ∧ u.fld pgPwr (tpwr t) 26 24 = s.fld pgPwr (tpwr t) 2 0 ∧ ∃ e ∈ (u.triad t).stamps, e.vec = v) ∧
       (st ≠ 5 → st ≠ 6 → exec (.wake t v) s = .next s) ∧
       (s.wakeEnabled src idx = false → exec (.wakeSource src idx) s = .next s) ∧
       (s.wakeEnabled src idx = true → s.asleep = true → s.does (.wakeSource src idx) fun u =>
         u.fabio = true ∧ u.fab = true ∧ u.fld pgPwr 0x120 7 0 = src ∧ u.fld pgPwr 0x108 1 0 = 2 ∧ u.fld pgWarden 0x108 11 8 = 4) ∧
       (s.wakeEnabled src idx = true → s.asleep = false → device → d.entry ≠ 0 → s.pastAbort t = false →
         s.does (.wakeSource src idx) fun u => abandoned u t 1)) ∧
  (∀ (s : State) (iid t t0 t1 tio v : Nat) (new : Word),
     let thr := s.fld pgPwr 0x140 7 0
     let both := s.dies ≠ 1
     (s.aoc = false → exec (.thermalSample t0 t1 tio) s = .next (s.setFld pgPwr 0x140 39 32 tio)) ∧
     (s.aoc = true → t0 < 256 → t1 < 256 → tio < 256 → s.does (.thermalSample t0 t1 tio) fun u =>
       u.fld pgPwr 0x140 23 16 = t0 ∧ u.fld pgPwr 0x140 31 24 = (if s.dies = 1 then 0 else t1) ∧ u.fld pgPwr 0x140 39 32 = tio ∧
       (thr < t0 → s.warned.contains 0 = false → s.reported u 0x1A3 ∧ u.warned.contains 0 = true) ∧
       (t0 + 5 < thr → u.warned.contains 0 = false) ∧
       (199 < t0 → s.reported u 0x1A2) ∧
       (both → thr < t1 → s.warned.contains 1 = false → s.reported u 0x1A7 ∧ u.warned.contains 1 = true) ∧
       (both → 199 < t1 → s.reported u 0x1A6) ∧ s.onlyRegs { u with fcol := s.fcol, warned := s.warned } [(pgPwr, 0x140)]) ∧
     (t < s.nTriads → s.does (.regulatorOutOfRegulation t) fun u => s.reported u (5 * t + 4) ∧ u = { s with fcol := u.fcol }) ∧
     (s.nTriads ≤ t → exec (.regulatorOutOfRegulation t) s = .next s) ∧
     (s.reaches iid pgPwr 0x100 8 (BitVec.ofNat 64 (v % 4)) .pwr 0 new →
       (bitsOf new 1 0 ≠ 3 → s.does (.dmodeWrite iid v) fun u =>
         u.fld pgPwr 0x100 1 0 = bitsOf new 1 0 ∧ s.onlyRegs u [(pgPwr, 0x100)]) ∧
       (bitsOf new 1 0 = 3 → exec (.dmodeWrite iid v) s = .next s)) ∧
     (s.reaches iid pgPwr 0x100 8 (s.reg pgPwr 0x100 ||| 4) .pwr 0 new → s.does (.clrabort iid) fun u =>
       u.fld pgPwr 0x110 31 0 = 0 ∧ s.onlyRegs u [(pgPwr, 0x110), (pgPwr, 0x100)]))

/-! Start, resets and self-test. -/

/-- The start sequence (R375 to R377, R382, R388, R390, R391): each step leads to the next or to a failed start with its code;
START_OK ends it; STARTTMO, the 60 s of step 9 and the retry act by their times. -/
def Obligations.StartSequence : Prop :=
  ∀ (s : State) (r : StartResult) (iid b code due t c : Nat) (set : List ImageUse) (v new : Word),
    let st := s.fld pgWarden 0x108 3 0
    let step (n : Nat) : State := s.setFld pgWarden 0x108 11 8 n
    let at' (n : Nat) : Prop := s.starting = true ∧ st ≠ 2 ∧ s.fld pgWarden 0x108 11 8 = n
    let cmd := Instr.startStepComplete r
    let read : State := { s with warden := { s.warden with unread := r.unread } }
    let rec' := s.cfgRec b s.warden.rec'
    let records : Prop := at' 8 ∧ s.warden.part = 1 ∧ s.bodyOfKind 2 = some b ∧ s.warden.rec' < s.flashNum (b + 8) 4
    let tmoAt := max s.now (s.warden.firstAt + s.fld pgWarden 0x118 15 0 * 100000000)
    (s.settled → s.ioQuiet →
      (s.starting = false ∨ st = 2 → exec cmd s = .next s) ∧
      (at' 0 ∨ at' 1 → exec cmd s = .next (step 2)) ∧
      (at' 2 → s.does cmd fun u => u.fld pgWarden 0x108 11 8 = 3 ∧ u.fabio = true ∧ u.warden.startAt = s.now) ∧
      (at' 3 → r.pass = true → exec cmd s = .next (step 4)) ∧
      (at' 3 → r.pass = false → s.does cmd fun u => u.fld pgWarden 0x108 3 0 = 5 ∧ u.fld pgWarden 0x110 7 0 = 1) ∧
      (at' 4 → r.unread = [] → (∀ k sl d, read.chooseSet ≠ .fail 2 k sl d) →
        exec cmd s = .next (read.setFld pgWarden 0x108 11 8 5)) ∧
      (at' 4 → r.unread ≠ [] → s.does cmd fun u => s.reported u 0x1EC ∧ u.warden.unread = r.unread) ∧
      (at' 4 → (∃ k sl d, read.chooseSet = .fail 2 k sl d) → s.does cmd fun u => s.startFailed u 2 s.now) ∧
      (at' 5 → s.chooseSet = .use set code → s.does cmd fun u =>
        u.warden.images = set ∧ u.fld pgWarden 0x108 11 8 = 6 ∧ u.fld pgWarden 0x108 3 0 = 1 ∧ u.fld pgWarden 0x108 5 4 = code % 4) ∧
      (at' 6 → r.pass = true → s.does cmd fun u => u.fab = true ∧ u.aoc = true ∧ u.fld pgWarden 0x108 11 8 = 7 ∧
        ∀ n, n < s.nRegions → u.bit pgPwr 0x128 n = true ∧ u.bit pgPwr 0x138 n = true) ∧
      (at' 6 → r.pass = false → s.does cmd fun u => s.startFailed u 4 s.now) ∧
      (at' 7 → r.copies = [] → r.regions = [] → r.dies = [] → (∀ n, n < s.nTriads → s.retiredOf n < 2) →
        (s.heldNeeded = none → exec cmd s = .next (step 8)) ∧
        (s.heldNeeded ≠ none → s.does cmd fun u => s.startFailed u 5 s.now)) ∧
      (at' 7 → (t, c) ∈ r.copies → t < s.nTriads → c < 3 → r.regions = [] → r.dies = [] → s.does cmd fun u =>
        u.bit (pgTriad t) 0x180 (48 + c) = true) ∧
      (records → s.cfgBad rec' = true → s.does cmd fun u => s.startFailed u 6 s.now) ∧
      (records → s.cfgBad rec' = false → rec'.kind = 2 →
        s.busRead 0x0200 (regAddr rec'.page rec'.off) 8 = (s, some v) → v &&& rec'.mask ≠ rec'.value →
        (r.timeout = false → exec cmd s = .next s) ∧ (r.timeout = true → s.does cmd fun u => s.startFailed u 7 s.now))) ∧
    (s.reaches iid pgWarden 0x100 8 1 .warden 0 new →
      (st = 2 → iid < 0x40 ∨ iid = 0x0201 → s.warden.failedAt = none → s.does (.startok iid) fun u =>
        u.fld pgWarden 0x108 3 0 = 3 ∧ u.fld pgWarden 0x108 17 16 = 0) ∧
      (st ≠ 2 → exec (.startok iid) s = .next s)) ∧
    (st = 2 → s.warden.failedAt = none → s.does .starttmoExpiry fun u => s.startFailed u 0xB tmoAt ∧ u.now = tmoAt) ∧
    (st ≠ 2 → exec .starttmoExpiry s = .next s) ∧
    (st ≤ 1 → s.warden.failedAt = none → 3 ≤ s.stepNo → s.does .step9Timeout fun u =>
      s.startFailed u 0xA (max s.now (s.warden.startAt + 60000000000))) ∧
    (1 < st → exec .step9Timeout s = .next s) ∧
    (s.warden.failedAt = some due → s.does .retryExpiry fun u => u.now = max s.now (due + 100000000) ∧
      u.fld pgDevice 0x108 15 8 = 7 ∧ u.fld pgWarden 0x108 11 8 = 2 ∧ u.fld pgWarden 0x108 17 16 = s.fld pgWarden 0x108 17 16 ∧
      u.warden.failedAt = none) ∧
    (s.warden.failedAt = none → exec .retryExpiry s = .next s)

/-- Resets (R371 to R374, R393, R394): a power-on reset leaves the reset state but for what survives it; a device reset, asked for, or
by a reaction, leaves RSTWHY and RADM; a die, region or triad reset is in force until it completes; a request that may not be taken is
refused whole, one without the key or the right changes nothing but the page error; a debug reset resets the TAP. -/
def Obligations.ResetsAct : Prop :=
  ∀ (s : State) (iid key cause devid inst t c due page off a : Nat) (new : Word),
    let count := min (s.fld pgDevice 0x108 31 16 + 1) 65535
    let kept (u : State) : Prop := u.out = s.out ∧ u.flash = s.flash ∧ u.warden.revoked = s.warden.revoked ∧
      u.warden.arc = s.warden.arc ∧ u.pending = s.pending
    let restarted (u : State) (cs src : Nat) : Prop :=
      u.reg pgDevice 0x108 = BitVec.ofNat 64 (1 + cs * 2 ^ 8 + count * 2 ^ 16 + src * 2 ^ 32) ∧ u.fld pgWarden 0x108 11 8 = 2 ∧
      (∀ k, u.copy k = Copy.off) ∧ (t < s.nTriads → u.reg (pgTriad t) 0x180 = s.reg (pgTriad t) 0x180) ∧ u.fcol.dsafe = false ∧
      u.fab = false ∧ kept u
    let val (kind n : Nat) : Word := BitVec.ofNat 64 (key % 65536 * 2 ^ 48 + n % 64 * 256 + kind % 8)
    let asked (kind n : Nat) : Prop := s.reaches iid pgDevice 0x100 8 (val kind n) .device 0 new
    let right : Prop := (iid < 0x40 ∨ iid = 0x0201) ∧ key % 65536 = 0x5A3C
    let units : List (Nat × Instr) := [(2, .dieReset iid key inst), (3, .regionReset iid key inst), (4, .triadReset iid key inst)]
    let refused : State := s.setFld pgDevice 0x110 0 0 1
    let state := s.fld pgWarden 0x108 3 0
    (s.does (.powerOnReset cause devid) fun u =>
      kept u ∧ u.variant = s.variant ∧ u.devid = devid % 8 ∧ u.fabio = false ∧ (∀ k, u.copy k = Copy.off) ∧
      u.reg pgDevice 0x108 = BitVec.ofNat 64 (cause % 256 * 2 ^ 8) ∧
      (off < 0x1000 → (page, off) ≠ (pgDevice, 0x108) → u.reg page off = regReset (regKey page off))) ∧
    (asked 1 0 → right → state = 3 → s.does (.deviceReset iid key) fun u => restarted u 4 0 ∧ u.now = s.now) ∧
    (asked 1 0 → right → state = 4 ∨ state = 5 → exec (.deviceReset iid key) s = .next refused) ∧
    (asked 1 0 → ¬ right → s.does (.deviceReset iid key) fun u =>
      u.bit pgDevice 0x20 3 = true ∧ s.onlyRegsAndFaults u [(pgDevice, 0x20)]) ∧
    (s.fcol.resetDue = some due → s.does .resetActionExpiry fun u => restarted u 5 s.fcol.resetSrc ∧ u.now = max s.now due) ∧
    (s.fcol.resetDue = none → exec .resetActionExpiry s = .next s) ∧
    (inst < 64 → s.settled → s.ioQuiet → (∀ n, s.portOf n = []) → ∀ x ∈ units, asked x.1 inst → right →
      (s.resetOk x.1 inst = true → s.does x.2 fun u => (x.1, inst) ∈ u.resets ∧ u.bit pgDevice 0x110 1 = true ∧
        (x.1 = 4 → u.powerState inst = 0 ∧ (u.triad inst).mode = 0 ∧ (c < 3 → u.copy (3 * inst + c) = Copy.off)) ∧
        (x.1 = 3 → u.engine inst = Engine.empty ∧ (c < 4 → (u.triad (4 * inst + c)).mode = 0))) ∧
      (s.resetOk x.1 inst = false → exec x.2 s = .next refused)) ∧
    (s.resets.contains (cause, inst) = true → s.does (.resetComplete cause inst) fun u =>
      (cause, inst) ∉ u.resets ∧ (s.resets = [(cause, inst)] → u.bit pgDevice 0x110 1 = false) ∧
      (cause = 3 → s.regionOn inst = true → inst < 16 → s.bit (pgFwall inst) 0x108 0 = false → u.bit (pgRegion inst) 0x100 0 = true ∧ (u.sramOf inst).byte a = 0)) ∧
    (s.resets.contains (cause, inst) = false → exec (.resetComplete cause inst) s = .next s) ∧
    exec .debugReset s = .next { s with tapReset := true }

/-- Self-test runs (R384 to R389, R450): GO starts a run whose precondition holds while the warden runs and none is under way, else it
is refused; a run's end shows its result and counts, a failed copy is Retired and reported. -/
def Obligations.SelfTestRuns : Prop :=
  ∀ (s : State) (iid : Nat) (pass : Bool) (r : BistRun) (v new : Word),
    let g := v ||| 1
    let asked : BistRun := ⟨bitsOf g 10 8, bitsOf g 21 16, bitsOf g 25 24, bitsOf g 40 32, false⟩
    let ok : Prop := s.bist.run = none ∧ s.bist.queue = [] ∧ s.wardenRuns = true ∧ s.bistPre asked = true
    (s.reaches iid pgBist 0x100 8 g .bist 0 new →
      (ok → s.does (.go iid v) fun u => u.bist.run = some asked ∧ u.fld pgBist 0x108 2 0 = 1 ∧ u.fld pgBist 0x108 9 8 = 0 ∧
        u.reg pgBist 0x120 = s.reg pgBist 0x120 + 1) ∧
      (¬ ok → exec (.go iid v) s = .next (s.setFld pgBist 0x108 16 16 1))) ∧
    (s.bist.run = some r → s.bist.queue = [] → r.retest = false → r.kind = 1 ∨ r.kind = 0 ∧ r.inst < 64 ∧ r.copy < 3 →
      s.does (.bistRunEnd pass) fun u =>
        u.bist.run = none ∧ u.fld pgBist 0x108 9 8 = (if pass then 1 else 2) ∧ u.fld pgBist 0x108 2 0 = 4 ∧
        u.fld pgBist 0x138 31 0 = (s.fld pgBist 0x138 31 0 + 1) % 2 ^ 32 ∧
        (pass = false → s.reported u 0x1F0 ∧ u.fld pgBist 0x138 63 32 = (s.fld pgBist 0x138 63 32 + 1) % 2 ^ 32) ∧
        (pass = false → r.kind = 0 → (u.copy (3 * r.inst + r.copy)).st = .retired ∧ u.bit (pgTriad r.inst) 0x180 (48 + r.copy) = true)) ∧
    (s.bist.run = none → exec (.bistRunEnd pass) s = .next s)

/-! The service channels. -/

/-- A message that arrives (R396 to R398, R401, R402): a bad one is counted, one on a channel that is off has no effect; a request with
the next number is accepted where there is room, a repeated one has its answer sent again, any other is told the number expected.
An accepted request of an unknown or unpermitted command is answered 9 or 4 at its turn. The DETAILs that no rule states are free. -/
def Obligations.ServiceMessages : Prop :=
  ∀ (s : State) (ch src : Nat) (bs : List Byte) (n : Nat) (msg : List Byte),
    let c := s.chan ch
    let cmd := msgNum bs 2 2
    let h := msgNum bs 8 4
    let ackw := msgNum bs 0xC 4
    let next := if c.lastAcc = 0xFFFFFFFF then 1 else c.lastAcc + 1
    let request : Prop := s.chanOn ch = true ∧ msgOk bs = true ∧ msgNum bs 0 1 = 1 ∧ msgNum bs 1 1 = s.devid ∧ ackw = 0
    let room : Prop := c.held.length + c.reqs.length < 16
    let idle : Prop := ch ∈ allChans ∧ ∀ k ∈ allChans, (s.chan k).reqs = []
    let known := payloadLen cmd [] ≠ none
    let mac : Nat := if ch < 2 then AMap.get s.svc.mac (fun _ => 0) ch else 0
    let it := Instr.serviceMessage ch src bs
    let plain (u : State) (status detail : Nat) (data : List Byte) : Prop :=
      u.out = s.out ++ [.svc ch mac (s.msgBytes 2 cmd status h 0 ch (toBytes detail 8 ++ data))]
    s.svc.op = none → (8 ≤ ch → msgNum bs 0 1 = 1) →
      (s.chanOn ch = false → exec it s = .next s) ∧
      (s.chanOn ch = true → msgOk bs = false → exec it s = .next (s.countSat pgSvc 0x138 63 48)) ∧
      (request → h ≠ 0 → h = next → room → s.does it fun u => (u.chan ch).lastAcc = h ∧
        (ch < 2 → AMap.get u.svc.mac (fun _ => 0) ch = src) ∧
        (idle → known → s.svcMay ch (cmd / 16) = true → s.umber = false →
          u.chan ch = { c with lastAcc := h, reqs := [⟨h, cmd, bs.drop 32⟩] }) ∧
        (idle → ¬ known → (u.chan ch).reqs = [] ∧ (u.chan ch).lastExec = h ∧
          ∃ d, (u.chan ch).held = c.held ++ [(c.wseq + 1, h, s.msgBytes 2 cmd 9 h (c.wseq + 1) ch (toBytes d 8))]) ∧
        (idle → known → s.svcMay ch (cmd / 16) = false → (u.chan ch).reqs = [] ∧ (u.chan ch).lastExec = h ∧
          ∃ d, (u.chan ch).held = c.held ++ [(c.wseq + 1, h, s.msgBytes 2 cmd 4 h (c.wseq + 1) ch (toBytes d 8))])) ∧
      (request → idle → ch < 3 → h ≠ 0 → h = next → ¬ room → s.does it fun u => u.chan ch = c ∧ ∃ d, plain u 2 d []) ∧
      (request → idle → ch < 3 → h ≠ 0 → h = c.lastAcc → h ≠ next → s.does it fun u => u.chan ch = c ∧
        (c.held.find? (fun e => e.2.1 == h) = some (n, h, msg) → u.out = s.out ++ [.svc ch mac msg]) ∧
        (c.held.find? (fun e => e.2.1 == h) = none → ∃ d, plain u 10 d [])) ∧
      (request → idle → ch < 3 → h ≠ 0 → h ≠ c.lastAcc → h ≠ next → s.does it fun u => u.chan ch = c ∧ plain u 1 next []) ∧
      (request → idle → ch < 3 → h = 0 → cmd = 1 → s.does it fun u => u.chan ch = c ∧ plain u 0 0 c.seqs) ∧
      (s.chanOn ch = true → msgOk bs = true → msgNum bs 0 1 = 1 → msgNum bs 1 1 = s.devid → idle →
        c.hack < ackw → ackw ≤ c.wseq → s.does it fun u => (u.chan ch).hack = ackw ∧
          ∀ e ∈ c.held, e.1 ≤ ackw → e ∉ (u.chan ch).held) ∧
      (s.chanOn ch = true → msgOk bs = true → msgNum bs 0 1 = 1 → msgNum bs 1 1 ≠ s.devid → ch < 3 → s.linkTo (msgNum bs 1 1) = none →
        msgNum bs 4 2 ≤ 976 → s.does it fun u => u.chan ch = c ∧ plain u 5 0xFF []) ∧
      (s.chanOn ch = true → msgOk bs = true → msgNum bs 0 1 = 1 → msgNum bs 1 1 ≠ s.devid → ch < 8 → s.linkTo (msgNum bs 1 1) = some n →
        msgNum bs 4 2 ≤ 976 → exec it s = .next (({ s with svc := { s.svc with
          relay := AMap.put (msgNum bs 1 1) ch s.svc.relay } } : State).sendFrame n 0 0 true (.svc 4 bs.length bs)))

/-- The commands of groups 0 to 2 and the message registers (R395, R398, R399, R401, R417): GETSEQ, RESEND, READREG, LOGREAD, WRITEREG
and MSG do what their rows say and are answered under the request's number; MSGCTL.SEND sends a notice on every open channel; a read
of MSGIN7 clears INFULL; the mailbox hands over a message each way. -/
def Obligations.ServiceReadsAndWrites : Prop :=
  ∀ (s t : State) (ch h iid : Nat) (pl : List Byte) (r : Option WOut) (f : Nat → Word) (new : Word) (d bs m f0 f1 : List Byte)
    (rest : List (List Byte)) (s1 s2 : State),
    let c := s.chan ch
    let at' (cmd : Nat) : Prop := s.atTurn ch h cmd pl
    let frm := msgNum pl 0 4
    let page := msgNum pl 0 2
    let off := msgNum pl 2 2
    let n := msgNum pl 4 2
    let full := s.bit pgSvc 0x140 8
    let dst := msgNum pl 0 1
    let notice (k w : Nat) : List Byte :=
      s.msgBytes 3 0x21 0 0 w k ((List.range 8).flatMap fun j => toBytes (s.reg pgSvc (0x1C0 + 8 * j)).toNat 8)
    let a := (s.reg pgSvc 0x118 &&& bitMask 47 13).toNat
    (at' 0x01 → s.does (.getseq ch) fun u => s.answered u ch h 0x01 0 0 (toBytes c.lastAcc 4 ++ toBytes c.lastExec 4 ++
      toBytes c.wseq 4 ++ toBytes c.hack 4 ++ toBytes (match c.held with | e :: _ => e.1 | [] => 0) 4 ++ toBytes 0 4)) ∧
    (at' 0x02 → s.does (.resend ch) fun u =>
      if frm < c.oldest ∧ c.hack < frm then s.answered u ch h 0x02 10 c.oldest []
      else s.answered u ch h 0x02 0 (c.held.countP fun e => decide (frm ≤ e.1)) [] ∧
        (ch < 3 → ∀ e ∈ c.held, frm ≤ e.1 → ∃ mac, Out.svc ch mac e.2.2 ∈ u.out)) ∧
    (at' 0x10 → 1 ≤ n → n ≤ 127 → off + 8 * n ≤ 0x1000 →
      (∀ i, i < n → s.busRead 0x0201 (regAddr page (off + 8 * i)) 8 = (s, some (f i))) →
      s.does (.readreg ch) fun u => s.answeredFree u ch h 0x10 0 ((List.range n).flatMap fun i => toBytes (f i).toNat 8)) ∧
    (at' 0x10 → 1 ≤ n → n ≤ 127 → off < 0x1000 → s.busRead 0x0201 (regAddr page off) 8 = (s, none) →
      s.does (.readreg ch) fun u => s.answered u ch h 0x10 5 0 []) ∧
    (at' 0x10 → n = 0 ∨ 127 < n → s.does (.readreg ch) fun u => s.answeredFree u ch h 0x10 5 []) ∧
    (at' 0x11 → 1 ≤ msgNum pl 4 1 → msgNum pl 4 1 ≤ 31 → s.does (.logread ch) fun u =>
      s.answeredFree u ch h 0x11 0 (((s.logFrom frm).take (msgNum pl 4 1)).flatMap LogRec.bytes)) ∧
    (at' 0x11 → msgNum pl 4 1 = 0 ∨ 31 < msgNum pl 4 1 → s.does (.logread ch) fun u => s.answeredFree u ch h 0x11 5 []) ∧
    (at' 0x20 → s.busWrite 0x0201 (regAddr page off) 8 (BitVec.ofNat 64 (msgNum pl 8 8)) = (t, r) → t.svc = s.svc →
      s.does (.writereg ch) fun u =>
        (r = some .accepted → t.answeredFree u ch h 0x20 0 []) ∧ (r ≠ some .accepted → t.answeredFree u ch h 0x20 5 []) ∧
        (ch < 8 → u.regs = t.regs)) ∧
    (at' 0x21 → full = false → dst < s.nTriads → s.leader dst ≠ none → s.awake dst → s.does (.msg ch) fun u =>
      s.answeredFree u ch h 0x21 0 [] ∧ u.bit pgSvc 0x140 8 = true ∧ u.fld pgSvc 0x140 21 16 = dst ∧
      (∀ j, j < 8 → u.reg pgSvc (0x180 + 8 * j) = BitVec.ofNat 64 (msgNum pl (8 + 8 * j) 8)) ∧
      ∃ e ∈ (u.triad dst).stamps, e.vec = 26) ∧
    (at' 0x21 → full = true ∨ s.nTriads ≤ dst → s.does (.msg ch) fun u =>
      s.answeredFree u ch h 0x21 5 [] ∧ (ch < 8 → u.regs = s.regs)) ∧
    (s.reaches iid pgSvc 0x140 8 1 .svc 0 new → s.does (.send iid) fun u =>
      (∀ k, k < 4 → s.chanOn k = true → (s.chan k).load < 16 → u.chan k = { s.chan k with
        wseq := (s.chan k).wseq + 1
        held := (s.chan k).held ++ [((s.chan k).wseq + 1, 0, notice k ((s.chan k).wseq + 1))] }) ∧
      (∀ k, s.chanOn k = false ∨ 16 ≤ (s.chan k).load ∨ 4 ≤ k → u.chan k = s.chan k) ∧
      u.fld pgSvc 0x138 47 32 = min 65535 (s.fld pgSvc 0x138 47 32 +
        (List.range 4).countP fun k => s.chanOn k && decide (16 ≤ (s.chan k).load))) ∧
    (s.pageFor iid (regAddr pgSvc 0x1B8) 8 .load = (s, some (.svc, 0)) → s.does (.msgin7Read iid) fun u =>
      u.bit pgSvc 0x140 8 = false ∧ ∀ page off, (page, off) ≠ (pgSvc, 0x140) → off < 0x1000 → u.reg page off = s.reg page off) ∧
    (s.chanOn 3 = false → s.settled → exec .mailboxPoll s = .next s) ∧
    (s.chanOn 3 = true → s.memRead 0x0201 a 8 = (s, some f0) → ofBytes f0 = 0 → s.settled →
      (s.svc.mail = [] → exec .mailboxPoll s = .next s) ∧
      (s.svc.mail = m :: rest → s.memRead 0x0201 (a + 4096) 8 = (s, some f1) →
        (ofBytes f1 ≠ 0 → exec .mailboxPoll s = .next s) ∧
        (ofBytes f1 = 0 → ({ s with svc := { s.svc with mail := rest } } : State).memWrite 0x0201 (a + 4104) m = (s1, true) →
          s1.memWrite 0x0201 (a + 4096) (toBytes 1 8) = (s2, true) → s2.settled → exec .mailboxPoll s = .next s2))) ∧
    (s.chanOn 3 = true → s.memRead 0x0201 a 8 = (s, some f0) → ofBytes f0 ≠ 0 → s.memRead 0x0201 (a + 8) 32 = (s, some d) →
      32 + msgNum d 4 2 ≤ 1056 → s.memRead 0x0201 (a + 8) (32 + msgNum d 4 2) = (s, some bs) →
      s.memWrite 0x0201 a (toBytes 0 8) = (s1, true) → s1.svcMessage 3 0 bs = s2 → s2.settled → s2.svc.mail = [] →
      exec .mailboxPoll s = .next s2)

/-- Flash and image commands (R401, R403, R405 to R407, R415): FLASHWRITE and FLASHERASE change the bytes of the slot named and no
other; VERIFY answers the first check that fails; SETPREF and DIRSET write a directory copy that is not the one in force; REVOKEKEY
revokes a key slot that nothing needs. Each is refused where its row says so, with nothing changed. While SPIF is isolated or its
domain is off the flash commands are refused (assumption 64, the model's choice). -/
def Obligations.FlashAndImages : Prop :=
  ∀ (s : State) (ch h : Nat) (pl : List Byte) (e : FlashEnt) (k x : Nat),
    let at' (cmd : Nat) : Prop := s.atTurn ch h cmd pl
    let entry := msgNum pl 0 1
    let slot := msgNum pl 1 1
    let named : Prop := s.spifOn = true ∧ s.dirEnt? entry = some e ∧ slot ≤ 1
    let unnamed : Prop := s.spifOn = false ∨ s.dirEnt? entry = none ∨ 1 < slot
    let n := 256 * msgNum pl 2 1
    let o := msgNum pl 4 4
    let used : Prop := ∃ u ∈ s.warden.images, u.entry = entry ∧ u.slot = slot
    let fits : Prop := 1 ≤ n ∧ n ≤ 768 ∧ o + n ≤ e.slotLen
    let base := e.at' slot
    let no (cmd : Nat) (u : State) : Prop :=
      s.answeredFree u ch h cmd 5 [] ∧ u.flash = s.flash ∧ u.warden = s.warden
    let fresh := if s.dirCopy = some 1 then 0 else 0x10000
    let image := if s.dirCopy = some 1 ∨ s.dirCopy = none then 0 else 0x10000
    (at' 0x30 → named → fits → ¬ used → pl.length = 8 + n → s.does (.flashwrite ch) fun u => s.answeredFree u ch h 0x30 0 [] ∧
      ∀ a, u.flashByte a = if base + o ≤ a ∧ a < base + o + n then pl.getD (8 + (a - (base + o))) 0 else s.flashByte a) ∧
    (at' 0x30 → unnamed ∨ named ∧ (¬ fits ∨ used) → s.does (.flashwrite ch) (no 0x30)) ∧
    (at' 0x31 → named → ¬ used → s.does (.flasherase ch) fun u => s.answeredFree u ch h 0x31 0 [] ∧
      ∀ a, u.flashByte a = if base ≤ a ∧ a < base + e.slotLen then 0xFF else s.flashByte a) ∧
    (at' 0x31 → unnamed ∨ named ∧ used → s.does (.flasherase ch) (no 0x31)) ∧
    (at' 0x32 → named → s.does (.verify ch) fun u => u.flash = s.flash ∧ u.warden = s.warden ∧
      (s.verifyAt e slot ≠ 0 → s.answered u ch h 0x32 6 (s.verifyAt e slot) []) ∧
      (s.verifyAt e slot = 0 → s.manifest (s.setWith e slot) = some k → s.answered u ch h 0x32 7 k []) ∧
      (s.verifyAt e slot = 0 → s.manifest (s.setWith e slot) = none → s.answeredFree u ch h 0x32 0 [])) ∧
    (at' 0x32 → unnamed → s.does (.verify ch) (no 0x32)) ∧
    (at' 0x33 → named → s.manifest (s.prefWith e.idx slot) ≠ none → s.does (.setpref ch) fun u =>
      s.answeredFree u ch h 0x33 7 [] ∧ u.flash = s.flash) ∧
    (at' 0x33 → named → s.manifest (s.prefWith e.idx slot) = none → s.does (.setpref ch) fun u =>
      s.answeredFree u ch h 0x33 0 [] ∧ u.flashByte (fresh + 32 + 32 * e.idx + 1) = BitVec.ofNat 8 slot ∧
      (∀ a, a < fresh ∨ fresh + 1056 ≤ a → u.flashByte a = s.flashByte a)) ∧
    (at' 0x33 → unnamed → s.does (.setpref ch) (no 0x33)) ∧
    (at' 0x34 → s.spifOn = true → entry ≤ 31 → (∀ u ∈ s.warden.images, u.entry ≠ entry) → pl.length = 40 → s.dirEnts.length ≤ 32 →
      s.does (.dirset ch) fun u => s.answeredFree u ch h 0x34 0 [] ∧
        (∀ j, j < 32 → u.flashByte (image + 32 + 32 * entry + j) = pl.getD (8 + j) 0) ∧
        (∀ a, a < image ∨ image + 1056 ≤ a → u.flashByte a = s.flashByte a)) ∧
    (at' 0x34 → s.spifOn = false ∨ 31 < entry ∨ (∃ u ∈ s.warden.images, u.entry = entry) → s.does (.dirset ch) (no 0x34)) ∧
    (at' 0x70 → s.does (.revokekey ch) fun u => u.flash = s.flash ∧
      (entry ≤ 7 ∧ s.keyUsed entry = false ∧ x < 8 ∧ x ≠ entry ∧ s.keyLive x = true →
        s.answeredFree u ch h 0x70 0 [] ∧ ∀ y, y ∈ u.warden.revoked ↔ y ∈ s.warden.revoked ∨ y = entry) ∧
      (7 < entry ∨ s.keyUsed entry = true ∨ (∀ y, y < 8 → y ≠ entry → s.keyLive y = false) →
        s.answeredFree u ch h 0x70 5 [] ∧ u.warden = s.warden))

/-- The load commands (R407, R409 to R414): each refuses a slot that is not of its kind and answers the first failing check with
nothing changed. A verified image takes its place: tables and reactions are checked and their switch armed, a triad's three TCMs take
the image's bytes and the triad its mode, microcode goes to the quads and channels of TARGET, firmware takes over. With SPIF isolated
or off each is refused (assumption 64, the model's choice). -/
def Obligations.LiveLoads : Prop :=
  ∀ (s : State) (ch h : Nat) (takes : Bool) (pl : List Byte) (e : FlashEnt) (k q : Nat),
    let at' (cmd : Nat) : Prop := s.atTurn ch h cmd pl
    let slot := msgNum pl 1 1
    let named : Prop := s.spifOn = true ∧ s.dirEnt? (msgNum pl 0 1) = some e ∧ slot ≤ 1
    let a := e.at' slot
    let good (kind : Nat) : Prop := named ∧ e.kind = kind ∧ s.verifyAt e slot = 0 ∧ s.manifest (s.setWith e slot) = none
    let loads : List (Nat × List Nat × Instr) := [(0x40, [4], .loadtable ch), (0x41, [3], .loadreact ch), (0x42, [5], .loadtriad ch),
      (0x43, [6, 7, 8], .loadmcode ch), (0x50, [1], .wardenswap ch takes)]
    let same (u : State) : Prop := u.flash = s.flash ∧ u.warden = s.warden ∧ u.copies = s.copies ∧ u.timeB = s.timeB ∧ u.svc.op = none
    let t1 := (s.loadTables (a + 512)).tblChk
    let t2 := ((t1.setReg pgTime 0x148 (hdrGen t1.timeB.inactive)).setReg pgTime 0x150 (BitVec.ofNat 64 (msgNum pl 8 8))).armSwitch
    let r1 := (s.loadReaction (a + 512)).rtblChk
    let t := msgNum pl 2 1
    let m := msgNum pl 3 1
    let s1 := s.bringOut t
    let v := (s.imageUse e slot).version % 65536
    let target : Prop := q < 8 ∧ bitAt (msgNum pl 8 8) q = true
    (∀ x ∈ loads, at' x.1 →
      (s.spifOn = false ∨ s.dirEnt? (msgNum pl 0 1) = none ∨ 1 < slot ∨ named ∧ e.kind ∉ x.2.1 → s.does x.2.2 fun u =>
        s.answeredFree u ch h x.1 5 [] ∧ same u) ∧
      (named → e.kind ∈ x.2.1 → s.verifyAt e slot ≠ 0 → s.does x.2.2 fun u =>
        s.answered u ch h x.1 6 (s.verifyAt e slot) [] ∧ same u) ∧
      (named → e.kind ∈ x.2.1 → s.verifyAt e slot = 0 → s.manifest (s.setWith e slot) = some k → s.does x.2.2 fun u =>
        s.answered u ch h x.1 7 k [] ∧ same u)) ∧
    (at' 0x40 → good 4 →
      (t1.fld pgTime 0x158 23 16 ≠ 0 → s.does (.loadtable ch) fun u =>
        s.answered u ch h 0x40 5 (t1.reg pgTime 0x158).toNat [] ∧ u.timeB = t1.timeB) ∧
      (t1.fld pgTime 0x158 23 16 = 0 → t2.fld pgTime 0x158 2 0 = 2 → s.does (.loadtable ch) fun u =>
        u.svc.op = some (ch, ⟨h, 0x40, pl⟩, .loadTable) ∧ u.chan ch = s.chan ch ∧ u.timeB = t2.timeB ∧ u.timeB.armed = true ∧
        u.reg pgTime 0x148 = hdrGen t1.timeB.inactive ∧ u.reg pgTime 0x150 = BitVec.ofNat 64 (msgNum pl 8 8)) ∧
      (t1.fld pgTime 0x158 23 16 = 0 → t2.fld pgTime 0x158 2 0 ≠ 2 → t2.fld pgTime 0x158 2 0 ≠ 3 → s.does (.loadtable ch) fun u =>
        s.answered u ch h 0x40 5 (t2.reg pgTime 0x158).toNat [] ∧ u.svc.op = none)) ∧
    (at' 0x41 → good 3 →
      (r1.fld pgFcol 0x118 23 16 ≠ 0 → s.does (.loadreact ch) fun u =>
        s.answered u ch h 0x41 5 (r1.reg pgFcol 0x118).toNat []) ∧
      (r1.fld pgFcol 0x118 23 16 = 0 → r1.fcol.checked = some r1.reactionGen → s.does (.loadreact ch) fun u =>
        u.svc.op = some (ch, ⟨h, 0x41, pl⟩, .loadReact) ∧ u.chan ch = s.chan ch ∧ u.fld pgFcol 0x118 2 0 = 2 ∧
        u.reg pgFcol 0x110 = r1.reactionGen)) ∧
    (at' 0x42 → good 5 →
      (bitAt (s.imgAttr a) t = false ∨ s.loadOk t m = false → s.does (.loadtriad ch) fun u =>
        s.answeredFree u ch h 0x42 5 [] ∧ same u) ∧
      (bitAt (s.imgAttr a) t = true → s.loadOk t m = true → (s1.triad t).mode = 5 →
        (∀ c, c < 3 → (s1.copy (3 * t + c)).st ≠ .unpowered) → s1.svc = s.svc → s1.loadOk t m = true → s1.powerState t ≠ 5 →
        s1.powerState t ≠ 6 → (s1.triad t).entry = 0 → s1.bist.run = none → s.does (.loadtriad ch) fun u =>
          s.answeredFree u ch h 0x42 0 [] ∧ u.usesSlot e.idx slot ∧ (u.triad t).mode = m ∧
          (∀ c, c < 3 → (u.copy (3 * t + c)).tcm = s.tcmOfImage a) ∧
          (∀ c ∈ modeLetters m, (u.copy (3 * t + c)).st = .running ∧ (u.copy (3 * t + c)).retcnt = 0))) ∧
    (∀ g b i, (s.imgSegs a).find? (fun z => decide (z.1 ≤ b) && decide (b < z.1 + z.2.1)) = some g → s.triadBodyOk a = true →
      i = b - g.1 → (s.tcmOfImage a).byte b = s.flashByte (g.2.2 + i)) ∧
    (∀ b, (s.imgSegs a).find? (fun z => decide (z.1 ≤ b) && decide (b < z.1 + z.2.1)) = none → (s.tcmOfImage a).byte b = 0xFF) ∧
    (at' 0x43 → good 6 → s.does (.loadmcode ch) fun u => s.answeredFree u ch h 0x43 0 [] ∧ u.usesSlot e.idx slot ∧
      (target → u.fld (pgLaneq q) 0x108 47 32 = v ∧ ∀ j, j < 4 → u.bit pgImage 0x128 (4 * q + j) = true)) ∧
    (at' 0x43 → good 7 → s.bvlOk (s.imgAttr a) (targets pl) = true → s.does (.loadmcode ch) fun u =>
      s.answeredFree u ch h 0x43 0 [] ∧ u.usesSlot e.idx slot ∧ (target → u.fld (pgLaneq q) 0x108 31 16 = v)) ∧
    (at' 0x43 → good 7 → s.bvlOk (s.imgAttr a) (targets pl) = false → s.does (.loadmcode ch) fun u =>
      s.answeredFree u ch h 0x43 5 [] ∧ same u) ∧
    (at' 0x43 → good 8 → s.does (.loadmcode ch) fun u => s.answeredFree u ch h 0x43 0 [] ∧ u.usesSlot e.idx slot ∧
      (target → u.bit pgImage 0x128 (40 + q) = true)) ∧
    (at' 0x50 → good 1 → s.does (.wardenswap ch takes) fun u =>
      (takes = true → s.answeredFree u ch h 0x50 0 [] ∧ u.usesSlot e.idx slot ∧ u.fld pgWarden 0x108 20 20 = slot) ∧
      (takes = false → u = { s with svc := { s.svc with op := some (ch, ⟨h, 0x50, pl⟩, .swap e.idx slot s.now) } }))

/-- The end of the long commands (R373, R393, R401, R411, R416): a handover that is not taken in 500 ms leaves the previous firmware
and answers 11, DETAIL 4; RESET and INSTALLSET reset,
INSTALLSET after 100 ms without the acknowledgement of its response. INSTALLSET is refused while SPIF is isolated or off (assumption
64, the model's choice). -/
def Obligations.HandoverAndReset : Prop :=
  ∀ (s : State) (ch h : Nat) (pl : List Byte) (since en sl k w : Nat) (r : SvcReq) (c : Nat),
    let at' (cmd : Nat) : Prop := s.atTurn ch h cmd pl
    let kind := msgNum pl 0 1
    let inst := msgNum pl 1 1
    let state := s.fld pgWarden 0x108 3 0
    let restarted (u : State) (cause : Nat) : Prop :=
      u.fld pgDevice 0x108 15 8 = cause ∧ u.fld pgWarden 0x108 11 8 = 2 ∧ u.svc = Svc.idle ∧ (∀ j, u.copy j = Copy.off) ∧
      u.flash = s.flash ∧ u.warden.revoked = s.warden.revoked
    (s.svc.op = some (ch, r, .swap en sl since) → s.svc.parked = [] → r.hseq = h → ch ∈ allChans →
      (∀ j ∈ allChans, (s.chan j).reqs = if j = ch then [r] else []) → s.does .handoverTimeout fun u =>
        u.svc.op = none ∧ u.now = max s.now (since + 500000000) ∧ s.answered u ch h r.cmd 11 4 [] ∧ u.warden = s.warden) ∧
    ((∀ j q e' l n, s.svc.op ≠ some (j, q, .swap e' l n)) → exec .handoverTimeout s = .next s) ∧
    (at' 0x60 → s.ioQuiet → s.settled → (∀ n, s.portOf n = []) → inst < 64 →
      (kind = 1 → state = 3 → s.does (.reset ch) fun u => restarted u 6) ∧
      (kind = 1 → state = 4 ∨ state = 5 → s.does (.reset ch) fun u => s.answeredFree u ch h 0x60 5 []) ∧
      (2 ≤ kind → kind ≤ 4 → s.resetOk kind inst = true → s.does (.reset ch) fun u =>
        s.answeredFree u ch h 0x60 0 [] ∧ (kind, inst) ∈ u.resets ∧ u.bit pgDevice 0x110 1 = true ∧
        (kind = 4 → (u.triad inst).mode = 0 ∧ (c < 3 → u.copy (3 * inst + c) = Copy.off))) ∧
      (kind ≠ 1 → s.resetOk kind inst = false → s.does (.reset ch) fun u =>
        s.answeredFree u ch h 0x60 5 [] ∧ u.resets = s.resets ∧ u.bit pgDevice 0x110 0 = true)) ∧
    (at' 0x61 → s.spifOn = false → s.does (.installset ch) fun u => s.answeredFree u ch h 0x61 5 [] ∧ u.svc.op = none) ∧
    (at' 0x61 → s.spifOn = true → s.does (.installset ch) fun u => u.flash = s.flash ∧ u.warden = s.warden ∧
      (s.prefBad = some k → s.answered u ch h 0x61 6 k [] ∧ u.svc.op = none) ∧
      (s.prefBad = none → s.manifest s.prefSet = some k → s.answered u ch h 0x61 7 k [] ∧ u.svc.op = none) ∧
      (s.prefBad = none → s.manifest s.prefSet = none → s.answeredFree u ch h 0x61 0 [] ∧
        u.svc.op = some (ch, ⟨h, 0x61, pl⟩, .install ((s.chan ch).wseq + 1) s.now))) ∧
    (s.svc.op = some (ch, r, .install w since) → s.does .acknowledgeWaitExpiry fun u =>
      restarted u (if s.umber then 8 else 6) ∧ u.now = max s.now (since + 100000000) ∧ u.fld pgWarden 0x108 17 16 = 0) ∧
    ((∀ j q n l, s.svc.op ≠ some (j, q, .install n l)) → exec .acknowledgeWaitExpiry s = .next s)

/-! Reset, and what every step keeps. -/

/-- Right after power-on reset (R371, R394): no command waits; every register of every page holds its table's reset value; no triad
has power and no copy runs; TIME is 0; the fabric and the I/O complex are off; the start stands before step 2; the registers and the
boot flash have the canonical form. That the device is an FL-8464 of DEVID 0 with an erased flash is the model's choice (assumption 5). -/
def Obligations.ResetState : Prop :=
  let s := State.reset
  s.pending = [] ∧ (∀ page off, s.reg page off = regReset (regKey page off)) ∧
  (∀ t, t < 64 → (s.triad t).mode = 0 ∧ s.powerState t = 0) ∧ (∀ k, s.copy k = Copy.off) ∧ s.now = 0 ∧ s.timeB.actGen = 0 ∧
  s.fab = false ∧ s.fabio = false ∧ s.fcol.dsafe = false ∧ s.fcol.head = 0 ∧ (∀ k, s.chan k = Chan.empty) ∧
  s.fld pgWarden 0x108 3 0 = 0 ∧ (∀ a, s.flashByte a = 0xFF) ∧ s.canonical = true

/-- Every step keeps the canonical form: no register and no byte of the boot flash is listed twice, out of order, or at the value
that an unlisted one reads as. -/
def Obligations.StepsKeepTheCanonicalForm : Prop :=
  ∀ s t : State, s.canonical = true → step s = .next t → t.canonical = true

/-- An FLA command acts within its triad (R43, R52: what leaves a copy leaves it through the TMI): every other triad with its copies and its TRIAD page, the shared memories and
their ports, the engines of links, the links, lanes and ports, the service channels, TIME and the queue stand. -/
def Obligations.FlaStaysWithinItsTriad : Prop :=
  ∀ (c : Instr) (s t : State) (x : Ctx) (rep : Option RepKind) (i : Fla), c.fla = some (x, rep, i) → exec c s = .next t →
    (∀ j, j / 3 ≠ x.t → t.copy j = s.copy j) ∧
    (∀ u, u ≠ x.t → t.triad u = s.triad u ∧ (u < 64 → ∀ off, off < 0x1000 → t.reg (pgTriad u) off = s.reg (pgTriad u) off)) ∧
    t.sram = s.sram ∧ t.ddr = s.ddr ∧ t.port = s.port ∧ t.ddrQ = s.ddrQ ∧ t.vmeIn = s.vmeIn ∧ t.flash = s.flash ∧
    t.lanes = s.lanes ∧ t.links = s.links ∧ t.lengines = s.lengines ∧ t.vme = s.vme ∧ t.cans = s.cans ∧ t.uarts = s.uarts ∧
    t.i2cs = s.i2cs ∧ t.svc = s.svc ∧ t.warden = s.warden ∧ t.timeB = s.timeB ∧ t.pending = s.pending ∧ t.out = s.out
end

