-- ==== Sys2Proof/Laws/AMap.lean ====
section
/-! SUPPORT. The laws of the sparse collections: a read after a write, and the canonical form every write keeps. -/

namespace Sys2Proof

theorem AMap.find?_put {α : Type} (m : AMap α) (k j : Nat) (v : α) :
    AMap.find? (AMap.put k v m) j = if j = k then some v else AMap.find? m j := by
  induction m with
  | nil => simp [AMap.put, AMap.find?]
  | cons e m ih =>
    obtain ⟨a, w⟩ := e
    simp only [AMap.put]
    split
    · simp [AMap.find?]
    · split
      · subst_vars
        simp only [AMap.find?]
        split <;> rfl
      · simp only [AMap.find?, ih]
        split
        · subst_vars
          rw [if_neg (by omega)]
        · rfl

theorem AMap.find?_drop {α : Type} (m : AMap α) (k j : Nat) :
    AMap.find? (AMap.drop k m) j = if j = k then none else AMap.find? m j := by
  induction m with
  | nil => simp [AMap.drop, AMap.find?]
  | cons e m ih =>
    obtain ⟨a, w⟩ := e
    unfold AMap.drop at ih ⊢
    by_cases h : a = k
    · subst h
      simp only [List.filter, bne_self_eq_false, ih, AMap.find?]
      split <;> rfl
    · have h' : (a != k) = true := by simpa using h
      simp only [List.filter, h', AMap.find?, ih]
      split
      · subst_vars
        rw [if_neg h]
      · rfl

/-- Reading `j` after writing `v` at `k`. -/
theorem AMap.get_set {α : Type} [DecidableEq α] (m : AMap α) (d : Nat → α) (k j : Nat) (v : α) :
    AMap.get (AMap.set m d k v) d j = if j = k then v else AMap.get m d j := by
  unfold AMap.get AMap.set
  split
  · rename_i h
    rw [AMap.find?_drop]
    split
    · subst_vars; simp
    · rfl
  · rw [AMap.find?_put]
    split <;> rfl

@[simp] theorem AMap.get_set_self {α : Type} [DecidableEq α] (m : AMap α) (d : Nat → α) (k : Nat) (v : α) :
    AMap.get (AMap.set m d k v) d k = v := by
  simp [AMap.get_set]

theorem AMap.get_set_ne {α : Type} [DecidableEq α] (m : AMap α) (d : Nat → α) (k j : Nat) (v : α) (h : j ≠ k) :
    AMap.get (AMap.set m d k v) d j = AMap.get m d j := by
  simp [AMap.get_set, h]

/-- A lower bound of every key. -/
def AMap.above {α : Type} (b : Nat) (m : AMap α) : Bool := m.all fun e => decide (b < e.1)

theorem AMap.rising_cons {α : Type} (a : Nat) (w : α) (m : AMap α) :
    AMap.rising ((a, w) :: m) = (AMap.above a m && AMap.rising m) := by
  induction m generalizing a w with
  | nil => simp [AMap.rising, AMap.above]
  | cons e m ih =>
    obtain ⟨b, u⟩ := e
    rw [AMap.rising, ih]
    simp only [AMap.above, List.all_cons]
    by_cases h : a < b
    · simp only [h, decide_true, Bool.true_and]
      cases hm : (m.all fun e => decide (b < e.1))
      · simp
      · have : (m.all fun e => decide (a < e.1)) = true := by
          simp only [List.all_eq_true, decide_eq_true_eq] at hm ⊢
          intro e he
          exact Nat.lt_trans h (hm e he)
        simp [this]
    · simp [h]

theorem AMap.above_put {α : Type} (b k : Nat) (v : α) (m : AMap α) (h : b < k) (hm : AMap.above b m = true) :
    AMap.above b (AMap.put k v m) = true := by
  induction m with
  | nil => simp [AMap.put, AMap.above, h]
  | cons e m ih =>
    obtain ⟨a, w⟩ := e
    simp only [AMap.above, List.all_cons, Bool.and_eq_true, decide_eq_true_eq] at hm
    simp only [AMap.put]
    split
    · simp [AMap.above, h, hm.1, hm.2]
    · split
      · simp [AMap.above, h, hm.2]
      · simp only [AMap.above, List.all_cons, Bool.and_eq_true, decide_eq_true_eq]
        exact ⟨hm.1, ih hm.2⟩

theorem AMap.rising_put {α : Type} (k : Nat) (v : α) (m : AMap α) (hm : AMap.rising m = true) :
    AMap.rising (AMap.put k v m) = true := by
  induction m with
  | nil => rfl
  | cons e m ih =>
    obtain ⟨a, w⟩ := e
    rw [AMap.rising_cons, Bool.and_eq_true] at hm
    simp only [AMap.put]
    split
    · rename_i h
      rw [AMap.rising_cons, AMap.rising_cons, hm.1, hm.2]
      simp only [AMap.above, List.all_cons, h, decide_true, Bool.true_and, Bool.and_true]
      have h1 := hm.1
      simp only [AMap.above, List.all_eq_true, decide_eq_true_eq] at h1 ⊢
      intro e he
      exact Nat.lt_trans h (h1 e he)
    · split
      · subst_vars
        rw [AMap.rising_cons, hm.1, hm.2]; rfl
      · rw [AMap.rising_cons, AMap.above_put a k v m (by omega) hm.1, ih hm.2]; rfl

theorem AMap.above_drop {α : Type} (b k : Nat) (m : AMap α) (hm : AMap.above b m = true) :
    AMap.above b (AMap.drop k m) = true := by
  simp only [AMap.above, AMap.drop, List.all_eq_true, List.mem_filter] at hm ⊢
  exact fun e he => hm e he.1

theorem AMap.rising_drop {α : Type} (k : Nat) (m : AMap α) (hm : AMap.rising m = true) :
    AMap.rising (AMap.drop k m) = true := by
  induction m with
  | nil => rfl
  | cons e m ih =>
    obtain ⟨a, w⟩ := e
    rw [AMap.rising_cons, Bool.and_eq_true] at hm
    have ih' := ih hm.2
    have ha := AMap.above_drop a k m hm.1
    unfold AMap.drop at ih' ha ⊢
    by_cases h : a = k
    · have : (a != k) = false := by simp [h]
      simp [this, ih']
    · have : (a != k) = true := by simpa using h
      simp only [List.filter, this]
      rw [AMap.rising_cons, ha, ih']; rfl

theorem AMap.mem_put {α : Type} (k : Nat) (v : α) (m : AMap α) (e : Nat × α) (he : e ∈ AMap.put k v m) :
    e = (k, v) ∨ e ∈ m := by
  induction m with
  | nil => simpa [AMap.put] using he
  | cons f m ih =>
    obtain ⟨a, w⟩ := f
    simp only [AMap.put] at he
    split at he
    · simpa using he
    · split at he
      · simp only [List.mem_cons] at he ⊢
        rcases he with h | h
        · exact .inl h
        · exact .inr (.inr h)
      · simp only [List.mem_cons] at he ⊢
        rcases he with h | h
        · exact .inr (.inl h)
        · rcases ih h with h | h
          · exact .inl h
          · exact .inr (.inr h)

/-- Every write keeps the canonical form. -/
theorem AMap.wf_set {α : Type} [DecidableEq α] (m : AMap α) (d : Nat → α) (k : Nat) (v : α)
    (hm : AMap.wf m d = true) : AMap.wf (AMap.set m d k v) d = true := by
  simp only [AMap.wf, Bool.and_eq_true, List.all_eq_true, decide_eq_true_eq] at hm ⊢
  unfold AMap.set
  split
  · refine ⟨AMap.rising_drop k m hm.1, ?_⟩
    intro e he
    simp only [AMap.drop, List.mem_filter] at he
    exact hm.2 e he.1
  · rename_i hv
    refine ⟨AMap.rising_put k v m hm.1, ?_⟩
    intro e he
    rcases AMap.mem_put k v m e he with h | h
    · subst h; exact hv
    · exact hm.2 e h

@[simp] theorem AMap.wf_nil {α : Type} [DecidableEq α] (d : Nat → α) : AMap.wf ([] : AMap α) d = true := rfl

@[simp] theorem AMap.get_nil {α : Type} (d : Nat → α) (k : Nat) : AMap.get ([] : AMap α) d k = d k := rfl

end Sys2Proof
end

