-- ==== Sys2Proof/Laws/Copy.lean ====
section
/-! SUPPORT. What the operations on one copy leave alone: register writes, shadows that end, the retirement of a group whose
effect names no control register and no special action. -/

namespace Sys2Proof.Machine

/-- A property of copies that no MPU generation changes survives the end of shadows. -/
theorem Copy.endShadows_keeps {α : Type} (f : Copy → α) (hs : ∀ (c : Copy) l, f { c with shadow := l } = f c)
    (hc : ∀ (c : Copy) v n, f { c.setCr 0x71 v with ovl := n } = f c) (c : Copy) (keep : Shadow → Bool) :
    f (c.endShadows keep) = f c := by
  have one : ∀ (d : Copy) (e : Shadow), f (d.endShadow e) = f d := by
    intro d e
    unfold Copy.endShadow
    dsimp only
    split
    · exact (hc _ _ _).trans (hs _ _)
    · exact hs _ _
  have key : ∀ (l : List Shadow) (d : Copy), f (l.foldl (fun c e => c.endShadow e) d) = f d := by
    intro l
    induction l with
    | nil => intro d; rfl
    | cons e l ih => intro d; rw [List.foldl_cons, ih]; exact one _ _
  exact key _ _

/-- The same of one instruction's tick of the shadow. -/
theorem Copy.tickShadow_keeps {α : Type} (f : Copy → α) (hs : ∀ (c : Copy) l, f { c with shadow := l } = f c)
    (hc : ∀ (c : Copy) v n, f { c.setCr 0x71 v with ovl := n } = f c) (c : Copy) : f c.tickShadow = f c := by
  simp only [Copy.tickShadow, Copy.endShadows_keeps f hs hc, hs]

@[simp] theorem Copy.tickShadow_g (c : Copy) : c.tickShadow.g = c.g :=
  Copy.tickShadow_keeps (·.g) (fun _ _ => rfl) (fun _ _ _ => rfl) c
@[simp] theorem Copy.tickShadow_preds (c : Copy) : c.tickShadow.preds = c.preds :=
  Copy.tickShadow_keeps (·.preds) (fun _ _ => rfl) (fun _ _ _ => rfl) c
@[simp] theorem Copy.tickShadow_tcm (c : Copy) : c.tickShadow.tcm = c.tcm :=
  Copy.tickShadow_keeps (·.tcm) (fun _ _ => rfl) (fun _ _ _ => rfl) c
@[simp] theorem Copy.tickShadow_localFlag (c : Copy) : c.tickShadow.localFlag = c.localFlag :=
  Copy.tickShadow_keeps (·.localFlag) (fun _ _ => rfl) (fun _ _ _ => rfl) c
@[simp] theorem Copy.tickShadow_resv (c : Copy) : c.tickShadow.resv = c.resv :=
  Copy.tickShadow_keeps (·.resv) (fun _ _ => rfl) (fun _ _ _ => rfl) c
@[simp] theorem Copy.tickShadow_pend (c : Copy) : c.tickShadow.pend = c.pend :=
  Copy.tickShadow_keeps (·.pend) (fun _ _ => rfl) (fun _ _ _ => rfl) c
@[simp] theorem Copy.tickShadow_retcnt (c : Copy) : c.tickShadow.retcnt = c.retcnt :=
  Copy.tickShadow_keeps (·.retcnt) (fun _ _ => rfl) (fun _ _ _ => rfl) c
@[simp] theorem Copy.tickShadow_pc (c : Copy) : c.tickShadow.pc = c.pc :=
  Copy.tickShadow_keeps (·.pc) (fun _ _ => rfl) (fun _ _ _ => rfl) c
@[simp] theorem Copy.tickShadow_emerg (c : Copy) : c.tickShadow.emerg = c.emerg :=
  Copy.tickShadow_keeps (·.emerg) (fun _ _ => rfl) (fun _ _ _ => rfl) c
@[simp] theorem Copy.tickShadow_st (c : Copy) : c.tickShadow.st = c.st :=
  Copy.tickShadow_keeps (·.st) (fun _ _ => rfl) (fun _ _ _ => rfl) c
@[simp] theorem Copy.tickShadow_hold (c : Copy) : c.tickShadow.hold = c.hold :=
  Copy.tickShadow_keeps (·.hold) (fun _ _ => rfl) (fun _ _ _ => rfl) c
@[simp] theorem Copy.tickShadow_tints (c : Copy) : c.tickShadow.tints = c.tints :=
  Copy.tickShadow_keeps (·.tints) (fun _ _ => rfl) (fun _ _ _ => rfl) c

/-- The end of a shadow changes no control register but the MPU's generation. -/
@[simp] theorem Copy.tickShadow_crv (c : Copy) (n : Nat) (h : n ≠ 0x71) : c.tickShadow.crv n = c.crv n :=
  Copy.tickShadow_keeps (·.crv n) (fun _ _ => rfl) (fun c v _ => by simp [Copy.crv, Copy.setCr, AMap.get_set, h]) c

/-- The level in force does not change with a shadow. -/
@[simp] theorem Copy.tickShadow_level (c : Copy) : c.tickShadow.level = c.level := by
  simp [Copy.level]

/-- The place just written reads as written, every other as before. -/
theorem Copy.gAt_setG (c : Copy) (k j : Nat) (v : Word) : (c.setG k v).gAt j = if j = k then v else c.gAt j := by
  simp [Copy.gAt, Copy.setG, AMap.get_set]

theorem Copy.gAt_wr (c : Copy) (r : Reg) (j : Nat) (v : Word) :
    (c.wr r v).gAt j = if j = c.slotOf r then v else c.gAt j := by
  unfold Copy.wr Copy.slotOf
  split
  · exact Copy.gAt_setG _ _ _ _
  · exact Copy.gAt_setG _ _ _ _

@[simp] theorem Copy.gAt_setPreds (c : Copy) (m v j : Nat) : (c.setPreds m v).gAt j = c.gAt j := rfl

/-- Reading a register is reading its place, but for the stack pointer in the shadow of an MTC to its bank (R89). -/
theorem Copy.rd_eq (c : Copy) (r : Reg) (h : ∀ e ∈ c.shadow, e.cr ≠ bankCr (spBank c.level)) :
    c.rd r = c.gAt (c.slotOf r) := by
  unfold Copy.rd Copy.slotOf
  split
  · unfold Copy.sp
    rw [List.find?_eq_none.2 (by simpa using h)]
  · rfl

end Sys2Proof.Machine
end

