-- ==== Sys2Proof/Laws/State.lean ====
section
/-! SUPPORT. What each plain update of the state leaves alone, one lemma for each field and update, and what a read gives after
a write of the same collection. -/

namespace Sys2Proof.Machine

@[simp] theorem State.setReg_pending (s : State) (p o : Nat) (v : Word) : (s.setReg p o v).pending = s.pending := rfl
@[simp] theorem State.setReg_variant (s : State) (p o : Nat) (v : Word) : (s.setReg p o v).variant = s.variant := rfl
@[simp] theorem State.setReg_devid (s : State) (p o : Nat) (v : Word) : (s.setReg p o v).devid = s.devid := rfl
@[simp] theorem State.setReg_xtal (s : State) (p o : Nat) (v : Word) : (s.setReg p o v).xtal = s.xtal := rfl
@[simp] theorem State.setReg_slot (s : State) (p o : Nat) (v : Word) : (s.setReg p o v).slot = s.slot := rfl
@[simp] theorem State.setReg_fresh (s : State) (p o : Nat) (v : Word) : (s.setReg p o v).fresh = s.fresh := rfl
@[simp] theorem State.setReg_pggen (s : State) (p o : Nat) (v : Word) : (s.setReg p o v).pggen = s.pggen := rfl
@[simp] theorem State.setReg_copies (s : State) (p o : Nat) (v : Word) : (s.setReg p o v).copies = s.copies := rfl
@[simp] theorem State.setReg_triads (s : State) (p o : Nat) (v : Word) : (s.setReg p o v).triads = s.triads := rfl
@[simp] theorem State.setReg_fcol (s : State) (p o : Nat) (v : Word) : (s.setReg p o v).fcol = s.fcol := rfl
@[simp] theorem State.setReg_sram (s : State) (p o : Nat) (v : Word) : (s.setReg p o v).sram = s.sram := rfl
@[simp] theorem State.setReg_port (s : State) (p o : Nat) (v : Word) : (s.setReg p o v).port = s.port := rfl
@[simp] theorem State.setReg_sramWb (s : State) (p o : Nat) (v : Word) : (s.setReg p o v).sramWb = s.sramWb := rfl
@[simp] theorem State.setReg_ddr (s : State) (p o : Nat) (v : Word) : (s.setReg p o v).ddr = s.ddr := rfl
@[simp] theorem State.setReg_ddrQ (s : State) (p o : Nat) (v : Word) : (s.setReg p o v).ddrQ = s.ddrQ := rfl
@[simp] theorem State.setReg_ddrWb (s : State) (p o : Nat) (v : Word) : (s.setReg p o v).ddrWb = s.ddrWb := rfl
@[simp] theorem State.setReg_ddrDirty (s : State) (p o : Nat) (v : Word) : (s.setReg p o v).ddrDirty = s.ddrDirty := rfl
@[simp] theorem State.setReg_ddrWin (s : State) (p o : Nat) (v : Word) : (s.setReg p o v).ddrWin = s.ddrWin := rfl
@[simp] theorem State.setReg_resync (s : State) (p o : Nat) (v : Word) : (s.setReg p o v).resync = s.resync := rfl
@[simp] theorem State.setReg_resv (s : State) (p o : Nat) (v : Word) : (s.setReg p o v).resv = s.resv := rfl
@[simp] theorem State.setReg_resps (s : State) (p o : Nat) (v : Word) : (s.setReg p o v).resps = s.resps := rfl
@[simp] theorem State.setReg_tags (s : State) (p o : Nat) (v : Word) : (s.setReg p o v).tags = s.tags := rfl
@[simp] theorem State.setReg_flitRx (s : State) (p o : Nat) (v : Word) : (s.setReg p o v).flitRx = s.flitRx := rfl
@[simp] theorem State.setReg_flitTx (s : State) (p o : Nat) (v : Word) : (s.setReg p o v).flitTx = s.flitTx := rfl
@[simp] theorem State.setReg_vmeIn (s : State) (p o : Nat) (v : Word) : (s.setReg p o v).vmeIn = s.vmeIn := rfl
@[simp] theorem State.setReg_timeB (s : State) (p o : Nat) (v : Word) : (s.setReg p o v).timeB = s.timeB := rfl
@[simp] theorem State.setReg_engines (s : State) (p o : Nat) (v : Word) : (s.setReg p o v).engines = s.engines := rfl
@[simp] theorem State.setReg_lengines (s : State) (p o : Nat) (v : Word) : (s.setReg p o v).lengines = s.lengines := rfl
@[simp] theorem State.setReg_notices (s : State) (p o : Nat) (v : Word) : (s.setReg p o v).notices = s.notices := rfl
@[simp] theorem State.setReg_injMade (s : State) (p o : Nat) (v : Word) : (s.setReg p o v).injMade = s.injMade := rfl
@[simp] theorem State.setReg_lanes (s : State) (p o : Nat) (v : Word) : (s.setReg p o v).lanes = s.lanes := rfl
@[simp] theorem State.setReg_links (s : State) (p o : Nat) (v : Word) : (s.setReg p o v).links = s.links := rfl
@[simp] theorem State.setReg_spares (s : State) (p o : Nat) (v : Word) : (s.setReg p o v).spares = s.spares := rfl
@[simp] theorem State.setReg_bvlVers (s : State) (p o : Nat) (v : Word) : (s.setReg p o v).bvlVers = s.bvlVers := rfl
@[simp] theorem State.setReg_out (s : State) (p o : Nat) (v : Word) : (s.setReg p o v).out = s.out := rfl
@[simp] theorem State.setReg_vme (s : State) (p o : Nat) (v : Word) : (s.setReg p o v).vme = s.vme := rfl
@[simp] theorem State.setReg_cans (s : State) (p o : Nat) (v : Word) : (s.setReg p o v).cans = s.cans := rfl
@[simp] theorem State.setReg_uarts (s : State) (p o : Nat) (v : Word) : (s.setReg p o v).uarts = s.uarts := rfl
@[simp] theorem State.setReg_flash (s : State) (p o : Nat) (v : Word) : (s.setReg p o v).flash = s.flash := rfl
@[simp] theorem State.setReg_warden (s : State) (p o : Nat) (v : Word) : (s.setReg p o v).warden = s.warden := rfl
@[simp] theorem State.setReg_svc (s : State) (p o : Nat) (v : Word) : (s.setReg p o v).svc = s.svc := rfl
@[simp] theorem State.setReg_bist (s : State) (p o : Nat) (v : Word) : (s.setReg p o v).bist = s.bist := rfl
@[simp] theorem State.setReg_resets (s : State) (p o : Nat) (v : Word) : (s.setReg p o v).resets = s.resets := rfl
@[simp] theorem State.setReg_bridgeShut (s : State) (p o : Nat) (v : Word) : (s.setReg p o v).bridgeShut = s.bridgeShut := rfl
@[simp] theorem State.setReg_savedDom (s : State) (p o : Nat) (v : Word) : (s.setReg p o v).savedDom = s.savedDom := rfl
@[simp] theorem State.setReg_wakeLatch (s : State) (p o : Nat) (v : Word) : (s.setReg p o v).wakeLatch = s.wakeLatch := rfl
@[simp] theorem State.setReg_savedWake (s : State) (p o : Nat) (v : Word) : (s.setReg p o v).savedWake = s.savedWake := rfl
@[simp] theorem State.setReg_warned (s : State) (p o : Nat) (v : Word) : (s.setReg p o v).warned = s.warned := rfl
@[simp] theorem State.setReg_pins (s : State) (p o : Nat) (v : Word) : (s.setReg p o v).pins = s.pins := rfl
@[simp] theorem State.setReg_fabio (s : State) (p o : Nat) (v : Word) : (s.setReg p o v).fabio = s.fabio := rfl
@[simp] theorem State.setReg_fab (s : State) (p o : Nat) (v : Word) : (s.setReg p o v).fab = s.fab := rfl
@[simp] theorem State.setReg_aoc (s : State) (p o : Nat) (v : Word) : (s.setReg p o v).aoc = s.aoc := rfl
@[simp] theorem State.setReg_tapReset (s : State) (p o : Nat) (v : Word) : (s.setReg p o v).tapReset = s.tapReset := rfl
@[simp] theorem State.setReg_switching (s : State) (p o : Nat) (v : Word) : (s.setReg p o v).switching = s.switching := rfl
@[simp] theorem State.setReg_heldSwitch (s : State) (p o : Nat) (v : Word) : (s.setReg p o v).heldSwitch = s.heldSwitch := rfl

@[simp] theorem State.setFld_pending (s : State) (p o hi lo v : Nat) : (s.setFld p o hi lo v).pending = s.pending := rfl
@[simp] theorem State.setFld_variant (s : State) (p o hi lo v : Nat) : (s.setFld p o hi lo v).variant = s.variant := rfl
@[simp] theorem State.setFld_devid (s : State) (p o hi lo v : Nat) : (s.setFld p o hi lo v).devid = s.devid := rfl
@[simp] theorem State.setFld_xtal (s : State) (p o hi lo v : Nat) : (s.setFld p o hi lo v).xtal = s.xtal := rfl
@[simp] theorem State.setFld_slot (s : State) (p o hi lo v : Nat) : (s.setFld p o hi lo v).slot = s.slot := rfl
@[simp] theorem State.setFld_fresh (s : State) (p o hi lo v : Nat) : (s.setFld p o hi lo v).fresh = s.fresh := rfl
@[simp] theorem State.setFld_pggen (s : State) (p o hi lo v : Nat) : (s.setFld p o hi lo v).pggen = s.pggen := rfl
@[simp] theorem State.setFld_copies (s : State) (p o hi lo v : Nat) : (s.setFld p o hi lo v).copies = s.copies := rfl
@[simp] theorem State.setFld_triads (s : State) (p o hi lo v : Nat) : (s.setFld p o hi lo v).triads = s.triads := rfl
@[simp] theorem State.setFld_fcol (s : State) (p o hi lo v : Nat) : (s.setFld p o hi lo v).fcol = s.fcol := rfl
@[simp] theorem State.setFld_sram (s : State) (p o hi lo v : Nat) : (s.setFld p o hi lo v).sram = s.sram := rfl
@[simp] theorem State.setFld_port (s : State) (p o hi lo v : Nat) : (s.setFld p o hi lo v).port = s.port := rfl
@[simp] theorem State.setFld_sramWb (s : State) (p o hi lo v : Nat) : (s.setFld p o hi lo v).sramWb = s.sramWb := rfl
@[simp] theorem State.setFld_ddr (s : State) (p o hi lo v : Nat) : (s.setFld p o hi lo v).ddr = s.ddr := rfl
@[simp] theorem State.setFld_ddrQ (s : State) (p o hi lo v : Nat) : (s.setFld p o hi lo v).ddrQ = s.ddrQ := rfl
@[simp] theorem State.setFld_ddrWb (s : State) (p o hi lo v : Nat) : (s.setFld p o hi lo v).ddrWb = s.ddrWb := rfl
@[simp] theorem State.setFld_ddrDirty (s : State) (p o hi lo v : Nat) : (s.setFld p o hi lo v).ddrDirty = s.ddrDirty := rfl
@[simp] theorem State.setFld_ddrWin (s : State) (p o hi lo v : Nat) : (s.setFld p o hi lo v).ddrWin = s.ddrWin := rfl
@[simp] theorem State.setFld_resync (s : State) (p o hi lo v : Nat) : (s.setFld p o hi lo v).resync = s.resync := rfl
@[simp] theorem State.setFld_resv (s : State) (p o hi lo v : Nat) : (s.setFld p o hi lo v).resv = s.resv := rfl
@[simp] theorem State.setFld_resps (s : State) (p o hi lo v : Nat) : (s.setFld p o hi lo v).resps = s.resps := rfl
@[simp] theorem State.setFld_tags (s : State) (p o hi lo v : Nat) : (s.setFld p o hi lo v).tags = s.tags := rfl
@[simp] theorem State.setFld_flitRx (s : State) (p o hi lo v : Nat) : (s.setFld p o hi lo v).flitRx = s.flitRx := rfl
@[simp] theorem State.setFld_flitTx (s : State) (p o hi lo v : Nat) : (s.setFld p o hi lo v).flitTx = s.flitTx := rfl
@[simp] theorem State.setFld_vmeIn (s : State) (p o hi lo v : Nat) : (s.setFld p o hi lo v).vmeIn = s.vmeIn := rfl
@[simp] theorem State.setFld_timeB (s : State) (p o hi lo v : Nat) : (s.setFld p o hi lo v).timeB = s.timeB := rfl
@[simp] theorem State.setFld_engines (s : State) (p o hi lo v : Nat) : (s.setFld p o hi lo v).engines = s.engines := rfl
@[simp] theorem State.setFld_lengines (s : State) (p o hi lo v : Nat) : (s.setFld p o hi lo v).lengines = s.lengines := rfl
@[simp] theorem State.setFld_notices (s : State) (p o hi lo v : Nat) : (s.setFld p o hi lo v).notices = s.notices := rfl
@[simp] theorem State.setFld_injMade (s : State) (p o hi lo v : Nat) : (s.setFld p o hi lo v).injMade = s.injMade := rfl
@[simp] theorem State.setFld_lanes (s : State) (p o hi lo v : Nat) : (s.setFld p o hi lo v).lanes = s.lanes := rfl
@[simp] theorem State.setFld_links (s : State) (p o hi lo v : Nat) : (s.setFld p o hi lo v).links = s.links := rfl
@[simp] theorem State.setFld_spares (s : State) (p o hi lo v : Nat) : (s.setFld p o hi lo v).spares = s.spares := rfl
@[simp] theorem State.setFld_bvlVers (s : State) (p o hi lo v : Nat) : (s.setFld p o hi lo v).bvlVers = s.bvlVers := rfl
@[simp] theorem State.setFld_out (s : State) (p o hi lo v : Nat) : (s.setFld p o hi lo v).out = s.out := rfl
@[simp] theorem State.setFld_vme (s : State) (p o hi lo v : Nat) : (s.setFld p o hi lo v).vme = s.vme := rfl
@[simp] theorem State.setFld_cans (s : State) (p o hi lo v : Nat) : (s.setFld p o hi lo v).cans = s.cans := rfl
@[simp] theorem State.setFld_uarts (s : State) (p o hi lo v : Nat) : (s.setFld p o hi lo v).uarts = s.uarts := rfl
@[simp] theorem State.setFld_flash (s : State) (p o hi lo v : Nat) : (s.setFld p o hi lo v).flash = s.flash := rfl
@[simp] theorem State.setFld_warden (s : State) (p o hi lo v : Nat) : (s.setFld p o hi lo v).warden = s.warden := rfl
@[simp] theorem State.setFld_svc (s : State) (p o hi lo v : Nat) : (s.setFld p o hi lo v).svc = s.svc := rfl
@[simp] theorem State.setFld_bist (s : State) (p o hi lo v : Nat) : (s.setFld p o hi lo v).bist = s.bist := rfl
@[simp] theorem State.setFld_resets (s : State) (p o hi lo v : Nat) : (s.setFld p o hi lo v).resets = s.resets := rfl
@[simp] theorem State.setFld_bridgeShut (s : State) (p o hi lo v : Nat) : (s.setFld p o hi lo v).bridgeShut = s.bridgeShut := rfl
@[simp] theorem State.setFld_savedDom (s : State) (p o hi lo v : Nat) : (s.setFld p o hi lo v).savedDom = s.savedDom := rfl
@[simp] theorem State.setFld_wakeLatch (s : State) (p o hi lo v : Nat) : (s.setFld p o hi lo v).wakeLatch = s.wakeLatch := rfl
@[simp] theorem State.setFld_savedWake (s : State) (p o hi lo v : Nat) : (s.setFld p o hi lo v).savedWake = s.savedWake := rfl
@[simp] theorem State.setFld_warned (s : State) (p o hi lo v : Nat) : (s.setFld p o hi lo v).warned = s.warned := rfl
@[simp] theorem State.setFld_pins (s : State) (p o hi lo v : Nat) : (s.setFld p o hi lo v).pins = s.pins := rfl
@[simp] theorem State.setFld_fabio (s : State) (p o hi lo v : Nat) : (s.setFld p o hi lo v).fabio = s.fabio := rfl
@[simp] theorem State.setFld_fab (s : State) (p o hi lo v : Nat) : (s.setFld p o hi lo v).fab = s.fab := rfl
@[simp] theorem State.setFld_aoc (s : State) (p o hi lo v : Nat) : (s.setFld p o hi lo v).aoc = s.aoc := rfl
@[simp] theorem State.setFld_tapReset (s : State) (p o hi lo v : Nat) : (s.setFld p o hi lo v).tapReset = s.tapReset := rfl
@[simp] theorem State.setFld_switching (s : State) (p o hi lo v : Nat) : (s.setFld p o hi lo v).switching = s.switching := rfl
@[simp] theorem State.setFld_heldSwitch (s : State) (p o hi lo v : Nat) : (s.setFld p o hi lo v).heldSwitch = s.heldSwitch := rfl

@[simp] theorem State.count_pending (s : State) (p o : Nat) : (s.count p o).pending = s.pending := rfl
@[simp] theorem State.count_variant (s : State) (p o : Nat) : (s.count p o).variant = s.variant := rfl
@[simp] theorem State.count_devid (s : State) (p o : Nat) : (s.count p o).devid = s.devid := rfl
@[simp] theorem State.count_xtal (s : State) (p o : Nat) : (s.count p o).xtal = s.xtal := rfl
@[simp] theorem State.count_slot (s : State) (p o : Nat) : (s.count p o).slot = s.slot := rfl
@[simp] theorem State.count_fresh (s : State) (p o : Nat) : (s.count p o).fresh = s.fresh := rfl
@[simp] theorem State.count_pggen (s : State) (p o : Nat) : (s.count p o).pggen = s.pggen := rfl
@[simp] theorem State.count_copies (s : State) (p o : Nat) : (s.count p o).copies = s.copies := rfl
@[simp] theorem State.count_triads (s : State) (p o : Nat) : (s.count p o).triads = s.triads := rfl
@[simp] theorem State.count_fcol (s : State) (p o : Nat) : (s.count p o).fcol = s.fcol := rfl
@[simp] theorem State.count_sram (s : State) (p o : Nat) : (s.count p o).sram = s.sram := rfl
@[simp] theorem State.count_port (s : State) (p o : Nat) : (s.count p o).port = s.port := rfl
@[simp] theorem State.count_sramWb (s : State) (p o : Nat) : (s.count p o).sramWb = s.sramWb := rfl
@[simp] theorem State.count_ddr (s : State) (p o : Nat) : (s.count p o).ddr = s.ddr := rfl
@[simp] theorem State.count_ddrQ (s : State) (p o : Nat) : (s.count p o).ddrQ = s.ddrQ := rfl
@[simp] theorem State.count_ddrWb (s : State) (p o : Nat) : (s.count p o).ddrWb = s.ddrWb := rfl
@[simp] theorem State.count_ddrDirty (s : State) (p o : Nat) : (s.count p o).ddrDirty = s.ddrDirty := rfl
@[simp] theorem State.count_ddrWin (s : State) (p o : Nat) : (s.count p o).ddrWin = s.ddrWin := rfl
@[simp] theorem State.count_resync (s : State) (p o : Nat) : (s.count p o).resync = s.resync := rfl
@[simp] theorem State.count_resv (s : State) (p o : Nat) : (s.count p o).resv = s.resv := rfl
@[simp] theorem State.count_resps (s : State) (p o : Nat) : (s.count p o).resps = s.resps := rfl
@[simp] theorem State.count_tags (s : State) (p o : Nat) : (s.count p o).tags = s.tags := rfl
@[simp] theorem State.count_flitRx (s : State) (p o : Nat) : (s.count p o).flitRx = s.flitRx := rfl
@[simp] theorem State.count_flitTx (s : State) (p o : Nat) : (s.count p o).flitTx = s.flitTx := rfl
@[simp] theorem State.count_vmeIn (s : State) (p o : Nat) : (s.count p o).vmeIn = s.vmeIn := rfl
@[simp] theorem State.count_timeB (s : State) (p o : Nat) : (s.count p o).timeB = s.timeB := rfl
@[simp] theorem State.count_engines (s : State) (p o : Nat) : (s.count p o).engines = s.engines := rfl
@[simp] theorem State.count_lengines (s : State) (p o : Nat) : (s.count p o).lengines = s.lengines := rfl
@[simp] theorem State.count_notices (s : State) (p o : Nat) : (s.count p o).notices = s.notices := rfl
@[simp] theorem State.count_injMade (s : State) (p o : Nat) : (s.count p o).injMade = s.injMade := rfl
@[simp] theorem State.count_lanes (s : State) (p o : Nat) : (s.count p o).lanes = s.lanes := rfl
@[simp] theorem State.count_links (s : State) (p o : Nat) : (s.count p o).links = s.links := rfl
@[simp] theorem State.count_spares (s : State) (p o : Nat) : (s.count p o).spares = s.spares := rfl
@[simp] theorem State.count_bvlVers (s : State) (p o : Nat) : (s.count p o).bvlVers = s.bvlVers := rfl
@[simp] theorem State.count_out (s : State) (p o : Nat) : (s.count p o).out = s.out := rfl
@[simp] theorem State.count_vme (s : State) (p o : Nat) : (s.count p o).vme = s.vme := rfl
@[simp] theorem State.count_cans (s : State) (p o : Nat) : (s.count p o).cans = s.cans := rfl
@[simp] theorem State.count_uarts (s : State) (p o : Nat) : (s.count p o).uarts = s.uarts := rfl
@[simp] theorem State.count_flash (s : State) (p o : Nat) : (s.count p o).flash = s.flash := rfl
@[simp] theorem State.count_warden (s : State) (p o : Nat) : (s.count p o).warden = s.warden := rfl
@[simp] theorem State.count_svc (s : State) (p o : Nat) : (s.count p o).svc = s.svc := rfl
@[simp] theorem State.count_bist (s : State) (p o : Nat) : (s.count p o).bist = s.bist := rfl
@[simp] theorem State.count_resets (s : State) (p o : Nat) : (s.count p o).resets = s.resets := rfl
@[simp] theorem State.count_bridgeShut (s : State) (p o : Nat) : (s.count p o).bridgeShut = s.bridgeShut := rfl
@[simp] theorem State.count_savedDom (s : State) (p o : Nat) : (s.count p o).savedDom = s.savedDom := rfl
@[simp] theorem State.count_wakeLatch (s : State) (p o : Nat) : (s.count p o).wakeLatch = s.wakeLatch := rfl
@[simp] theorem State.count_savedWake (s : State) (p o : Nat) : (s.count p o).savedWake = s.savedWake := rfl
@[simp] theorem State.count_warned (s : State) (p o : Nat) : (s.count p o).warned = s.warned := rfl
@[simp] theorem State.count_pins (s : State) (p o : Nat) : (s.count p o).pins = s.pins := rfl
@[simp] theorem State.count_fabio (s : State) (p o : Nat) : (s.count p o).fabio = s.fabio := rfl
@[simp] theorem State.count_fab (s : State) (p o : Nat) : (s.count p o).fab = s.fab := rfl
@[simp] theorem State.count_aoc (s : State) (p o : Nat) : (s.count p o).aoc = s.aoc := rfl
@[simp] theorem State.count_tapReset (s : State) (p o : Nat) : (s.count p o).tapReset = s.tapReset := rfl
@[simp] theorem State.count_switching (s : State) (p o : Nat) : (s.count p o).switching = s.switching := rfl
@[simp] theorem State.count_heldSwitch (s : State) (p o : Nat) : (s.count p o).heldSwitch = s.heldSwitch := rfl

@[simp] theorem State.setCopy_pending (s : State) (k : Nat) (c : Copy) : (s.setCopy k c).pending = s.pending := rfl
@[simp] theorem State.setCopy_variant (s : State) (k : Nat) (c : Copy) : (s.setCopy k c).variant = s.variant := rfl
@[simp] theorem State.setCopy_devid (s : State) (k : Nat) (c : Copy) : (s.setCopy k c).devid = s.devid := rfl
@[simp] theorem State.setCopy_xtal (s : State) (k : Nat) (c : Copy) : (s.setCopy k c).xtal = s.xtal := rfl
@[simp] theorem State.setCopy_slot (s : State) (k : Nat) (c : Copy) : (s.setCopy k c).slot = s.slot := rfl
@[simp] theorem State.setCopy_fresh (s : State) (k : Nat) (c : Copy) : (s.setCopy k c).fresh = s.fresh := rfl
@[simp] theorem State.setCopy_regs (s : State) (k : Nat) (c : Copy) : (s.setCopy k c).regs = s.regs := rfl
@[simp] theorem State.setCopy_pggen (s : State) (k : Nat) (c : Copy) : (s.setCopy k c).pggen = s.pggen := rfl
@[simp] theorem State.setCopy_triads (s : State) (k : Nat) (c : Copy) : (s.setCopy k c).triads = s.triads := rfl
@[simp] theorem State.setCopy_fcol (s : State) (k : Nat) (c : Copy) : (s.setCopy k c).fcol = s.fcol := rfl
@[simp] theorem State.setCopy_sram (s : State) (k : Nat) (c : Copy) : (s.setCopy k c).sram = s.sram := rfl
@[simp] theorem State.setCopy_port (s : State) (k : Nat) (c : Copy) : (s.setCopy k c).port = s.port := rfl
@[simp] theorem State.setCopy_sramWb (s : State) (k : Nat) (c : Copy) : (s.setCopy k c).sramWb = s.sramWb := rfl
@[simp] theorem State.setCopy_ddr (s : State) (k : Nat) (c : Copy) : (s.setCopy k c).ddr = s.ddr := rfl
@[simp] theorem State.setCopy_ddrQ (s : State) (k : Nat) (c : Copy) : (s.setCopy k c).ddrQ = s.ddrQ := rfl
@[simp] theorem State.setCopy_ddrWb (s : State) (k : Nat) (c : Copy) : (s.setCopy k c).ddrWb = s.ddrWb := rfl
@[simp] theorem State.setCopy_ddrDirty (s : State) (k : Nat) (c : Copy) : (s.setCopy k c).ddrDirty = s.ddrDirty := rfl
@[simp] theorem State.setCopy_ddrWin (s : State) (k : Nat) (c : Copy) : (s.setCopy k c).ddrWin = s.ddrWin := rfl
@[simp] theorem State.setCopy_resync (s : State) (k : Nat) (c : Copy) : (s.setCopy k c).resync = s.resync := rfl
@[simp] theorem State.setCopy_resv (s : State) (k : Nat) (c : Copy) : (s.setCopy k c).resv = s.resv := rfl
@[simp] theorem State.setCopy_resps (s : State) (k : Nat) (c : Copy) : (s.setCopy k c).resps = s.resps := rfl
@[simp] theorem State.setCopy_tags (s : State) (k : Nat) (c : Copy) : (s.setCopy k c).tags = s.tags := rfl
@[simp] theorem State.setCopy_flitRx (s : State) (k : Nat) (c : Copy) : (s.setCopy k c).flitRx = s.flitRx := rfl
@[simp] theorem State.setCopy_flitTx (s : State) (k : Nat) (c : Copy) : (s.setCopy k c).flitTx = s.flitTx := rfl
@[simp] theorem State.setCopy_vmeIn (s : State) (k : Nat) (c : Copy) : (s.setCopy k c).vmeIn = s.vmeIn := rfl
@[simp] theorem State.setCopy_timeB (s : State) (k : Nat) (c : Copy) : (s.setCopy k c).timeB = s.timeB := rfl
@[simp] theorem State.setCopy_engines (s : State) (k : Nat) (c : Copy) : (s.setCopy k c).engines = s.engines := rfl
@[simp] theorem State.setCopy_lengines (s : State) (k : Nat) (c : Copy) : (s.setCopy k c).lengines = s.lengines := rfl
@[simp] theorem State.setCopy_notices (s : State) (k : Nat) (c : Copy) : (s.setCopy k c).notices = s.notices := rfl
@[simp] theorem State.setCopy_injMade (s : State) (k : Nat) (c : Copy) : (s.setCopy k c).injMade = s.injMade := rfl
@[simp] theorem State.setCopy_lanes (s : State) (k : Nat) (c : Copy) : (s.setCopy k c).lanes = s.lanes := rfl
@[simp] theorem State.setCopy_links (s : State) (k : Nat) (c : Copy) : (s.setCopy k c).links = s.links := rfl
@[simp] theorem State.setCopy_spares (s : State) (k : Nat) (c : Copy) : (s.setCopy k c).spares = s.spares := rfl
@[simp] theorem State.setCopy_bvlVers (s : State) (k : Nat) (c : Copy) : (s.setCopy k c).bvlVers = s.bvlVers := rfl
@[simp] theorem State.setCopy_out (s : State) (k : Nat) (c : Copy) : (s.setCopy k c).out = s.out := rfl
@[simp] theorem State.setCopy_vme (s : State) (k : Nat) (c : Copy) : (s.setCopy k c).vme = s.vme := rfl
@[simp] theorem State.setCopy_cans (s : State) (k : Nat) (c : Copy) : (s.setCopy k c).cans = s.cans := rfl
@[simp] theorem State.setCopy_uarts (s : State) (k : Nat) (c : Copy) : (s.setCopy k c).uarts = s.uarts := rfl
@[simp] theorem State.setCopy_flash (s : State) (k : Nat) (c : Copy) : (s.setCopy k c).flash = s.flash := rfl
@[simp] theorem State.setCopy_warden (s : State) (k : Nat) (c : Copy) : (s.setCopy k c).warden = s.warden := rfl
@[simp] theorem State.setCopy_svc (s : State) (k : Nat) (c : Copy) : (s.setCopy k c).svc = s.svc := rfl
@[simp] theorem State.setCopy_bist (s : State) (k : Nat) (c : Copy) : (s.setCopy k c).bist = s.bist := rfl
@[simp] theorem State.setCopy_resets (s : State) (k : Nat) (c : Copy) : (s.setCopy k c).resets = s.resets := rfl
@[simp] theorem State.setCopy_bridgeShut (s : State) (k : Nat) (c : Copy) : (s.setCopy k c).bridgeShut = s.bridgeShut := rfl
@[simp] theorem State.setCopy_savedDom (s : State) (k : Nat) (c : Copy) : (s.setCopy k c).savedDom = s.savedDom := rfl
@[simp] theorem State.setCopy_wakeLatch (s : State) (k : Nat) (c : Copy) : (s.setCopy k c).wakeLatch = s.wakeLatch := rfl
@[simp] theorem State.setCopy_savedWake (s : State) (k : Nat) (c : Copy) : (s.setCopy k c).savedWake = s.savedWake := rfl
@[simp] theorem State.setCopy_warned (s : State) (k : Nat) (c : Copy) : (s.setCopy k c).warned = s.warned := rfl
@[simp] theorem State.setCopy_pins (s : State) (k : Nat) (c : Copy) : (s.setCopy k c).pins = s.pins := rfl
@[simp] theorem State.setCopy_fabio (s : State) (k : Nat) (c : Copy) : (s.setCopy k c).fabio = s.fabio := rfl
@[simp] theorem State.setCopy_fab (s : State) (k : Nat) (c : Copy) : (s.setCopy k c).fab = s.fab := rfl
@[simp] theorem State.setCopy_aoc (s : State) (k : Nat) (c : Copy) : (s.setCopy k c).aoc = s.aoc := rfl
@[simp] theorem State.setCopy_tapReset (s : State) (k : Nat) (c : Copy) : (s.setCopy k c).tapReset = s.tapReset := rfl
@[simp] theorem State.setCopy_switching (s : State) (k : Nat) (c : Copy) : (s.setCopy k c).switching = s.switching := rfl
@[simp] theorem State.setCopy_heldSwitch (s : State) (k : Nat) (c : Copy) : (s.setCopy k c).heldSwitch = s.heldSwitch := rfl

@[simp] theorem State.setTriad_pending (s : State) (k : Nat) (d : Triad) : (s.setTriad k d).pending = s.pending := rfl
@[simp] theorem State.setTriad_variant (s : State) (k : Nat) (d : Triad) : (s.setTriad k d).variant = s.variant := rfl
@[simp] theorem State.setTriad_devid (s : State) (k : Nat) (d : Triad) : (s.setTriad k d).devid = s.devid := rfl
@[simp] theorem State.setTriad_xtal (s : State) (k : Nat) (d : Triad) : (s.setTriad k d).xtal = s.xtal := rfl
@[simp] theorem State.setTriad_slot (s : State) (k : Nat) (d : Triad) : (s.setTriad k d).slot = s.slot := rfl
@[simp] theorem State.setTriad_fresh (s : State) (k : Nat) (d : Triad) : (s.setTriad k d).fresh = s.fresh := rfl
@[simp] theorem State.setTriad_regs (s : State) (k : Nat) (d : Triad) : (s.setTriad k d).regs = s.regs := rfl
@[simp] theorem State.setTriad_pggen (s : State) (k : Nat) (d : Triad) : (s.setTriad k d).pggen = s.pggen := rfl
@[simp] theorem State.setTriad_copies (s : State) (k : Nat) (d : Triad) : (s.setTriad k d).copies = s.copies := rfl
@[simp] theorem State.setTriad_fcol (s : State) (k : Nat) (d : Triad) : (s.setTriad k d).fcol = s.fcol := rfl
@[simp] theorem State.setTriad_sram (s : State) (k : Nat) (d : Triad) : (s.setTriad k d).sram = s.sram := rfl
@[simp] theorem State.setTriad_port (s : State) (k : Nat) (d : Triad) : (s.setTriad k d).port = s.port := rfl
@[simp] theorem State.setTriad_sramWb (s : State) (k : Nat) (d : Triad) : (s.setTriad k d).sramWb = s.sramWb := rfl
@[simp] theorem State.setTriad_ddr (s : State) (k : Nat) (d : Triad) : (s.setTriad k d).ddr = s.ddr := rfl
@[simp] theorem State.setTriad_ddrQ (s : State) (k : Nat) (d : Triad) : (s.setTriad k d).ddrQ = s.ddrQ := rfl
@[simp] theorem State.setTriad_ddrWb (s : State) (k : Nat) (d : Triad) : (s.setTriad k d).ddrWb = s.ddrWb := rfl
@[simp] theorem State.setTriad_ddrDirty (s : State) (k : Nat) (d : Triad) : (s.setTriad k d).ddrDirty = s.ddrDirty := rfl
@[simp] theorem State.setTriad_ddrWin (s : State) (k : Nat) (d : Triad) : (s.setTriad k d).ddrWin = s.ddrWin := rfl
@[simp] theorem State.setTriad_resync (s : State) (k : Nat) (d : Triad) : (s.setTriad k d).resync = s.resync := rfl
@[simp] theorem State.setTriad_resv (s : State) (k : Nat) (d : Triad) : (s.setTriad k d).resv = s.resv := rfl
@[simp] theorem State.setTriad_resps (s : State) (k : Nat) (d : Triad) : (s.setTriad k d).resps = s.resps := rfl
@[simp] theorem State.setTriad_tags (s : State) (k : Nat) (d : Triad) : (s.setTriad k d).tags = s.tags := rfl
@[simp] theorem State.setTriad_flitRx (s : State) (k : Nat) (d : Triad) : (s.setTriad k d).flitRx = s.flitRx := rfl
@[simp] theorem State.setTriad_flitTx (s : State) (k : Nat) (d : Triad) : (s.setTriad k d).flitTx = s.flitTx := rfl
@[simp] theorem State.setTriad_vmeIn (s : State) (k : Nat) (d : Triad) : (s.setTriad k d).vmeIn = s.vmeIn := rfl
@[simp] theorem State.setTriad_timeB (s : State) (k : Nat) (d : Triad) : (s.setTriad k d).timeB = s.timeB := rfl
@[simp] theorem State.setTriad_engines (s : State) (k : Nat) (d : Triad) : (s.setTriad k d).engines = s.engines := rfl
@[simp] theorem State.setTriad_lengines (s : State) (k : Nat) (d : Triad) : (s.setTriad k d).lengines = s.lengines := rfl
@[simp] theorem State.setTriad_notices (s : State) (k : Nat) (d : Triad) : (s.setTriad k d).notices = s.notices := rfl
@[simp] theorem State.setTriad_injMade (s : State) (k : Nat) (d : Triad) : (s.setTriad k d).injMade = s.injMade := rfl
@[simp] theorem State.setTriad_lanes (s : State) (k : Nat) (d : Triad) : (s.setTriad k d).lanes = s.lanes := rfl
@[simp] theorem State.setTriad_links (s : State) (k : Nat) (d : Triad) : (s.setTriad k d).links = s.links := rfl
@[simp] theorem State.setTriad_spares (s : State) (k : Nat) (d : Triad) : (s.setTriad k d).spares = s.spares := rfl
@[simp] theorem State.setTriad_bvlVers (s : State) (k : Nat) (d : Triad) : (s.setTriad k d).bvlVers = s.bvlVers := rfl
@[simp] theorem State.setTriad_out (s : State) (k : Nat) (d : Triad) : (s.setTriad k d).out = s.out := rfl
@[simp] theorem State.setTriad_vme (s : State) (k : Nat) (d : Triad) : (s.setTriad k d).vme = s.vme := rfl
@[simp] theorem State.setTriad_cans (s : State) (k : Nat) (d : Triad) : (s.setTriad k d).cans = s.cans := rfl
@[simp] theorem State.setTriad_uarts (s : State) (k : Nat) (d : Triad) : (s.setTriad k d).uarts = s.uarts := rfl
@[simp] theorem State.setTriad_flash (s : State) (k : Nat) (d : Triad) : (s.setTriad k d).flash = s.flash := rfl
@[simp] theorem State.setTriad_warden (s : State) (k : Nat) (d : Triad) : (s.setTriad k d).warden = s.warden := rfl
@[simp] theorem State.setTriad_svc (s : State) (k : Nat) (d : Triad) : (s.setTriad k d).svc = s.svc := rfl
@[simp] theorem State.setTriad_bist (s : State) (k : Nat) (d : Triad) : (s.setTriad k d).bist = s.bist := rfl
@[simp] theorem State.setTriad_resets (s : State) (k : Nat) (d : Triad) : (s.setTriad k d).resets = s.resets := rfl
@[simp] theorem State.setTriad_bridgeShut (s : State) (k : Nat) (d : Triad) : (s.setTriad k d).bridgeShut = s.bridgeShut := rfl
@[simp] theorem State.setTriad_savedDom (s : State) (k : Nat) (d : Triad) : (s.setTriad k d).savedDom = s.savedDom := rfl
@[simp] theorem State.setTriad_wakeLatch (s : State) (k : Nat) (d : Triad) : (s.setTriad k d).wakeLatch = s.wakeLatch := rfl
@[simp] theorem State.setTriad_savedWake (s : State) (k : Nat) (d : Triad) : (s.setTriad k d).savedWake = s.savedWake := rfl
@[simp] theorem State.setTriad_warned (s : State) (k : Nat) (d : Triad) : (s.setTriad k d).warned = s.warned := rfl
@[simp] theorem State.setTriad_pins (s : State) (k : Nat) (d : Triad) : (s.setTriad k d).pins = s.pins := rfl
@[simp] theorem State.setTriad_fabio (s : State) (k : Nat) (d : Triad) : (s.setTriad k d).fabio = s.fabio := rfl
@[simp] theorem State.setTriad_fab (s : State) (k : Nat) (d : Triad) : (s.setTriad k d).fab = s.fab := rfl
@[simp] theorem State.setTriad_aoc (s : State) (k : Nat) (d : Triad) : (s.setTriad k d).aoc = s.aoc := rfl
@[simp] theorem State.setTriad_tapReset (s : State) (k : Nat) (d : Triad) : (s.setTriad k d).tapReset = s.tapReset := rfl
@[simp] theorem State.setTriad_switching (s : State) (k : Nat) (d : Triad) : (s.setTriad k d).switching = s.switching := rfl
@[simp] theorem State.setTriad_heldSwitch (s : State) (k : Nat) (d : Triad) : (s.setTriad k d).heldSwitch = s.heldSwitch := rfl

@[simp] theorem State.setEngine_pending (s : State) (k : Nat) (d : Engine) : (s.setEngine k d).pending = s.pending := rfl
@[simp] theorem State.setEngine_variant (s : State) (k : Nat) (d : Engine) : (s.setEngine k d).variant = s.variant := rfl
@[simp] theorem State.setEngine_devid (s : State) (k : Nat) (d : Engine) : (s.setEngine k d).devid = s.devid := rfl
@[simp] theorem State.setEngine_xtal (s : State) (k : Nat) (d : Engine) : (s.setEngine k d).xtal = s.xtal := rfl
@[simp] theorem State.setEngine_slot (s : State) (k : Nat) (d : Engine) : (s.setEngine k d).slot = s.slot := rfl
@[simp] theorem State.setEngine_fresh (s : State) (k : Nat) (d : Engine) : (s.setEngine k d).fresh = s.fresh := rfl
@[simp] theorem State.setEngine_regs (s : State) (k : Nat) (d : Engine) : (s.setEngine k d).regs = s.regs := rfl
@[simp] theorem State.setEngine_pggen (s : State) (k : Nat) (d : Engine) : (s.setEngine k d).pggen = s.pggen := rfl
@[simp] theorem State.setEngine_copies (s : State) (k : Nat) (d : Engine) : (s.setEngine k d).copies = s.copies := rfl
@[simp] theorem State.setEngine_triads (s : State) (k : Nat) (d : Engine) : (s.setEngine k d).triads = s.triads := rfl
@[simp] theorem State.setEngine_fcol (s : State) (k : Nat) (d : Engine) : (s.setEngine k d).fcol = s.fcol := rfl
@[simp] theorem State.setEngine_sram (s : State) (k : Nat) (d : Engine) : (s.setEngine k d).sram = s.sram := rfl
@[simp] theorem State.setEngine_port (s : State) (k : Nat) (d : Engine) : (s.setEngine k d).port = s.port := rfl
@[simp] theorem State.setEngine_sramWb (s : State) (k : Nat) (d : Engine) : (s.setEngine k d).sramWb = s.sramWb := rfl
@[simp] theorem State.setEngine_ddr (s : State) (k : Nat) (d : Engine) : (s.setEngine k d).ddr = s.ddr := rfl
@[simp] theorem State.setEngine_ddrQ (s : State) (k : Nat) (d : Engine) : (s.setEngine k d).ddrQ = s.ddrQ := rfl
@[simp] theorem State.setEngine_ddrWb (s : State) (k : Nat) (d : Engine) : (s.setEngine k d).ddrWb = s.ddrWb := rfl
@[simp] theorem State.setEngine_ddrDirty (s : State) (k : Nat) (d : Engine) : (s.setEngine k d).ddrDirty = s.ddrDirty := rfl
@[simp] theorem State.setEngine_ddrWin (s : State) (k : Nat) (d : Engine) : (s.setEngine k d).ddrWin = s.ddrWin := rfl
@[simp] theorem State.setEngine_resync (s : State) (k : Nat) (d : Engine) : (s.setEngine k d).resync = s.resync := rfl
@[simp] theorem State.setEngine_resv (s : State) (k : Nat) (d : Engine) : (s.setEngine k d).resv = s.resv := rfl
@[simp] theorem State.setEngine_resps (s : State) (k : Nat) (d : Engine) : (s.setEngine k d).resps = s.resps := rfl
@[simp] theorem State.setEngine_tags (s : State) (k : Nat) (d : Engine) : (s.setEngine k d).tags = s.tags := rfl
@[simp] theorem State.setEngine_flitRx (s : State) (k : Nat) (d : Engine) : (s.setEngine k d).flitRx = s.flitRx := rfl
@[simp] theorem State.setEngine_flitTx (s : State) (k : Nat) (d : Engine) : (s.setEngine k d).flitTx = s.flitTx := rfl
@[simp] theorem State.setEngine_vmeIn (s : State) (k : Nat) (d : Engine) : (s.setEngine k d).vmeIn = s.vmeIn := rfl
@[simp] theorem State.setEngine_timeB (s : State) (k : Nat) (d : Engine) : (s.setEngine k d).timeB = s.timeB := rfl
@[simp] theorem State.setEngine_lengines (s : State) (k : Nat) (d : Engine) : (s.setEngine k d).lengines = s.lengines := rfl
@[simp] theorem State.setEngine_notices (s : State) (k : Nat) (d : Engine) : (s.setEngine k d).notices = s.notices := rfl
@[simp] theorem State.setEngine_injMade (s : State) (k : Nat) (d : Engine) : (s.setEngine k d).injMade = s.injMade := rfl
@[simp] theorem State.setEngine_lanes (s : State) (k : Nat) (d : Engine) : (s.setEngine k d).lanes = s.lanes := rfl
@[simp] theorem State.setEngine_links (s : State) (k : Nat) (d : Engine) : (s.setEngine k d).links = s.links := rfl
@[simp] theorem State.setEngine_spares (s : State) (k : Nat) (d : Engine) : (s.setEngine k d).spares = s.spares := rfl
@[simp] theorem State.setEngine_bvlVers (s : State) (k : Nat) (d : Engine) : (s.setEngine k d).bvlVers = s.bvlVers := rfl
@[simp] theorem State.setEngine_out (s : State) (k : Nat) (d : Engine) : (s.setEngine k d).out = s.out := rfl
@[simp] theorem State.setEngine_vme (s : State) (k : Nat) (d : Engine) : (s.setEngine k d).vme = s.vme := rfl
@[simp] theorem State.setEngine_cans (s : State) (k : Nat) (d : Engine) : (s.setEngine k d).cans = s.cans := rfl
@[simp] theorem State.setEngine_uarts (s : State) (k : Nat) (d : Engine) : (s.setEngine k d).uarts = s.uarts := rfl
@[simp] theorem State.setEngine_flash (s : State) (k : Nat) (d : Engine) : (s.setEngine k d).flash = s.flash := rfl
@[simp] theorem State.setEngine_warden (s : State) (k : Nat) (d : Engine) : (s.setEngine k d).warden = s.warden := rfl
@[simp] theorem State.setEngine_svc (s : State) (k : Nat) (d : Engine) : (s.setEngine k d).svc = s.svc := rfl
@[simp] theorem State.setEngine_bist (s : State) (k : Nat) (d : Engine) : (s.setEngine k d).bist = s.bist := rfl
@[simp] theorem State.setEngine_resets (s : State) (k : Nat) (d : Engine) : (s.setEngine k d).resets = s.resets := rfl
@[simp] theorem State.setEngine_bridgeShut (s : State) (k : Nat) (d : Engine) : (s.setEngine k d).bridgeShut = s.bridgeShut := rfl
@[simp] theorem State.setEngine_savedDom (s : State) (k : Nat) (d : Engine) : (s.setEngine k d).savedDom = s.savedDom := rfl
@[simp] theorem State.setEngine_wakeLatch (s : State) (k : Nat) (d : Engine) : (s.setEngine k d).wakeLatch = s.wakeLatch := rfl
@[simp] theorem State.setEngine_savedWake (s : State) (k : Nat) (d : Engine) : (s.setEngine k d).savedWake = s.savedWake := rfl
@[simp] theorem State.setEngine_warned (s : State) (k : Nat) (d : Engine) : (s.setEngine k d).warned = s.warned := rfl
@[simp] theorem State.setEngine_pins (s : State) (k : Nat) (d : Engine) : (s.setEngine k d).pins = s.pins := rfl
@[simp] theorem State.setEngine_fabio (s : State) (k : Nat) (d : Engine) : (s.setEngine k d).fabio = s.fabio := rfl
@[simp] theorem State.setEngine_fab (s : State) (k : Nat) (d : Engine) : (s.setEngine k d).fab = s.fab := rfl
@[simp] theorem State.setEngine_aoc (s : State) (k : Nat) (d : Engine) : (s.setEngine k d).aoc = s.aoc := rfl
@[simp] theorem State.setEngine_tapReset (s : State) (k : Nat) (d : Engine) : (s.setEngine k d).tapReset = s.tapReset := rfl
@[simp] theorem State.setEngine_switching (s : State) (k : Nat) (d : Engine) : (s.setEngine k d).switching = s.switching := rfl
@[simp] theorem State.setEngine_heldSwitch (s : State) (k : Nat) (d : Engine) : (s.setEngine k d).heldSwitch = s.heldSwitch := rfl

@[simp] theorem State.setLengine_pending (s : State) (k : Nat) (d : LEngine) : (s.setLengine k d).pending = s.pending := rfl
@[simp] theorem State.setLengine_variant (s : State) (k : Nat) (d : LEngine) : (s.setLengine k d).variant = s.variant := rfl
@[simp] theorem State.setLengine_devid (s : State) (k : Nat) (d : LEngine) : (s.setLengine k d).devid = s.devid := rfl
@[simp] theorem State.setLengine_xtal (s : State) (k : Nat) (d : LEngine) : (s.setLengine k d).xtal = s.xtal := rfl
@[simp] theorem State.setLengine_slot (s : State) (k : Nat) (d : LEngine) : (s.setLengine k d).slot = s.slot := rfl
@[simp] theorem State.setLengine_fresh (s : State) (k : Nat) (d : LEngine) : (s.setLengine k d).fresh = s.fresh := rfl
@[simp] theorem State.setLengine_regs (s : State) (k : Nat) (d : LEngine) : (s.setLengine k d).regs = s.regs := rfl
@[simp] theorem State.setLengine_pggen (s : State) (k : Nat) (d : LEngine) : (s.setLengine k d).pggen = s.pggen := rfl
@[simp] theorem State.setLengine_copies (s : State) (k : Nat) (d : LEngine) : (s.setLengine k d).copies = s.copies := rfl
@[simp] theorem State.setLengine_triads (s : State) (k : Nat) (d : LEngine) : (s.setLengine k d).triads = s.triads := rfl
@[simp] theorem State.setLengine_fcol (s : State) (k : Nat) (d : LEngine) : (s.setLengine k d).fcol = s.fcol := rfl
@[simp] theorem State.setLengine_sram (s : State) (k : Nat) (d : LEngine) : (s.setLengine k d).sram = s.sram := rfl
@[simp] theorem State.setLengine_port (s : State) (k : Nat) (d : LEngine) : (s.setLengine k d).port = s.port := rfl
@[simp] theorem State.setLengine_sramWb (s : State) (k : Nat) (d : LEngine) : (s.setLengine k d).sramWb = s.sramWb := rfl
@[simp] theorem State.setLengine_ddr (s : State) (k : Nat) (d : LEngine) : (s.setLengine k d).ddr = s.ddr := rfl
@[simp] theorem State.setLengine_ddrQ (s : State) (k : Nat) (d : LEngine) : (s.setLengine k d).ddrQ = s.ddrQ := rfl
@[simp] theorem State.setLengine_ddrWb (s : State) (k : Nat) (d : LEngine) : (s.setLengine k d).ddrWb = s.ddrWb := rfl
@[simp] theorem State.setLengine_ddrDirty (s : State) (k : Nat) (d : LEngine) : (s.setLengine k d).ddrDirty = s.ddrDirty := rfl
@[simp] theorem State.setLengine_ddrWin (s : State) (k : Nat) (d : LEngine) : (s.setLengine k d).ddrWin = s.ddrWin := rfl
@[simp] theorem State.setLengine_resync (s : State) (k : Nat) (d : LEngine) : (s.setLengine k d).resync = s.resync := rfl
@[simp] theorem State.setLengine_resv (s : State) (k : Nat) (d : LEngine) : (s.setLengine k d).resv = s.resv := rfl
@[simp] theorem State.setLengine_resps (s : State) (k : Nat) (d : LEngine) : (s.setLengine k d).resps = s.resps := rfl
@[simp] theorem State.setLengine_tags (s : State) (k : Nat) (d : LEngine) : (s.setLengine k d).tags = s.tags := rfl
@[simp] theorem State.setLengine_flitRx (s : State) (k : Nat) (d : LEngine) : (s.setLengine k d).flitRx = s.flitRx := rfl
@[simp] theorem State.setLengine_flitTx (s : State) (k : Nat) (d : LEngine) : (s.setLengine k d).flitTx = s.flitTx := rfl
@[simp] theorem State.setLengine_vmeIn (s : State) (k : Nat) (d : LEngine) : (s.setLengine k d).vmeIn = s.vmeIn := rfl
@[simp] theorem State.setLengine_timeB (s : State) (k : Nat) (d : LEngine) : (s.setLengine k d).timeB = s.timeB := rfl
@[simp] theorem State.setLengine_engines (s : State) (k : Nat) (d : LEngine) : (s.setLengine k d).engines = s.engines := rfl
@[simp] theorem State.setLengine_notices (s : State) (k : Nat) (d : LEngine) : (s.setLengine k d).notices = s.notices := rfl
@[simp] theorem State.setLengine_injMade (s : State) (k : Nat) (d : LEngine) : (s.setLengine k d).injMade = s.injMade := rfl
@[simp] theorem State.setLengine_lanes (s : State) (k : Nat) (d : LEngine) : (s.setLengine k d).lanes = s.lanes := rfl
@[simp] theorem State.setLengine_links (s : State) (k : Nat) (d : LEngine) : (s.setLengine k d).links = s.links := rfl
@[simp] theorem State.setLengine_spares (s : State) (k : Nat) (d : LEngine) : (s.setLengine k d).spares = s.spares := rfl
@[simp] theorem State.setLengine_bvlVers (s : State) (k : Nat) (d : LEngine) : (s.setLengine k d).bvlVers = s.bvlVers := rfl
@[simp] theorem State.setLengine_out (s : State) (k : Nat) (d : LEngine) : (s.setLengine k d).out = s.out := rfl
@[simp] theorem State.setLengine_vme (s : State) (k : Nat) (d : LEngine) : (s.setLengine k d).vme = s.vme := rfl
@[simp] theorem State.setLengine_cans (s : State) (k : Nat) (d : LEngine) : (s.setLengine k d).cans = s.cans := rfl
@[simp] theorem State.setLengine_uarts (s : State) (k : Nat) (d : LEngine) : (s.setLengine k d).uarts = s.uarts := rfl
@[simp] theorem State.setLengine_flash (s : State) (k : Nat) (d : LEngine) : (s.setLengine k d).flash = s.flash := rfl
@[simp] theorem State.setLengine_warden (s : State) (k : Nat) (d : LEngine) : (s.setLengine k d).warden = s.warden := rfl
@[simp] theorem State.setLengine_svc (s : State) (k : Nat) (d : LEngine) : (s.setLengine k d).svc = s.svc := rfl
@[simp] theorem State.setLengine_bist (s : State) (k : Nat) (d : LEngine) : (s.setLengine k d).bist = s.bist := rfl
@[simp] theorem State.setLengine_resets (s : State) (k : Nat) (d : LEngine) : (s.setLengine k d).resets = s.resets := rfl
@[simp] theorem State.setLengine_bridgeShut (s : State) (k : Nat) (d : LEngine) : (s.setLengine k d).bridgeShut = s.bridgeShut := rfl
@[simp] theorem State.setLengine_savedDom (s : State) (k : Nat) (d : LEngine) : (s.setLengine k d).savedDom = s.savedDom := rfl
@[simp] theorem State.setLengine_wakeLatch (s : State) (k : Nat) (d : LEngine) : (s.setLengine k d).wakeLatch = s.wakeLatch := rfl
@[simp] theorem State.setLengine_savedWake (s : State) (k : Nat) (d : LEngine) : (s.setLengine k d).savedWake = s.savedWake := rfl
@[simp] theorem State.setLengine_warned (s : State) (k : Nat) (d : LEngine) : (s.setLengine k d).warned = s.warned := rfl
@[simp] theorem State.setLengine_pins (s : State) (k : Nat) (d : LEngine) : (s.setLengine k d).pins = s.pins := rfl
@[simp] theorem State.setLengine_fabio (s : State) (k : Nat) (d : LEngine) : (s.setLengine k d).fabio = s.fabio := rfl
@[simp] theorem State.setLengine_fab (s : State) (k : Nat) (d : LEngine) : (s.setLengine k d).fab = s.fab := rfl
@[simp] theorem State.setLengine_aoc (s : State) (k : Nat) (d : LEngine) : (s.setLengine k d).aoc = s.aoc := rfl
@[simp] theorem State.setLengine_tapReset (s : State) (k : Nat) (d : LEngine) : (s.setLengine k d).tapReset = s.tapReset := rfl
@[simp] theorem State.setLengine_switching (s : State) (k : Nat) (d : LEngine) : (s.setLengine k d).switching = s.switching := rfl
@[simp] theorem State.setLengine_heldSwitch (s : State) (k : Nat) (d : LEngine) : (s.setLengine k d).heldSwitch = s.heldSwitch := rfl

@[simp] theorem State.advance_pending (s : State) (n : Nat) : (s.advance n).pending = s.pending := rfl
@[simp] theorem State.advance_variant (s : State) (n : Nat) : (s.advance n).variant = s.variant := rfl
@[simp] theorem State.advance_devid (s : State) (n : Nat) : (s.advance n).devid = s.devid := rfl
@[simp] theorem State.advance_xtal (s : State) (n : Nat) : (s.advance n).xtal = s.xtal := rfl
@[simp] theorem State.advance_slot (s : State) (n : Nat) : (s.advance n).slot = s.slot := rfl
@[simp] theorem State.advance_fresh (s : State) (n : Nat) : (s.advance n).fresh = s.fresh := rfl
@[simp] theorem State.advance_regs (s : State) (n : Nat) : (s.advance n).regs = s.regs := rfl
@[simp] theorem State.advance_pggen (s : State) (n : Nat) : (s.advance n).pggen = s.pggen := rfl
@[simp] theorem State.advance_copies (s : State) (n : Nat) : (s.advance n).copies = s.copies := rfl
@[simp] theorem State.advance_triads (s : State) (n : Nat) : (s.advance n).triads = s.triads := rfl
@[simp] theorem State.advance_fcol (s : State) (n : Nat) : (s.advance n).fcol = s.fcol := rfl
@[simp] theorem State.advance_sram (s : State) (n : Nat) : (s.advance n).sram = s.sram := rfl
@[simp] theorem State.advance_port (s : State) (n : Nat) : (s.advance n).port = s.port := rfl
@[simp] theorem State.advance_sramWb (s : State) (n : Nat) : (s.advance n).sramWb = s.sramWb := rfl
@[simp] theorem State.advance_ddr (s : State) (n : Nat) : (s.advance n).ddr = s.ddr := rfl
@[simp] theorem State.advance_ddrQ (s : State) (n : Nat) : (s.advance n).ddrQ = s.ddrQ := rfl
@[simp] theorem State.advance_ddrWb (s : State) (n : Nat) : (s.advance n).ddrWb = s.ddrWb := rfl
@[simp] theorem State.advance_ddrDirty (s : State) (n : Nat) : (s.advance n).ddrDirty = s.ddrDirty := rfl
@[simp] theorem State.advance_ddrWin (s : State) (n : Nat) : (s.advance n).ddrWin = s.ddrWin := rfl
@[simp] theorem State.advance_resync (s : State) (n : Nat) : (s.advance n).resync = s.resync := rfl
@[simp] theorem State.advance_resv (s : State) (n : Nat) : (s.advance n).resv = s.resv := rfl
@[simp] theorem State.advance_resps (s : State) (n : Nat) : (s.advance n).resps = s.resps := rfl
@[simp] theorem State.advance_tags (s : State) (n : Nat) : (s.advance n).tags = s.tags := rfl
@[simp] theorem State.advance_flitRx (s : State) (n : Nat) : (s.advance n).flitRx = s.flitRx := rfl
@[simp] theorem State.advance_flitTx (s : State) (n : Nat) : (s.advance n).flitTx = s.flitTx := rfl
@[simp] theorem State.advance_vmeIn (s : State) (n : Nat) : (s.advance n).vmeIn = s.vmeIn := rfl
@[simp] theorem State.advance_engines (s : State) (n : Nat) : (s.advance n).engines = s.engines := rfl
@[simp] theorem State.advance_lengines (s : State) (n : Nat) : (s.advance n).lengines = s.lengines := rfl
@[simp] theorem State.advance_notices (s : State) (n : Nat) : (s.advance n).notices = s.notices := rfl
@[simp] theorem State.advance_injMade (s : State) (n : Nat) : (s.advance n).injMade = s.injMade := rfl
@[simp] theorem State.advance_lanes (s : State) (n : Nat) : (s.advance n).lanes = s.lanes := rfl
@[simp] theorem State.advance_links (s : State) (n : Nat) : (s.advance n).links = s.links := rfl
@[simp] theorem State.advance_spares (s : State) (n : Nat) : (s.advance n).spares = s.spares := rfl
@[simp] theorem State.advance_bvlVers (s : State) (n : Nat) : (s.advance n).bvlVers = s.bvlVers := rfl
@[simp] theorem State.advance_out (s : State) (n : Nat) : (s.advance n).out = s.out := rfl
@[simp] theorem State.advance_vme (s : State) (n : Nat) : (s.advance n).vme = s.vme := rfl
@[simp] theorem State.advance_cans (s : State) (n : Nat) : (s.advance n).cans = s.cans := rfl
@[simp] theorem State.advance_uarts (s : State) (n : Nat) : (s.advance n).uarts = s.uarts := rfl
@[simp] theorem State.advance_flash (s : State) (n : Nat) : (s.advance n).flash = s.flash := rfl
@[simp] theorem State.advance_warden (s : State) (n : Nat) : (s.advance n).warden = s.warden := rfl
@[simp] theorem State.advance_svc (s : State) (n : Nat) : (s.advance n).svc = s.svc := rfl
@[simp] theorem State.advance_bist (s : State) (n : Nat) : (s.advance n).bist = s.bist := rfl
@[simp] theorem State.advance_resets (s : State) (n : Nat) : (s.advance n).resets = s.resets := rfl
@[simp] theorem State.advance_bridgeShut (s : State) (n : Nat) : (s.advance n).bridgeShut = s.bridgeShut := rfl
@[simp] theorem State.advance_savedDom (s : State) (n : Nat) : (s.advance n).savedDom = s.savedDom := rfl
@[simp] theorem State.advance_wakeLatch (s : State) (n : Nat) : (s.advance n).wakeLatch = s.wakeLatch := rfl
@[simp] theorem State.advance_savedWake (s : State) (n : Nat) : (s.advance n).savedWake = s.savedWake := rfl
@[simp] theorem State.advance_warned (s : State) (n : Nat) : (s.advance n).warned = s.warned := rfl
@[simp] theorem State.advance_pins (s : State) (n : Nat) : (s.advance n).pins = s.pins := rfl
@[simp] theorem State.advance_fabio (s : State) (n : Nat) : (s.advance n).fabio = s.fabio := rfl
@[simp] theorem State.advance_fab (s : State) (n : Nat) : (s.advance n).fab = s.fab := rfl
@[simp] theorem State.advance_aoc (s : State) (n : Nat) : (s.advance n).aoc = s.aoc := rfl
@[simp] theorem State.advance_tapReset (s : State) (n : Nat) : (s.advance n).tapReset = s.tapReset := rfl
@[simp] theorem State.advance_switching (s : State) (n : Nat) : (s.advance n).switching = s.switching := rfl
@[simp] theorem State.advance_heldSwitch (s : State) (n : Nat) : (s.advance n).heldSwitch = s.heldSwitch := rfl

@[simp] theorem State.setSram_pending (s : State) (k : Nat) (r : Ram) : (s.setSram k r).pending = s.pending := rfl
@[simp] theorem State.setSram_variant (s : State) (k : Nat) (r : Ram) : (s.setSram k r).variant = s.variant := rfl
@[simp] theorem State.setSram_devid (s : State) (k : Nat) (r : Ram) : (s.setSram k r).devid = s.devid := rfl
@[simp] theorem State.setSram_xtal (s : State) (k : Nat) (r : Ram) : (s.setSram k r).xtal = s.xtal := rfl
@[simp] theorem State.setSram_slot (s : State) (k : Nat) (r : Ram) : (s.setSram k r).slot = s.slot := rfl
@[simp] theorem State.setSram_fresh (s : State) (k : Nat) (r : Ram) : (s.setSram k r).fresh = s.fresh := rfl
@[simp] theorem State.setSram_regs (s : State) (k : Nat) (r : Ram) : (s.setSram k r).regs = s.regs := rfl
@[simp] theorem State.setSram_pggen (s : State) (k : Nat) (r : Ram) : (s.setSram k r).pggen = s.pggen := rfl
@[simp] theorem State.setSram_copies (s : State) (k : Nat) (r : Ram) : (s.setSram k r).copies = s.copies := rfl
@[simp] theorem State.setSram_triads (s : State) (k : Nat) (r : Ram) : (s.setSram k r).triads = s.triads := rfl
@[simp] theorem State.setSram_fcol (s : State) (k : Nat) (r : Ram) : (s.setSram k r).fcol = s.fcol := rfl
@[simp] theorem State.setSram_port (s : State) (k : Nat) (r : Ram) : (s.setSram k r).port = s.port := rfl
@[simp] theorem State.setSram_sramWb (s : State) (k : Nat) (r : Ram) : (s.setSram k r).sramWb = s.sramWb := rfl
@[simp] theorem State.setSram_ddr (s : State) (k : Nat) (r : Ram) : (s.setSram k r).ddr = s.ddr := rfl
@[simp] theorem State.setSram_ddrQ (s : State) (k : Nat) (r : Ram) : (s.setSram k r).ddrQ = s.ddrQ := rfl
@[simp] theorem State.setSram_ddrWb (s : State) (k : Nat) (r : Ram) : (s.setSram k r).ddrWb = s.ddrWb := rfl
@[simp] theorem State.setSram_ddrDirty (s : State) (k : Nat) (r : Ram) : (s.setSram k r).ddrDirty = s.ddrDirty := rfl
@[simp] theorem State.setSram_ddrWin (s : State) (k : Nat) (r : Ram) : (s.setSram k r).ddrWin = s.ddrWin := rfl
@[simp] theorem State.setSram_resync (s : State) (k : Nat) (r : Ram) : (s.setSram k r).resync = s.resync := rfl
@[simp] theorem State.setSram_resv (s : State) (k : Nat) (r : Ram) : (s.setSram k r).resv = s.resv := rfl
@[simp] theorem State.setSram_resps (s : State) (k : Nat) (r : Ram) : (s.setSram k r).resps = s.resps := rfl
@[simp] theorem State.setSram_tags (s : State) (k : Nat) (r : Ram) : (s.setSram k r).tags = s.tags := rfl
@[simp] theorem State.setSram_flitRx (s : State) (k : Nat) (r : Ram) : (s.setSram k r).flitRx = s.flitRx := rfl
@[simp] theorem State.setSram_flitTx (s : State) (k : Nat) (r : Ram) : (s.setSram k r).flitTx = s.flitTx := rfl
@[simp] theorem State.setSram_vmeIn (s : State) (k : Nat) (r : Ram) : (s.setSram k r).vmeIn = s.vmeIn := rfl
@[simp] theorem State.setSram_timeB (s : State) (k : Nat) (r : Ram) : (s.setSram k r).timeB = s.timeB := rfl
@[simp] theorem State.setSram_engines (s : State) (k : Nat) (r : Ram) : (s.setSram k r).engines = s.engines := rfl
@[simp] theorem State.setSram_lengines (s : State) (k : Nat) (r : Ram) : (s.setSram k r).lengines = s.lengines := rfl
@[simp] theorem State.setSram_notices (s : State) (k : Nat) (r : Ram) : (s.setSram k r).notices = s.notices := rfl
@[simp] theorem State.setSram_injMade (s : State) (k : Nat) (r : Ram) : (s.setSram k r).injMade = s.injMade := rfl
@[simp] theorem State.setSram_lanes (s : State) (k : Nat) (r : Ram) : (s.setSram k r).lanes = s.lanes := rfl
@[simp] theorem State.setSram_links (s : State) (k : Nat) (r : Ram) : (s.setSram k r).links = s.links := rfl
@[simp] theorem State.setSram_spares (s : State) (k : Nat) (r : Ram) : (s.setSram k r).spares = s.spares := rfl
@[simp] theorem State.setSram_bvlVers (s : State) (k : Nat) (r : Ram) : (s.setSram k r).bvlVers = s.bvlVers := rfl
@[simp] theorem State.setSram_out (s : State) (k : Nat) (r : Ram) : (s.setSram k r).out = s.out := rfl
@[simp] theorem State.setSram_vme (s : State) (k : Nat) (r : Ram) : (s.setSram k r).vme = s.vme := rfl
@[simp] theorem State.setSram_cans (s : State) (k : Nat) (r : Ram) : (s.setSram k r).cans = s.cans := rfl
@[simp] theorem State.setSram_uarts (s : State) (k : Nat) (r : Ram) : (s.setSram k r).uarts = s.uarts := rfl
@[simp] theorem State.setSram_flash (s : State) (k : Nat) (r : Ram) : (s.setSram k r).flash = s.flash := rfl
@[simp] theorem State.setSram_warden (s : State) (k : Nat) (r : Ram) : (s.setSram k r).warden = s.warden := rfl
@[simp] theorem State.setSram_svc (s : State) (k : Nat) (r : Ram) : (s.setSram k r).svc = s.svc := rfl
@[simp] theorem State.setSram_bist (s : State) (k : Nat) (r : Ram) : (s.setSram k r).bist = s.bist := rfl
@[simp] theorem State.setSram_resets (s : State) (k : Nat) (r : Ram) : (s.setSram k r).resets = s.resets := rfl
@[simp] theorem State.setSram_bridgeShut (s : State) (k : Nat) (r : Ram) : (s.setSram k r).bridgeShut = s.bridgeShut := rfl
@[simp] theorem State.setSram_savedDom (s : State) (k : Nat) (r : Ram) : (s.setSram k r).savedDom = s.savedDom := rfl
@[simp] theorem State.setSram_wakeLatch (s : State) (k : Nat) (r : Ram) : (s.setSram k r).wakeLatch = s.wakeLatch := rfl
@[simp] theorem State.setSram_savedWake (s : State) (k : Nat) (r : Ram) : (s.setSram k r).savedWake = s.savedWake := rfl
@[simp] theorem State.setSram_warned (s : State) (k : Nat) (r : Ram) : (s.setSram k r).warned = s.warned := rfl
@[simp] theorem State.setSram_pins (s : State) (k : Nat) (r : Ram) : (s.setSram k r).pins = s.pins := rfl
@[simp] theorem State.setSram_fabio (s : State) (k : Nat) (r : Ram) : (s.setSram k r).fabio = s.fabio := rfl
@[simp] theorem State.setSram_fab (s : State) (k : Nat) (r : Ram) : (s.setSram k r).fab = s.fab := rfl
@[simp] theorem State.setSram_aoc (s : State) (k : Nat) (r : Ram) : (s.setSram k r).aoc = s.aoc := rfl
@[simp] theorem State.setSram_tapReset (s : State) (k : Nat) (r : Ram) : (s.setSram k r).tapReset = s.tapReset := rfl
@[simp] theorem State.setSram_switching (s : State) (k : Nat) (r : Ram) : (s.setSram k r).switching = s.switching := rfl
@[simp] theorem State.setSram_heldSwitch (s : State) (k : Nat) (r : Ram) : (s.setSram k r).heldSwitch = s.heldSwitch := rfl

@[simp] theorem State.setDdr_pending (s : State) (k : Nat) (r : Ram) : (s.setDdr k r).pending = s.pending := rfl
@[simp] theorem State.setDdr_variant (s : State) (k : Nat) (r : Ram) : (s.setDdr k r).variant = s.variant := rfl
@[simp] theorem State.setDdr_devid (s : State) (k : Nat) (r : Ram) : (s.setDdr k r).devid = s.devid := rfl
@[simp] theorem State.setDdr_xtal (s : State) (k : Nat) (r : Ram) : (s.setDdr k r).xtal = s.xtal := rfl
@[simp] theorem State.setDdr_slot (s : State) (k : Nat) (r : Ram) : (s.setDdr k r).slot = s.slot := rfl
@[simp] theorem State.setDdr_fresh (s : State) (k : Nat) (r : Ram) : (s.setDdr k r).fresh = s.fresh := rfl
@[simp] theorem State.setDdr_regs (s : State) (k : Nat) (r : Ram) : (s.setDdr k r).regs = s.regs := rfl
@[simp] theorem State.setDdr_pggen (s : State) (k : Nat) (r : Ram) : (s.setDdr k r).pggen = s.pggen := rfl
@[simp] theorem State.setDdr_copies (s : State) (k : Nat) (r : Ram) : (s.setDdr k r).copies = s.copies := rfl
@[simp] theorem State.setDdr_triads (s : State) (k : Nat) (r : Ram) : (s.setDdr k r).triads = s.triads := rfl
@[simp] theorem State.setDdr_fcol (s : State) (k : Nat) (r : Ram) : (s.setDdr k r).fcol = s.fcol := rfl
@[simp] theorem State.setDdr_sram (s : State) (k : Nat) (r : Ram) : (s.setDdr k r).sram = s.sram := rfl
@[simp] theorem State.setDdr_port (s : State) (k : Nat) (r : Ram) : (s.setDdr k r).port = s.port := rfl
@[simp] theorem State.setDdr_sramWb (s : State) (k : Nat) (r : Ram) : (s.setDdr k r).sramWb = s.sramWb := rfl
@[simp] theorem State.setDdr_ddrQ (s : State) (k : Nat) (r : Ram) : (s.setDdr k r).ddrQ = s.ddrQ := rfl
@[simp] theorem State.setDdr_ddrWb (s : State) (k : Nat) (r : Ram) : (s.setDdr k r).ddrWb = s.ddrWb := rfl
@[simp] theorem State.setDdr_ddrDirty (s : State) (k : Nat) (r : Ram) : (s.setDdr k r).ddrDirty = s.ddrDirty := rfl
@[simp] theorem State.setDdr_ddrWin (s : State) (k : Nat) (r : Ram) : (s.setDdr k r).ddrWin = s.ddrWin := rfl
@[simp] theorem State.setDdr_resync (s : State) (k : Nat) (r : Ram) : (s.setDdr k r).resync = s.resync := rfl
@[simp] theorem State.setDdr_resv (s : State) (k : Nat) (r : Ram) : (s.setDdr k r).resv = s.resv := rfl
@[simp] theorem State.setDdr_resps (s : State) (k : Nat) (r : Ram) : (s.setDdr k r).resps = s.resps := rfl
@[simp] theorem State.setDdr_tags (s : State) (k : Nat) (r : Ram) : (s.setDdr k r).tags = s.tags := rfl
@[simp] theorem State.setDdr_flitRx (s : State) (k : Nat) (r : Ram) : (s.setDdr k r).flitRx = s.flitRx := rfl
@[simp] theorem State.setDdr_flitTx (s : State) (k : Nat) (r : Ram) : (s.setDdr k r).flitTx = s.flitTx := rfl
@[simp] theorem State.setDdr_vmeIn (s : State) (k : Nat) (r : Ram) : (s.setDdr k r).vmeIn = s.vmeIn := rfl
@[simp] theorem State.setDdr_timeB (s : State) (k : Nat) (r : Ram) : (s.setDdr k r).timeB = s.timeB := rfl
@[simp] theorem State.setDdr_engines (s : State) (k : Nat) (r : Ram) : (s.setDdr k r).engines = s.engines := rfl
@[simp] theorem State.setDdr_lengines (s : State) (k : Nat) (r : Ram) : (s.setDdr k r).lengines = s.lengines := rfl
@[simp] theorem State.setDdr_notices (s : State) (k : Nat) (r : Ram) : (s.setDdr k r).notices = s.notices := rfl
@[simp] theorem State.setDdr_injMade (s : State) (k : Nat) (r : Ram) : (s.setDdr k r).injMade = s.injMade := rfl
@[simp] theorem State.setDdr_lanes (s : State) (k : Nat) (r : Ram) : (s.setDdr k r).lanes = s.lanes := rfl
@[simp] theorem State.setDdr_links (s : State) (k : Nat) (r : Ram) : (s.setDdr k r).links = s.links := rfl
@[simp] theorem State.setDdr_spares (s : State) (k : Nat) (r : Ram) : (s.setDdr k r).spares = s.spares := rfl
@[simp] theorem State.setDdr_bvlVers (s : State) (k : Nat) (r : Ram) : (s.setDdr k r).bvlVers = s.bvlVers := rfl
@[simp] theorem State.setDdr_out (s : State) (k : Nat) (r : Ram) : (s.setDdr k r).out = s.out := rfl
@[simp] theorem State.setDdr_vme (s : State) (k : Nat) (r : Ram) : (s.setDdr k r).vme = s.vme := rfl
@[simp] theorem State.setDdr_cans (s : State) (k : Nat) (r : Ram) : (s.setDdr k r).cans = s.cans := rfl
@[simp] theorem State.setDdr_uarts (s : State) (k : Nat) (r : Ram) : (s.setDdr k r).uarts = s.uarts := rfl
@[simp] theorem State.setDdr_flash (s : State) (k : Nat) (r : Ram) : (s.setDdr k r).flash = s.flash := rfl
@[simp] theorem State.setDdr_warden (s : State) (k : Nat) (r : Ram) : (s.setDdr k r).warden = s.warden := rfl
@[simp] theorem State.setDdr_svc (s : State) (k : Nat) (r : Ram) : (s.setDdr k r).svc = s.svc := rfl
@[simp] theorem State.setDdr_bist (s : State) (k : Nat) (r : Ram) : (s.setDdr k r).bist = s.bist := rfl
@[simp] theorem State.setDdr_resets (s : State) (k : Nat) (r : Ram) : (s.setDdr k r).resets = s.resets := rfl
@[simp] theorem State.setDdr_bridgeShut (s : State) (k : Nat) (r : Ram) : (s.setDdr k r).bridgeShut = s.bridgeShut := rfl
@[simp] theorem State.setDdr_savedDom (s : State) (k : Nat) (r : Ram) : (s.setDdr k r).savedDom = s.savedDom := rfl
@[simp] theorem State.setDdr_wakeLatch (s : State) (k : Nat) (r : Ram) : (s.setDdr k r).wakeLatch = s.wakeLatch := rfl
@[simp] theorem State.setDdr_savedWake (s : State) (k : Nat) (r : Ram) : (s.setDdr k r).savedWake = s.savedWake := rfl
@[simp] theorem State.setDdr_warned (s : State) (k : Nat) (r : Ram) : (s.setDdr k r).warned = s.warned := rfl
@[simp] theorem State.setDdr_pins (s : State) (k : Nat) (r : Ram) : (s.setDdr k r).pins = s.pins := rfl
@[simp] theorem State.setDdr_fabio (s : State) (k : Nat) (r : Ram) : (s.setDdr k r).fabio = s.fabio := rfl
@[simp] theorem State.setDdr_fab (s : State) (k : Nat) (r : Ram) : (s.setDdr k r).fab = s.fab := rfl
@[simp] theorem State.setDdr_aoc (s : State) (k : Nat) (r : Ram) : (s.setDdr k r).aoc = s.aoc := rfl
@[simp] theorem State.setDdr_tapReset (s : State) (k : Nat) (r : Ram) : (s.setDdr k r).tapReset = s.tapReset := rfl
@[simp] theorem State.setDdr_switching (s : State) (k : Nat) (r : Ram) : (s.setDdr k r).switching = s.switching := rfl
@[simp] theorem State.setDdr_heldSwitch (s : State) (k : Nat) (r : Ram) : (s.setDdr k r).heldSwitch = s.heldSwitch := rfl

@[simp] theorem State.setPort_pending (s : State) (k : Nat) (q : List FabReq) : (s.setPort k q).pending = s.pending := rfl
@[simp] theorem State.setPort_variant (s : State) (k : Nat) (q : List FabReq) : (s.setPort k q).variant = s.variant := rfl
@[simp] theorem State.setPort_devid (s : State) (k : Nat) (q : List FabReq) : (s.setPort k q).devid = s.devid := rfl
@[simp] theorem State.setPort_xtal (s : State) (k : Nat) (q : List FabReq) : (s.setPort k q).xtal = s.xtal := rfl
@[simp] theorem State.setPort_slot (s : State) (k : Nat) (q : List FabReq) : (s.setPort k q).slot = s.slot := rfl
@[simp] theorem State.setPort_fresh (s : State) (k : Nat) (q : List FabReq) : (s.setPort k q).fresh = s.fresh := rfl
@[simp] theorem State.setPort_regs (s : State) (k : Nat) (q : List FabReq) : (s.setPort k q).regs = s.regs := rfl
@[simp] theorem State.setPort_pggen (s : State) (k : Nat) (q : List FabReq) : (s.setPort k q).pggen = s.pggen := rfl
@[simp] theorem State.setPort_copies (s : State) (k : Nat) (q : List FabReq) : (s.setPort k q).copies = s.copies := rfl
@[simp] theorem State.setPort_triads (s : State) (k : Nat) (q : List FabReq) : (s.setPort k q).triads = s.triads := rfl
@[simp] theorem State.setPort_fcol (s : State) (k : Nat) (q : List FabReq) : (s.setPort k q).fcol = s.fcol := rfl
@[simp] theorem State.setPort_sram (s : State) (k : Nat) (q : List FabReq) : (s.setPort k q).sram = s.sram := rfl
@[simp] theorem State.setPort_sramWb (s : State) (k : Nat) (q : List FabReq) : (s.setPort k q).sramWb = s.sramWb := rfl
@[simp] theorem State.setPort_ddr (s : State) (k : Nat) (q : List FabReq) : (s.setPort k q).ddr = s.ddr := rfl
@[simp] theorem State.setPort_ddrQ (s : State) (k : Nat) (q : List FabReq) : (s.setPort k q).ddrQ = s.ddrQ := rfl
@[simp] theorem State.setPort_ddrWb (s : State) (k : Nat) (q : List FabReq) : (s.setPort k q).ddrWb = s.ddrWb := rfl
@[simp] theorem State.setPort_ddrDirty (s : State) (k : Nat) (q : List FabReq) : (s.setPort k q).ddrDirty = s.ddrDirty := rfl
@[simp] theorem State.setPort_ddrWin (s : State) (k : Nat) (q : List FabReq) : (s.setPort k q).ddrWin = s.ddrWin := rfl
@[simp] theorem State.setPort_resync (s : State) (k : Nat) (q : List FabReq) : (s.setPort k q).resync = s.resync := rfl
@[simp] theorem State.setPort_resv (s : State) (k : Nat) (q : List FabReq) : (s.setPort k q).resv = s.resv := rfl
@[simp] theorem State.setPort_resps (s : State) (k : Nat) (q : List FabReq) : (s.setPort k q).resps = s.resps := rfl
@[simp] theorem State.setPort_tags (s : State) (k : Nat) (q : List FabReq) : (s.setPort k q).tags = s.tags := rfl
@[simp] theorem State.setPort_flitRx (s : State) (k : Nat) (q : List FabReq) : (s.setPort k q).flitRx = s.flitRx := rfl
@[simp] theorem State.setPort_flitTx (s : State) (k : Nat) (q : List FabReq) : (s.setPort k q).flitTx = s.flitTx := rfl
@[simp] theorem State.setPort_vmeIn (s : State) (k : Nat) (q : List FabReq) : (s.setPort k q).vmeIn = s.vmeIn := rfl
@[simp] theorem State.setPort_timeB (s : State) (k : Nat) (q : List FabReq) : (s.setPort k q).timeB = s.timeB := rfl
@[simp] theorem State.setPort_engines (s : State) (k : Nat) (q : List FabReq) : (s.setPort k q).engines = s.engines := rfl
@[simp] theorem State.setPort_lengines (s : State) (k : Nat) (q : List FabReq) : (s.setPort k q).lengines = s.lengines := rfl
@[simp] theorem State.setPort_notices (s : State) (k : Nat) (q : List FabReq) : (s.setPort k q).notices = s.notices := rfl
@[simp] theorem State.setPort_injMade (s : State) (k : Nat) (q : List FabReq) : (s.setPort k q).injMade = s.injMade := rfl
@[simp] theorem State.setPort_lanes (s : State) (k : Nat) (q : List FabReq) : (s.setPort k q).lanes = s.lanes := rfl
@[simp] theorem State.setPort_links (s : State) (k : Nat) (q : List FabReq) : (s.setPort k q).links = s.links := rfl
@[simp] theorem State.setPort_spares (s : State) (k : Nat) (q : List FabReq) : (s.setPort k q).spares = s.spares := rfl
@[simp] theorem State.setPort_bvlVers (s : State) (k : Nat) (q : List FabReq) : (s.setPort k q).bvlVers = s.bvlVers := rfl
@[simp] theorem State.setPort_out (s : State) (k : Nat) (q : List FabReq) : (s.setPort k q).out = s.out := rfl
@[simp] theorem State.setPort_vme (s : State) (k : Nat) (q : List FabReq) : (s.setPort k q).vme = s.vme := rfl
@[simp] theorem State.setPort_cans (s : State) (k : Nat) (q : List FabReq) : (s.setPort k q).cans = s.cans := rfl
@[simp] theorem State.setPort_uarts (s : State) (k : Nat) (q : List FabReq) : (s.setPort k q).uarts = s.uarts := rfl
@[simp] theorem State.setPort_flash (s : State) (k : Nat) (q : List FabReq) : (s.setPort k q).flash = s.flash := rfl
@[simp] theorem State.setPort_warden (s : State) (k : Nat) (q : List FabReq) : (s.setPort k q).warden = s.warden := rfl
@[simp] theorem State.setPort_svc (s : State) (k : Nat) (q : List FabReq) : (s.setPort k q).svc = s.svc := rfl
@[simp] theorem State.setPort_bist (s : State) (k : Nat) (q : List FabReq) : (s.setPort k q).bist = s.bist := rfl
@[simp] theorem State.setPort_resets (s : State) (k : Nat) (q : List FabReq) : (s.setPort k q).resets = s.resets := rfl
@[simp] theorem State.setPort_bridgeShut (s : State) (k : Nat) (q : List FabReq) : (s.setPort k q).bridgeShut = s.bridgeShut := rfl
@[simp] theorem State.setPort_savedDom (s : State) (k : Nat) (q : List FabReq) : (s.setPort k q).savedDom = s.savedDom := rfl
@[simp] theorem State.setPort_wakeLatch (s : State) (k : Nat) (q : List FabReq) : (s.setPort k q).wakeLatch = s.wakeLatch := rfl
@[simp] theorem State.setPort_savedWake (s : State) (k : Nat) (q : List FabReq) : (s.setPort k q).savedWake = s.savedWake := rfl
@[simp] theorem State.setPort_warned (s : State) (k : Nat) (q : List FabReq) : (s.setPort k q).warned = s.warned := rfl
@[simp] theorem State.setPort_pins (s : State) (k : Nat) (q : List FabReq) : (s.setPort k q).pins = s.pins := rfl
@[simp] theorem State.setPort_fabio (s : State) (k : Nat) (q : List FabReq) : (s.setPort k q).fabio = s.fabio := rfl
@[simp] theorem State.setPort_fab (s : State) (k : Nat) (q : List FabReq) : (s.setPort k q).fab = s.fab := rfl
@[simp] theorem State.setPort_aoc (s : State) (k : Nat) (q : List FabReq) : (s.setPort k q).aoc = s.aoc := rfl
@[simp] theorem State.setPort_tapReset (s : State) (k : Nat) (q : List FabReq) : (s.setPort k q).tapReset = s.tapReset := rfl
@[simp] theorem State.setPort_switching (s : State) (k : Nat) (q : List FabReq) : (s.setPort k q).switching = s.switching := rfl
@[simp] theorem State.setPort_heldSwitch (s : State) (k : Nat) (q : List FabReq) : (s.setPort k q).heldSwitch = s.heldSwitch := rfl

@[simp] theorem State.setDdrQ_pending (s : State) (k : Nat) (q : List FabReq) : (s.setDdrQ k q).pending = s.pending := rfl
@[simp] theorem State.setDdrQ_variant (s : State) (k : Nat) (q : List FabReq) : (s.setDdrQ k q).variant = s.variant := rfl
@[simp] theorem State.setDdrQ_devid (s : State) (k : Nat) (q : List FabReq) : (s.setDdrQ k q).devid = s.devid := rfl
@[simp] theorem State.setDdrQ_xtal (s : State) (k : Nat) (q : List FabReq) : (s.setDdrQ k q).xtal = s.xtal := rfl
@[simp] theorem State.setDdrQ_slot (s : State) (k : Nat) (q : List FabReq) : (s.setDdrQ k q).slot = s.slot := rfl
@[simp] theorem State.setDdrQ_fresh (s : State) (k : Nat) (q : List FabReq) : (s.setDdrQ k q).fresh = s.fresh := rfl
@[simp] theorem State.setDdrQ_regs (s : State) (k : Nat) (q : List FabReq) : (s.setDdrQ k q).regs = s.regs := rfl
@[simp] theorem State.setDdrQ_pggen (s : State) (k : Nat) (q : List FabReq) : (s.setDdrQ k q).pggen = s.pggen := rfl
@[simp] theorem State.setDdrQ_copies (s : State) (k : Nat) (q : List FabReq) : (s.setDdrQ k q).copies = s.copies := rfl
@[simp] theorem State.setDdrQ_triads (s : State) (k : Nat) (q : List FabReq) : (s.setDdrQ k q).triads = s.triads := rfl
@[simp] theorem State.setDdrQ_fcol (s : State) (k : Nat) (q : List FabReq) : (s.setDdrQ k q).fcol = s.fcol := rfl
@[simp] theorem State.setDdrQ_sram (s : State) (k : Nat) (q : List FabReq) : (s.setDdrQ k q).sram = s.sram := rfl
@[simp] theorem State.setDdrQ_port (s : State) (k : Nat) (q : List FabReq) : (s.setDdrQ k q).port = s.port := rfl
@[simp] theorem State.setDdrQ_sramWb (s : State) (k : Nat) (q : List FabReq) : (s.setDdrQ k q).sramWb = s.sramWb := rfl
@[simp] theorem State.setDdrQ_ddr (s : State) (k : Nat) (q : List FabReq) : (s.setDdrQ k q).ddr = s.ddr := rfl
@[simp] theorem State.setDdrQ_ddrWb (s : State) (k : Nat) (q : List FabReq) : (s.setDdrQ k q).ddrWb = s.ddrWb := rfl
@[simp] theorem State.setDdrQ_ddrDirty (s : State) (k : Nat) (q : List FabReq) : (s.setDdrQ k q).ddrDirty = s.ddrDirty := rfl
@[simp] theorem State.setDdrQ_ddrWin (s : State) (k : Nat) (q : List FabReq) : (s.setDdrQ k q).ddrWin = s.ddrWin := rfl
@[simp] theorem State.setDdrQ_resync (s : State) (k : Nat) (q : List FabReq) : (s.setDdrQ k q).resync = s.resync := rfl
@[simp] theorem State.setDdrQ_resv (s : State) (k : Nat) (q : List FabReq) : (s.setDdrQ k q).resv = s.resv := rfl
@[simp] theorem State.setDdrQ_resps (s : State) (k : Nat) (q : List FabReq) : (s.setDdrQ k q).resps = s.resps := rfl
@[simp] theorem State.setDdrQ_tags (s : State) (k : Nat) (q : List FabReq) : (s.setDdrQ k q).tags = s.tags := rfl
@[simp] theorem State.setDdrQ_flitRx (s : State) (k : Nat) (q : List FabReq) : (s.setDdrQ k q).flitRx = s.flitRx := rfl
@[simp] theorem State.setDdrQ_flitTx (s : State) (k : Nat) (q : List FabReq) : (s.setDdrQ k q).flitTx = s.flitTx := rfl
@[simp] theorem State.setDdrQ_vmeIn (s : State) (k : Nat) (q : List FabReq) : (s.setDdrQ k q).vmeIn = s.vmeIn := rfl
@[simp] theorem State.setDdrQ_timeB (s : State) (k : Nat) (q : List FabReq) : (s.setDdrQ k q).timeB = s.timeB := rfl
@[simp] theorem State.setDdrQ_engines (s : State) (k : Nat) (q : List FabReq) : (s.setDdrQ k q).engines = s.engines := rfl
@[simp] theorem State.setDdrQ_lengines (s : State) (k : Nat) (q : List FabReq) : (s.setDdrQ k q).lengines = s.lengines := rfl
@[simp] theorem State.setDdrQ_notices (s : State) (k : Nat) (q : List FabReq) : (s.setDdrQ k q).notices = s.notices := rfl
@[simp] theorem State.setDdrQ_injMade (s : State) (k : Nat) (q : List FabReq) : (s.setDdrQ k q).injMade = s.injMade := rfl
@[simp] theorem State.setDdrQ_lanes (s : State) (k : Nat) (q : List FabReq) : (s.setDdrQ k q).lanes = s.lanes := rfl
@[simp] theorem State.setDdrQ_links (s : State) (k : Nat) (q : List FabReq) : (s.setDdrQ k q).links = s.links := rfl
@[simp] theorem State.setDdrQ_spares (s : State) (k : Nat) (q : List FabReq) : (s.setDdrQ k q).spares = s.spares := rfl
@[simp] theorem State.setDdrQ_bvlVers (s : State) (k : Nat) (q : List FabReq) : (s.setDdrQ k q).bvlVers = s.bvlVers := rfl
@[simp] theorem State.setDdrQ_out (s : State) (k : Nat) (q : List FabReq) : (s.setDdrQ k q).out = s.out := rfl
@[simp] theorem State.setDdrQ_vme (s : State) (k : Nat) (q : List FabReq) : (s.setDdrQ k q).vme = s.vme := rfl
@[simp] theorem State.setDdrQ_cans (s : State) (k : Nat) (q : List FabReq) : (s.setDdrQ k q).cans = s.cans := rfl
@[simp] theorem State.setDdrQ_uarts (s : State) (k : Nat) (q : List FabReq) : (s.setDdrQ k q).uarts = s.uarts := rfl
@[simp] theorem State.setDdrQ_flash (s : State) (k : Nat) (q : List FabReq) : (s.setDdrQ k q).flash = s.flash := rfl
@[simp] theorem State.setDdrQ_warden (s : State) (k : Nat) (q : List FabReq) : (s.setDdrQ k q).warden = s.warden := rfl
@[simp] theorem State.setDdrQ_svc (s : State) (k : Nat) (q : List FabReq) : (s.setDdrQ k q).svc = s.svc := rfl
@[simp] theorem State.setDdrQ_bist (s : State) (k : Nat) (q : List FabReq) : (s.setDdrQ k q).bist = s.bist := rfl
@[simp] theorem State.setDdrQ_resets (s : State) (k : Nat) (q : List FabReq) : (s.setDdrQ k q).resets = s.resets := rfl
@[simp] theorem State.setDdrQ_bridgeShut (s : State) (k : Nat) (q : List FabReq) : (s.setDdrQ k q).bridgeShut = s.bridgeShut := rfl
@[simp] theorem State.setDdrQ_savedDom (s : State) (k : Nat) (q : List FabReq) : (s.setDdrQ k q).savedDom = s.savedDom := rfl
@[simp] theorem State.setDdrQ_wakeLatch (s : State) (k : Nat) (q : List FabReq) : (s.setDdrQ k q).wakeLatch = s.wakeLatch := rfl
@[simp] theorem State.setDdrQ_savedWake (s : State) (k : Nat) (q : List FabReq) : (s.setDdrQ k q).savedWake = s.savedWake := rfl
@[simp] theorem State.setDdrQ_warned (s : State) (k : Nat) (q : List FabReq) : (s.setDdrQ k q).warned = s.warned := rfl
@[simp] theorem State.setDdrQ_pins (s : State) (k : Nat) (q : List FabReq) : (s.setDdrQ k q).pins = s.pins := rfl
@[simp] theorem State.setDdrQ_fabio (s : State) (k : Nat) (q : List FabReq) : (s.setDdrQ k q).fabio = s.fabio := rfl
@[simp] theorem State.setDdrQ_fab (s : State) (k : Nat) (q : List FabReq) : (s.setDdrQ k q).fab = s.fab := rfl
@[simp] theorem State.setDdrQ_aoc (s : State) (k : Nat) (q : List FabReq) : (s.setDdrQ k q).aoc = s.aoc := rfl
@[simp] theorem State.setDdrQ_tapReset (s : State) (k : Nat) (q : List FabReq) : (s.setDdrQ k q).tapReset = s.tapReset := rfl
@[simp] theorem State.setDdrQ_switching (s : State) (k : Nat) (q : List FabReq) : (s.setDdrQ k q).switching = s.switching := rfl
@[simp] theorem State.setDdrQ_heldSwitch (s : State) (k : Nat) (q : List FabReq) : (s.setDdrQ k q).heldSwitch = s.heldSwitch := rfl

@[simp] theorem State.setLane_pending (s : State) (k : Nat) (x : LaneSt) : (s.setLane k x).pending = s.pending := rfl
@[simp] theorem State.setLane_variant (s : State) (k : Nat) (x : LaneSt) : (s.setLane k x).variant = s.variant := rfl
@[simp] theorem State.setLane_devid (s : State) (k : Nat) (x : LaneSt) : (s.setLane k x).devid = s.devid := rfl
@[simp] theorem State.setLane_xtal (s : State) (k : Nat) (x : LaneSt) : (s.setLane k x).xtal = s.xtal := rfl
@[simp] theorem State.setLane_slot (s : State) (k : Nat) (x : LaneSt) : (s.setLane k x).slot = s.slot := rfl
@[simp] theorem State.setLane_fresh (s : State) (k : Nat) (x : LaneSt) : (s.setLane k x).fresh = s.fresh := rfl
@[simp] theorem State.setLane_regs (s : State) (k : Nat) (x : LaneSt) : (s.setLane k x).regs = s.regs := rfl
@[simp] theorem State.setLane_pggen (s : State) (k : Nat) (x : LaneSt) : (s.setLane k x).pggen = s.pggen := rfl
@[simp] theorem State.setLane_copies (s : State) (k : Nat) (x : LaneSt) : (s.setLane k x).copies = s.copies := rfl
@[simp] theorem State.setLane_triads (s : State) (k : Nat) (x : LaneSt) : (s.setLane k x).triads = s.triads := rfl
@[simp] theorem State.setLane_fcol (s : State) (k : Nat) (x : LaneSt) : (s.setLane k x).fcol = s.fcol := rfl
@[simp] theorem State.setLane_sram (s : State) (k : Nat) (x : LaneSt) : (s.setLane k x).sram = s.sram := rfl
@[simp] theorem State.setLane_port (s : State) (k : Nat) (x : LaneSt) : (s.setLane k x).port = s.port := rfl
@[simp] theorem State.setLane_sramWb (s : State) (k : Nat) (x : LaneSt) : (s.setLane k x).sramWb = s.sramWb := rfl
@[simp] theorem State.setLane_ddr (s : State) (k : Nat) (x : LaneSt) : (s.setLane k x).ddr = s.ddr := rfl
@[simp] theorem State.setLane_ddrQ (s : State) (k : Nat) (x : LaneSt) : (s.setLane k x).ddrQ = s.ddrQ := rfl
@[simp] theorem State.setLane_ddrWb (s : State) (k : Nat) (x : LaneSt) : (s.setLane k x).ddrWb = s.ddrWb := rfl
@[simp] theorem State.setLane_ddrDirty (s : State) (k : Nat) (x : LaneSt) : (s.setLane k x).ddrDirty = s.ddrDirty := rfl
@[simp] theorem State.setLane_ddrWin (s : State) (k : Nat) (x : LaneSt) : (s.setLane k x).ddrWin = s.ddrWin := rfl
@[simp] theorem State.setLane_resync (s : State) (k : Nat) (x : LaneSt) : (s.setLane k x).resync = s.resync := rfl
@[simp] theorem State.setLane_resv (s : State) (k : Nat) (x : LaneSt) : (s.setLane k x).resv = s.resv := rfl
@[simp] theorem State.setLane_resps (s : State) (k : Nat) (x : LaneSt) : (s.setLane k x).resps = s.resps := rfl
@[simp] theorem State.setLane_tags (s : State) (k : Nat) (x : LaneSt) : (s.setLane k x).tags = s.tags := rfl
@[simp] theorem State.setLane_flitRx (s : State) (k : Nat) (x : LaneSt) : (s.setLane k x).flitRx = s.flitRx := rfl
@[simp] theorem State.setLane_flitTx (s : State) (k : Nat) (x : LaneSt) : (s.setLane k x).flitTx = s.flitTx := rfl
@[simp] theorem State.setLane_vmeIn (s : State) (k : Nat) (x : LaneSt) : (s.setLane k x).vmeIn = s.vmeIn := rfl
@[simp] theorem State.setLane_timeB (s : State) (k : Nat) (x : LaneSt) : (s.setLane k x).timeB = s.timeB := rfl
@[simp] theorem State.setLane_engines (s : State) (k : Nat) (x : LaneSt) : (s.setLane k x).engines = s.engines := rfl
@[simp] theorem State.setLane_lengines (s : State) (k : Nat) (x : LaneSt) : (s.setLane k x).lengines = s.lengines := rfl
@[simp] theorem State.setLane_notices (s : State) (k : Nat) (x : LaneSt) : (s.setLane k x).notices = s.notices := rfl
@[simp] theorem State.setLane_injMade (s : State) (k : Nat) (x : LaneSt) : (s.setLane k x).injMade = s.injMade := rfl
@[simp] theorem State.setLane_links (s : State) (k : Nat) (x : LaneSt) : (s.setLane k x).links = s.links := rfl
@[simp] theorem State.setLane_spares (s : State) (k : Nat) (x : LaneSt) : (s.setLane k x).spares = s.spares := rfl
@[simp] theorem State.setLane_bvlVers (s : State) (k : Nat) (x : LaneSt) : (s.setLane k x).bvlVers = s.bvlVers := rfl
@[simp] theorem State.setLane_out (s : State) (k : Nat) (x : LaneSt) : (s.setLane k x).out = s.out := rfl
@[simp] theorem State.setLane_vme (s : State) (k : Nat) (x : LaneSt) : (s.setLane k x).vme = s.vme := rfl
@[simp] theorem State.setLane_cans (s : State) (k : Nat) (x : LaneSt) : (s.setLane k x).cans = s.cans := rfl
@[simp] theorem State.setLane_uarts (s : State) (k : Nat) (x : LaneSt) : (s.setLane k x).uarts = s.uarts := rfl
@[simp] theorem State.setLane_flash (s : State) (k : Nat) (x : LaneSt) : (s.setLane k x).flash = s.flash := rfl
@[simp] theorem State.setLane_warden (s : State) (k : Nat) (x : LaneSt) : (s.setLane k x).warden = s.warden := rfl
@[simp] theorem State.setLane_svc (s : State) (k : Nat) (x : LaneSt) : (s.setLane k x).svc = s.svc := rfl
@[simp] theorem State.setLane_bist (s : State) (k : Nat) (x : LaneSt) : (s.setLane k x).bist = s.bist := rfl
@[simp] theorem State.setLane_resets (s : State) (k : Nat) (x : LaneSt) : (s.setLane k x).resets = s.resets := rfl
@[simp] theorem State.setLane_bridgeShut (s : State) (k : Nat) (x : LaneSt) : (s.setLane k x).bridgeShut = s.bridgeShut := rfl
@[simp] theorem State.setLane_savedDom (s : State) (k : Nat) (x : LaneSt) : (s.setLane k x).savedDom = s.savedDom := rfl
@[simp] theorem State.setLane_wakeLatch (s : State) (k : Nat) (x : LaneSt) : (s.setLane k x).wakeLatch = s.wakeLatch := rfl
@[simp] theorem State.setLane_savedWake (s : State) (k : Nat) (x : LaneSt) : (s.setLane k x).savedWake = s.savedWake := rfl
@[simp] theorem State.setLane_warned (s : State) (k : Nat) (x : LaneSt) : (s.setLane k x).warned = s.warned := rfl
@[simp] theorem State.setLane_pins (s : State) (k : Nat) (x : LaneSt) : (s.setLane k x).pins = s.pins := rfl
@[simp] theorem State.setLane_fabio (s : State) (k : Nat) (x : LaneSt) : (s.setLane k x).fabio = s.fabio := rfl
@[simp] theorem State.setLane_fab (s : State) (k : Nat) (x : LaneSt) : (s.setLane k x).fab = s.fab := rfl
@[simp] theorem State.setLane_aoc (s : State) (k : Nat) (x : LaneSt) : (s.setLane k x).aoc = s.aoc := rfl
@[simp] theorem State.setLane_tapReset (s : State) (k : Nat) (x : LaneSt) : (s.setLane k x).tapReset = s.tapReset := rfl
@[simp] theorem State.setLane_switching (s : State) (k : Nat) (x : LaneSt) : (s.setLane k x).switching = s.switching := rfl
@[simp] theorem State.setLane_heldSwitch (s : State) (k : Nat) (x : LaneSt) : (s.setLane k x).heldSwitch = s.heldSwitch := rfl

@[simp] theorem State.setLink_pending (s : State) (k : Nat) (x : Link) : (s.setLink k x).pending = s.pending := rfl
@[simp] theorem State.setLink_variant (s : State) (k : Nat) (x : Link) : (s.setLink k x).variant = s.variant := rfl
@[simp] theorem State.setLink_devid (s : State) (k : Nat) (x : Link) : (s.setLink k x).devid = s.devid := rfl
@[simp] theorem State.setLink_xtal (s : State) (k : Nat) (x : Link) : (s.setLink k x).xtal = s.xtal := rfl
@[simp] theorem State.setLink_slot (s : State) (k : Nat) (x : Link) : (s.setLink k x).slot = s.slot := rfl
@[simp] theorem State.setLink_fresh (s : State) (k : Nat) (x : Link) : (s.setLink k x).fresh = s.fresh := rfl
@[simp] theorem State.setLink_regs (s : State) (k : Nat) (x : Link) : (s.setLink k x).regs = s.regs := rfl
@[simp] theorem State.setLink_pggen (s : State) (k : Nat) (x : Link) : (s.setLink k x).pggen = s.pggen := rfl
@[simp] theorem State.setLink_copies (s : State) (k : Nat) (x : Link) : (s.setLink k x).copies = s.copies := rfl
@[simp] theorem State.setLink_triads (s : State) (k : Nat) (x : Link) : (s.setLink k x).triads = s.triads := rfl
@[simp] theorem State.setLink_fcol (s : State) (k : Nat) (x : Link) : (s.setLink k x).fcol = s.fcol := rfl
@[simp] theorem State.setLink_sram (s : State) (k : Nat) (x : Link) : (s.setLink k x).sram = s.sram := rfl
@[simp] theorem State.setLink_port (s : State) (k : Nat) (x : Link) : (s.setLink k x).port = s.port := rfl
@[simp] theorem State.setLink_sramWb (s : State) (k : Nat) (x : Link) : (s.setLink k x).sramWb = s.sramWb := rfl
@[simp] theorem State.setLink_ddr (s : State) (k : Nat) (x : Link) : (s.setLink k x).ddr = s.ddr := rfl
@[simp] theorem State.setLink_ddrQ (s : State) (k : Nat) (x : Link) : (s.setLink k x).ddrQ = s.ddrQ := rfl
@[simp] theorem State.setLink_ddrWb (s : State) (k : Nat) (x : Link) : (s.setLink k x).ddrWb = s.ddrWb := rfl
@[simp] theorem State.setLink_ddrDirty (s : State) (k : Nat) (x : Link) : (s.setLink k x).ddrDirty = s.ddrDirty := rfl
@[simp] theorem State.setLink_ddrWin (s : State) (k : Nat) (x : Link) : (s.setLink k x).ddrWin = s.ddrWin := rfl
@[simp] theorem State.setLink_resync (s : State) (k : Nat) (x : Link) : (s.setLink k x).resync = s.resync := rfl
@[simp] theorem State.setLink_resv (s : State) (k : Nat) (x : Link) : (s.setLink k x).resv = s.resv := rfl
@[simp] theorem State.setLink_resps (s : State) (k : Nat) (x : Link) : (s.setLink k x).resps = s.resps := rfl
@[simp] theorem State.setLink_tags (s : State) (k : Nat) (x : Link) : (s.setLink k x).tags = s.tags := rfl
@[simp] theorem State.setLink_flitRx (s : State) (k : Nat) (x : Link) : (s.setLink k x).flitRx = s.flitRx := rfl
@[simp] theorem State.setLink_flitTx (s : State) (k : Nat) (x : Link) : (s.setLink k x).flitTx = s.flitTx := rfl
@[simp] theorem State.setLink_vmeIn (s : State) (k : Nat) (x : Link) : (s.setLink k x).vmeIn = s.vmeIn := rfl
@[simp] theorem State.setLink_timeB (s : State) (k : Nat) (x : Link) : (s.setLink k x).timeB = s.timeB := rfl
@[simp] theorem State.setLink_engines (s : State) (k : Nat) (x : Link) : (s.setLink k x).engines = s.engines := rfl
@[simp] theorem State.setLink_lengines (s : State) (k : Nat) (x : Link) : (s.setLink k x).lengines = s.lengines := rfl
@[simp] theorem State.setLink_notices (s : State) (k : Nat) (x : Link) : (s.setLink k x).notices = s.notices := rfl
@[simp] theorem State.setLink_injMade (s : State) (k : Nat) (x : Link) : (s.setLink k x).injMade = s.injMade := rfl
@[simp] theorem State.setLink_lanes (s : State) (k : Nat) (x : Link) : (s.setLink k x).lanes = s.lanes := rfl
@[simp] theorem State.setLink_spares (s : State) (k : Nat) (x : Link) : (s.setLink k x).spares = s.spares := rfl
@[simp] theorem State.setLink_bvlVers (s : State) (k : Nat) (x : Link) : (s.setLink k x).bvlVers = s.bvlVers := rfl
@[simp] theorem State.setLink_out (s : State) (k : Nat) (x : Link) : (s.setLink k x).out = s.out := rfl
@[simp] theorem State.setLink_vme (s : State) (k : Nat) (x : Link) : (s.setLink k x).vme = s.vme := rfl
@[simp] theorem State.setLink_cans (s : State) (k : Nat) (x : Link) : (s.setLink k x).cans = s.cans := rfl
@[simp] theorem State.setLink_uarts (s : State) (k : Nat) (x : Link) : (s.setLink k x).uarts = s.uarts := rfl
@[simp] theorem State.setLink_flash (s : State) (k : Nat) (x : Link) : (s.setLink k x).flash = s.flash := rfl
@[simp] theorem State.setLink_warden (s : State) (k : Nat) (x : Link) : (s.setLink k x).warden = s.warden := rfl
@[simp] theorem State.setLink_svc (s : State) (k : Nat) (x : Link) : (s.setLink k x).svc = s.svc := rfl
@[simp] theorem State.setLink_bist (s : State) (k : Nat) (x : Link) : (s.setLink k x).bist = s.bist := rfl
@[simp] theorem State.setLink_resets (s : State) (k : Nat) (x : Link) : (s.setLink k x).resets = s.resets := rfl
@[simp] theorem State.setLink_bridgeShut (s : State) (k : Nat) (x : Link) : (s.setLink k x).bridgeShut = s.bridgeShut := rfl
@[simp] theorem State.setLink_savedDom (s : State) (k : Nat) (x : Link) : (s.setLink k x).savedDom = s.savedDom := rfl
@[simp] theorem State.setLink_wakeLatch (s : State) (k : Nat) (x : Link) : (s.setLink k x).wakeLatch = s.wakeLatch := rfl
@[simp] theorem State.setLink_savedWake (s : State) (k : Nat) (x : Link) : (s.setLink k x).savedWake = s.savedWake := rfl
@[simp] theorem State.setLink_warned (s : State) (k : Nat) (x : Link) : (s.setLink k x).warned = s.warned := rfl
@[simp] theorem State.setLink_pins (s : State) (k : Nat) (x : Link) : (s.setLink k x).pins = s.pins := rfl
@[simp] theorem State.setLink_fabio (s : State) (k : Nat) (x : Link) : (s.setLink k x).fabio = s.fabio := rfl
@[simp] theorem State.setLink_fab (s : State) (k : Nat) (x : Link) : (s.setLink k x).fab = s.fab := rfl
@[simp] theorem State.setLink_aoc (s : State) (k : Nat) (x : Link) : (s.setLink k x).aoc = s.aoc := rfl
@[simp] theorem State.setLink_tapReset (s : State) (k : Nat) (x : Link) : (s.setLink k x).tapReset = s.tapReset := rfl
@[simp] theorem State.setLink_switching (s : State) (k : Nat) (x : Link) : (s.setLink k x).switching = s.switching := rfl
@[simp] theorem State.setLink_heldSwitch (s : State) (k : Nat) (x : Link) : (s.setLink k x).heldSwitch = s.heldSwitch := rfl

@[simp] theorem State.setReg_dies (s : State) (p o : Nat) (v : Word) : (s.setReg p o v).dies = s.dies := rfl
@[simp] theorem State.setReg_copy (s : State) (p o : Nat) (v : Word) (j : Nat) : (s.setReg p o v).copy j = s.copy j := rfl
@[simp] theorem State.setReg_triad (s : State) (p o : Nat) (v : Word) (j : Nat) : (s.setReg p o v).triad j = s.triad j := rfl
@[simp] theorem State.setReg_engine (s : State) (p o : Nat) (v : Word) (j : Nat) : (s.setReg p o v).engine j = s.engine j := rfl
@[simp] theorem State.setReg_lengine (s : State) (p o : Nat) (v : Word) (j : Nat) : (s.setReg p o v).lengine j = s.lengine j := rfl
@[simp] theorem State.setFld_dies (s : State) (p o hi lo v : Nat) : (s.setFld p o hi lo v).dies = s.dies := rfl
@[simp] theorem State.setFld_copy (s : State) (p o hi lo v : Nat) (j : Nat) : (s.setFld p o hi lo v).copy j = s.copy j := rfl
@[simp] theorem State.setFld_triad (s : State) (p o hi lo v : Nat) (j : Nat) : (s.setFld p o hi lo v).triad j = s.triad j := rfl
@[simp] theorem State.setFld_engine (s : State) (p o hi lo v : Nat) (j : Nat) : (s.setFld p o hi lo v).engine j = s.engine j := rfl
@[simp] theorem State.setFld_lengine (s : State) (p o hi lo v : Nat) (j : Nat) : (s.setFld p o hi lo v).lengine j = s.lengine j := rfl
@[simp] theorem State.count_dies (s : State) (p o : Nat) : (s.count p o).dies = s.dies := rfl
@[simp] theorem State.count_copy (s : State) (p o : Nat) (j : Nat) : (s.count p o).copy j = s.copy j := rfl
@[simp] theorem State.count_triad (s : State) (p o : Nat) (j : Nat) : (s.count p o).triad j = s.triad j := rfl
@[simp] theorem State.count_engine (s : State) (p o : Nat) (j : Nat) : (s.count p o).engine j = s.engine j := rfl
@[simp] theorem State.count_lengine (s : State) (p o : Nat) (j : Nat) : (s.count p o).lengine j = s.lengine j := rfl
@[simp] theorem State.setCopy_dies (s : State) (k : Nat) (c : Copy) : (s.setCopy k c).dies = s.dies := rfl
@[simp] theorem State.setCopy_reg (s : State) (k : Nat) (c : Copy) (p' o' : Nat) : (s.setCopy k c).reg p' o' = s.reg p' o' := rfl
@[simp] theorem State.setCopy_triad (s : State) (k : Nat) (c : Copy) (j : Nat) : (s.setCopy k c).triad j = s.triad j := rfl
@[simp] theorem State.setCopy_engine (s : State) (k : Nat) (c : Copy) (j : Nat) : (s.setCopy k c).engine j = s.engine j := rfl
@[simp] theorem State.setCopy_lengine (s : State) (k : Nat) (c : Copy) (j : Nat) : (s.setCopy k c).lengine j = s.lengine j := rfl
@[simp] theorem State.setTriad_dies (s : State) (k : Nat) (d : Triad) : (s.setTriad k d).dies = s.dies := rfl
@[simp] theorem State.setTriad_reg (s : State) (k : Nat) (d : Triad) (p' o' : Nat) : (s.setTriad k d).reg p' o' = s.reg p' o' := rfl
@[simp] theorem State.setTriad_copy (s : State) (k : Nat) (d : Triad) (j : Nat) : (s.setTriad k d).copy j = s.copy j := rfl
@[simp] theorem State.setTriad_engine (s : State) (k : Nat) (d : Triad) (j : Nat) : (s.setTriad k d).engine j = s.engine j := rfl
@[simp] theorem State.setTriad_lengine (s : State) (k : Nat) (d : Triad) (j : Nat) : (s.setTriad k d).lengine j = s.lengine j := rfl
@[simp] theorem State.setEngine_dies (s : State) (k : Nat) (d : Engine) : (s.setEngine k d).dies = s.dies := rfl
@[simp] theorem State.setEngine_reg (s : State) (k : Nat) (d : Engine) (p' o' : Nat) : (s.setEngine k d).reg p' o' = s.reg p' o' := rfl
@[simp] theorem State.setEngine_copy (s : State) (k : Nat) (d : Engine) (j : Nat) : (s.setEngine k d).copy j = s.copy j := rfl
@[simp] theorem State.setEngine_triad (s : State) (k : Nat) (d : Engine) (j : Nat) : (s.setEngine k d).triad j = s.triad j := rfl
@[simp] theorem State.setEngine_lengine (s : State) (k : Nat) (d : Engine) (j : Nat) : (s.setEngine k d).lengine j = s.lengine j := rfl
@[simp] theorem State.setLengine_dies (s : State) (k : Nat) (d : LEngine) : (s.setLengine k d).dies = s.dies := rfl
@[simp] theorem State.setLengine_reg (s : State) (k : Nat) (d : LEngine) (p' o' : Nat) : (s.setLengine k d).reg p' o' = s.reg p' o' := rfl
@[simp] theorem State.setLengine_copy (s : State) (k : Nat) (d : LEngine) (j : Nat) : (s.setLengine k d).copy j = s.copy j := rfl
@[simp] theorem State.setLengine_triad (s : State) (k : Nat) (d : LEngine) (j : Nat) : (s.setLengine k d).triad j = s.triad j := rfl
@[simp] theorem State.setLengine_engine (s : State) (k : Nat) (d : LEngine) (j : Nat) : (s.setLengine k d).engine j = s.engine j := rfl
@[simp] theorem State.advance_dies (s : State) (n : Nat) : (s.advance n).dies = s.dies := rfl
@[simp] theorem State.advance_reg (s : State) (n : Nat) (p' o' : Nat) : (s.advance n).reg p' o' = s.reg p' o' := rfl
@[simp] theorem State.advance_copy (s : State) (n : Nat) (j : Nat) : (s.advance n).copy j = s.copy j := rfl
@[simp] theorem State.advance_triad (s : State) (n : Nat) (j : Nat) : (s.advance n).triad j = s.triad j := rfl
@[simp] theorem State.advance_engine (s : State) (n : Nat) (j : Nat) : (s.advance n).engine j = s.engine j := rfl
@[simp] theorem State.advance_lengine (s : State) (n : Nat) (j : Nat) : (s.advance n).lengine j = s.lengine j := rfl
@[simp] theorem State.setSram_dies (s : State) (k : Nat) (r : Ram) : (s.setSram k r).dies = s.dies := rfl
@[simp] theorem State.setSram_reg (s : State) (k : Nat) (r : Ram) (p' o' : Nat) : (s.setSram k r).reg p' o' = s.reg p' o' := rfl
@[simp] theorem State.setSram_copy (s : State) (k : Nat) (r : Ram) (j : Nat) : (s.setSram k r).copy j = s.copy j := rfl
@[simp] theorem State.setSram_triad (s : State) (k : Nat) (r : Ram) (j : Nat) : (s.setSram k r).triad j = s.triad j := rfl
@[simp] theorem State.setSram_engine (s : State) (k : Nat) (r : Ram) (j : Nat) : (s.setSram k r).engine j = s.engine j := rfl
@[simp] theorem State.setSram_lengine (s : State) (k : Nat) (r : Ram) (j : Nat) : (s.setSram k r).lengine j = s.lengine j := rfl
@[simp] theorem State.setDdr_dies (s : State) (k : Nat) (r : Ram) : (s.setDdr k r).dies = s.dies := rfl
@[simp] theorem State.setDdr_reg (s : State) (k : Nat) (r : Ram) (p' o' : Nat) : (s.setDdr k r).reg p' o' = s.reg p' o' := rfl
@[simp] theorem State.setDdr_copy (s : State) (k : Nat) (r : Ram) (j : Nat) : (s.setDdr k r).copy j = s.copy j := rfl
@[simp] theorem State.setDdr_triad (s : State) (k : Nat) (r : Ram) (j : Nat) : (s.setDdr k r).triad j = s.triad j := rfl
@[simp] theorem State.setDdr_engine (s : State) (k : Nat) (r : Ram) (j : Nat) : (s.setDdr k r).engine j = s.engine j := rfl
@[simp] theorem State.setDdr_lengine (s : State) (k : Nat) (r : Ram) (j : Nat) : (s.setDdr k r).lengine j = s.lengine j := rfl
@[simp] theorem State.setPort_dies (s : State) (k : Nat) (q : List FabReq) : (s.setPort k q).dies = s.dies := rfl
@[simp] theorem State.setPort_reg (s : State) (k : Nat) (q : List FabReq) (p' o' : Nat) : (s.setPort k q).reg p' o' = s.reg p' o' := rfl
@[simp] theorem State.setPort_copy (s : State) (k : Nat) (q : List FabReq) (j : Nat) : (s.setPort k q).copy j = s.copy j := rfl
@[simp] theorem State.setPort_triad (s : State) (k : Nat) (q : List FabReq) (j : Nat) : (s.setPort k q).triad j = s.triad j := rfl
@[simp] theorem State.setPort_engine (s : State) (k : Nat) (q : List FabReq) (j : Nat) : (s.setPort k q).engine j = s.engine j := rfl
@[simp] theorem State.setPort_lengine (s : State) (k : Nat) (q : List FabReq) (j : Nat) : (s.setPort k q).lengine j = s.lengine j := rfl
@[simp] theorem State.setDdrQ_dies (s : State) (k : Nat) (q : List FabReq) : (s.setDdrQ k q).dies = s.dies := rfl
@[simp] theorem State.setDdrQ_reg (s : State) (k : Nat) (q : List FabReq) (p' o' : Nat) : (s.setDdrQ k q).reg p' o' = s.reg p' o' := rfl
@[simp] theorem State.setDdrQ_copy (s : State) (k : Nat) (q : List FabReq) (j : Nat) : (s.setDdrQ k q).copy j = s.copy j := rfl
@[simp] theorem State.setDdrQ_triad (s : State) (k : Nat) (q : List FabReq) (j : Nat) : (s.setDdrQ k q).triad j = s.triad j := rfl
@[simp] theorem State.setDdrQ_engine (s : State) (k : Nat) (q : List FabReq) (j : Nat) : (s.setDdrQ k q).engine j = s.engine j := rfl
@[simp] theorem State.setDdrQ_lengine (s : State) (k : Nat) (q : List FabReq) (j : Nat) : (s.setDdrQ k q).lengine j = s.lengine j := rfl
@[simp] theorem State.setLane_dies (s : State) (k : Nat) (x : LaneSt) : (s.setLane k x).dies = s.dies := rfl
@[simp] theorem State.setLane_reg (s : State) (k : Nat) (x : LaneSt) (p' o' : Nat) : (s.setLane k x).reg p' o' = s.reg p' o' := rfl
@[simp] theorem State.setLane_copy (s : State) (k : Nat) (x : LaneSt) (j : Nat) : (s.setLane k x).copy j = s.copy j := rfl
@[simp] theorem State.setLane_triad (s : State) (k : Nat) (x : LaneSt) (j : Nat) : (s.setLane k x).triad j = s.triad j := rfl
@[simp] theorem State.setLane_engine (s : State) (k : Nat) (x : LaneSt) (j : Nat) : (s.setLane k x).engine j = s.engine j := rfl
@[simp] theorem State.setLane_lengine (s : State) (k : Nat) (x : LaneSt) (j : Nat) : (s.setLane k x).lengine j = s.lengine j := rfl
@[simp] theorem State.setLink_dies (s : State) (k : Nat) (x : Link) : (s.setLink k x).dies = s.dies := rfl
@[simp] theorem State.setLink_reg (s : State) (k : Nat) (x : Link) (p' o' : Nat) : (s.setLink k x).reg p' o' = s.reg p' o' := rfl
@[simp] theorem State.setLink_copy (s : State) (k : Nat) (x : Link) (j : Nat) : (s.setLink k x).copy j = s.copy j := rfl
@[simp] theorem State.setLink_triad (s : State) (k : Nat) (x : Link) (j : Nat) : (s.setLink k x).triad j = s.triad j := rfl
@[simp] theorem State.setLink_engine (s : State) (k : Nat) (x : Link) (j : Nat) : (s.setLink k x).engine j = s.engine j := rfl
@[simp] theorem State.setLink_lengine (s : State) (k : Nat) (x : Link) (j : Nat) : (s.setLink k x).lengine j = s.lengine j := rfl

/-- A key names its page and offset. -/
theorem regKey_inj {p o p' o' : Nat} (ho : o < 0x1000) (ho' : o' < 0x1000) (h : regKey p o = regKey p' o') :
    p = p' ∧ o = o' := by
  unfold regKey at h
  omega

/-- A register just written reads as written. -/
@[simp] theorem State.reg_setReg_self (s : State) (p o : Nat) (v : Word) : (s.setReg p o v).reg p o = v := by
  simp [State.reg, State.setReg]

/-- A write of one register leaves every other as it was. -/
theorem State.reg_setReg_ne (s : State) (p o p' o' : Nat) (v : Word) (h : regKey p' o' ≠ regKey p o) :
    (s.setReg p o v).reg p' o' = s.reg p' o' := by
  simp [State.reg, State.setReg, AMap.get_set, h]

/-- The copy just stored. -/
@[simp] theorem State.copy_setCopy_self (s : State) (k : Nat) (c : Copy) : (s.setCopy k c).copy k = c := by
  simp [State.copy, State.setCopy]

/-- Every copy after one is stored. -/
theorem State.copy_setCopy (s : State) (k j : Nat) (c : Copy) :
    (s.setCopy k c).copy j = if j = k then c else s.copy j := by
  simp [State.copy, State.setCopy, AMap.get_set]

/-- The triad just stored. -/
@[simp] theorem State.triad_setTriad_self (s : State) (k : Nat) (d : Triad) : (s.setTriad k d).triad k = d := by
  simp [State.triad, State.setTriad]

/-- Every triad after one is stored. -/
theorem State.triad_setTriad (s : State) (k j : Nat) (d : Triad) :
    (s.setTriad k d).triad j = if j = k then d else s.triad j := by
  simp [State.triad, State.setTriad, AMap.get_set]

/-- The schedule engine just stored. -/
@[simp] theorem State.engine_setEngine_self (s : State) (k : Nat) (e : Engine) : (s.setEngine k e).engine k = e := by
  simp [State.engine, State.setEngine]

/-- The link schedule engine just stored. -/
@[simp] theorem State.lengine_setLengine_self (s : State) (k : Nat) (e : LEngine) : (s.setLengine k e).lengine k = e := by
  simp [State.lengine, State.setLengine]

/-- TIME after moving on to a moment: it never decreases (R179). -/
@[simp] theorem State.now_advance (s : State) (n : Nat) : (s.advance n).now = max s.now n := rfl

end Sys2Proof.Machine
end

