-- ==== Sys2Proof/Laws/Group.lean ====
section
/-! SUPPORT. What one group of a copy does to the rest of the device: fault reports, the wake of copies stalled in WAIT, the
store of the copy that retired. -/

namespace Sys2Proof.Machine

/-- A fault report changes FCOL alone. -/
theorem State.reportEv_keeps {α : Type} (f : State → α) (h : ∀ (s : State) (c : Fcol), f { s with fcol := c } = f s) (s : State)
    (e : FaultEv) : f (s.reportEv e) = f s := by
  unfold State.reportEv
  split
  · rfl
  · split
    · rfl
    · split <;> exact h _ _

theorem State.report_keeps {α : Type} (f : State → α) (h : ∀ (s : State) (c : Fcol), f { s with fcol := c } = f s) (s : State)
    (src code unit : Nat) (d : Word) : f (s.report src code unit d) = f s := State.reportEv_keeps f h s _

/-- A property that every step keeps holds after a fold. -/
theorem foldl_keeps {σ β : Type} (P : σ → Prop) (f : σ → β → σ) (l : List β) (h : ∀ s, ∀ x ∈ l, P s → P (f s x)) (s : σ)
    (hs : P s) : P (l.foldl f s) := by
  induction l generalizing s with
  | nil => exact hs
  | cons x l ih => exact ih (fun s y hy => h s y (by simp [hy])) _ (h s x (by simp) hs)

/-- The wake of stalled copies changes the copies alone (R63). -/
theorem State.wakeWaits_keeps {α : Type} (f : State → α) (h : ∀ (s : State) (k : Nat) (c : Copy), f (s.setCopy k c) = f s)
    (s : State) (t : Nat) : f (s.wakeWaits t) = f s := by
  unfold State.wakeWaits
  refine foldl_keeps (fun s' => f s' = f s) _ _ (fun s' c _ hs => ?_) s rfl
  dsimp only
  split
  · split
    · rw [h]; exact hs
    · exact hs
  · exact hs

/-- A copy that does not stall in WAIT is untouched by the wake of those that do (R63). -/
theorem State.wakeWaits_copy (s : State) (t j : Nat) (h : ∀ len, (s.copy j).hold ≠ .wait len) :
    (s.wakeWaits t).copy j = s.copy j := by
  unfold State.wakeWaits
  refine foldl_keeps (fun s' => s'.copy j = s.copy j) _ _ (fun s' c _ hs => ?_) s rfl
  dsimp only
  split
  · rename_i len hl
    split
    · have hne : j ≠ 3 * t + c := fun e => h len (by rw [← hs, e]; exact hl)
      rw [State.copy_setCopy, if_neg hne]; exact hs
    · exact hs
  · exact hs

/-- What a group's end shows the triad leaves a copy that does not stall in WAIT. -/
theorem State.afterGroup_copy (s : State) (t j : Nat) (h : ∀ len, (s.copy j).hold ≠ .wait len) :
    (s.afterGroup t).copy j = s.copy j := by
  unfold State.afterGroup
  dsimp only
  split
  · rw [State.wakeWaits_copy _ _ _ (by simpa [State.setPowerState] using h)]
    simp [State.setPowerState]
  · exact State.wakeWaits_copy _ _ _ h

/-- ... and every part of the state but the copies and the PWR page. -/
theorem State.afterGroup_keeps {α : Type} (f : State → α) (hc : ∀ (s : State) (k : Nat) (c : Copy), f (s.setCopy k c) = f s)
    (hp : ∀ (s : State) (o : Nat) (v : Word), f (s.setReg pgPwr o v) = f s) (s : State) (t : Nat) : f (s.afterGroup t) = f s := by
  unfold State.afterGroup
  dsimp only
  rw [State.wakeWaits_keeps f hc]
  split
  · exact hp _ _ _
  · rfl

/-- The reports of MPU overlaps change FCOL alone (R244). -/
theorem State.mpuReport_keeps {α : Type} (f : State → α) (h : ∀ (s : State) (c : Fcol), f { s with fcol := c } = f s) (s : State)
    (t c : Nat) (old : Copy) : f (s.mpuReport t c old) = f s := by
  unfold State.mpuReport
  dsimp only
  split
  · exact foldl_keeps (fun u => f u = f s) _ _ (fun u _ _ hu => (State.report_keeps f h u _ _ _ _).trans hu) s rfl
  · rfl

/-- The copy that has retired its group stands as it retired. -/
theorem State.groupDone_copy (s : State) (t c : Nat) (p : Copy) (h : ∀ len, p.hold ≠ .wait len) :
    (s.groupDone t c p).copy (3 * t + c) = p := by
  have e : ((s.setCopy (3 * t + c) p).mpuReport t c (s.copy (3 * t + c))).copy (3 * t + c) = p := by
    rw [State.mpuReport_keeps (fun s => s.copy (3 * t + c)) (fun _ _ => rfl)]
    simp
  unfold State.groupDone
  rw [State.afterGroup_copy _ _ _ (by rw [e]; exact h), e]

/-- A group's end leaves every part of the state but the copies, FCOL and the PWR page. -/
theorem State.groupDone_keeps {α : Type} (f : State → α) (hc : ∀ (s : State) (k : Nat) (c : Copy), f (s.setCopy k c) = f s)
    (hp : ∀ (s : State) (o : Nat) (v : Word), f (s.setReg pgPwr o v) = f s)
    (hf : ∀ (s : State) (c : Fcol), f { s with fcol := c } = f s) (s : State) (t c : Nat) (p : Copy) :
    f (s.groupDone t c p) = f s := by
  unfold State.groupDone
  rw [State.afterGroup_keeps f hc hp, State.mpuReport_keeps f hf, hc]

/-- What a group's end leaves of the copies of other triads. -/
theorem State.wakeWaits_other (s : State) (t j : Nat) (h : j / 3 ≠ t) : (s.wakeWaits t).copy j = s.copy j := by
  unfold State.wakeWaits
  refine foldl_keeps (fun s' => s'.copy j = s.copy j) _ _ (fun s' c hc hs => ?_) s rfl
  have hne : j ≠ 3 * t + c := by have := List.mem_range.mp hc; omega
  dsimp only
  split
  · split
    · rw [State.copy_setCopy, if_neg hne]; exact hs
    · exact hs
  · exact hs

theorem State.groupDone_other (s : State) (t c j : Nat) (p : Copy) (hc : c < 3) (h : j / 3 ≠ t) :
    (s.groupDone t c p).copy j = s.copy j := by
  have hne : j ≠ 3 * t + c := by omega
  have e : ∀ s' : State, (s'.afterGroup t).copy j = s'.copy j := by
    intro s'
    unfold State.afterGroup
    dsimp only
    rw [State.wakeWaits_other _ _ _ h]
    split
    · simp [State.setPowerState]
    · rfl
  unfold State.groupDone
  rw [e, State.mpuReport_keeps (fun s => s.copy j) (fun _ _ => rfl), State.copy_setCopy, if_neg hne]

/-- What `headFree` says. -/
theorem State.headFree_spec (s : State) (x : Ctx) (h : s.headFree x = true) :
    x.t < s.nTriads ∧ x.c < 3 ∧ (s.copy x.key).st = .running ∧ (s.copy x.key).hold = .none := by
  simp only [State.headFree, Bool.and_eq_true, decide_eq_true_eq] at h
  exact ⟨h.1.1.1.1, h.1.1.1.2, h.1.1.2, h.1.2⟩

/-- Where no copy of the triad has issued groups ahead, the copy's queue is empty. -/
theorem State.queue_of_ahead (s : State) (x : Ctx) (hc : x.c < 3) (h : s.ahead x.t = false) : (s.copy x.key).queue = [] := by
  unfold State.ahead at h
  rw [List.any_eq_false] at h
  have := h x.c (List.mem_range.2 hc)
  simp only [Bool.not_eq_true, Bool.not_eq_false', List.isEmpty_iff] at this
  exact this

/-- A copy that is ready moves its next group to the head of the state behind the fetch; one that stays there is issued (R80, R83). -/
theorem State.moveGroup_ready (s : State) (x : Ctx) (i : Fla) (rep : Option RepKind) (h : s.ready x i rep = true) :
    s.moveGroup x i rep =
      if sameGroup ((s.fetched x i rep).copy x.key) (((s.fetched x i rep).headGroup x i rep).copy x.key) x rep i
      then ((s.fetched x i rep).headGroup x i rep).issueBehind x i rep else (s.fetched x i rep).headGroup x i rep := by
  simp only [State.ready, Bool.and_eq_true, Bool.not_eq_true'] at h
  obtain ⟨⟨h1, h2⟩, h3⟩ := h
  have hq := State.queue_of_ahead s x (State.headFree_spec s x h1).2.1 h2
  have hf : s.fetchFor x i rep = (s.fetched x i rep, true) := by
    rw [← h3]; rfl
  simp only [State.moveGroup, State.settleQueue, h2, h1, hq, State.runFirst, hf, Bool.false_eq_true, if_false, and_self, if_true]

/-- An instruction that joins slot B (R86). -/
theorem State.headGroup_joins (s : State) (x : Ctx) (i : Fla) (rep : Option RepKind) (h : s.headFree x = true)
    (hb : (s.copy x.key).takesB x rep i = true) : s.headGroup x i rep = s.runSlotB x i := by
  unfold State.headGroup
  simp only [h, hb, and_self, if_true]

/-- The instruction is what stands before the copy: it goes on from the state with slot B closed (R82, R109, R121). -/
theorem State.headGroup_runs (s : State) (x : Ctx) (i : Fla) (rep : Option RepKind) (hb : (s.copy x.key).takesB x rep i = false)
    (ht : s.takesGroups x = true) (h1 : s.staggerHeld x.t x.c = false) (h2 : s.skewHeld x.t x.c = false)
    (hc : candidate (s.triad x.t) (s.copy x.key) x.c (flaKind rep i) false = .none)
    (hd : decodeFault (s.copy x.key) x i rep = none) :
    s.headGroup x i rep = (s.closeSlot x.key).runHead x i rep false := by
  unfold State.headGroup
  simp [hb, ht, h1, h2, hd, hc, State.takeCandidate]

/-- A faulting instruction takes its fault in its place (R82, R120). -/
theorem State.headGroup_faults (s : State) (x : Ctx) (i : Fla) (rep : Option RepKind) (f : FaultInfo)
    (hb : (s.copy x.key).takesB x rep i = false) (ht : s.takesGroups x = true) (h1 : s.staggerHeld x.t x.c = false)
    (h2 : s.skewHeld x.t x.c = false) (hc : candidate (s.triad x.t) (s.copy x.key) x.c (flaKind rep i) true = .none)
    (hd : decodeFault (s.copy x.key) x i rep = some f) :
    s.headGroup x i rep = (s.closeSlot x.key).takeFault x.t x.c false f := by
  unfold State.headGroup
  simp [hb, ht, h1, h2, hd, hc, State.takeCandidate]

/-- The head group of an instruction that nothing stands before, but for WAIT and the fences: its accesses, then its effect. -/
theorem State.runHead_accs (s : State) (x : Ctx) (i : Fla) (rep : Option RepKind) (hg : (s.copy x.key).guardOk x.guard = true)
    (hf : headFault (s.copy x.key) x i rep = none) (hr : ¬ (rep.isSome = true ∧ (s.copy x.key).gAt 1 = 0))
    (hw : i ≠ .wait ∧ i ≠ .fence ∧ i ≠ .fenceRule) :
    s.runHead x i rep false = s.runAccs x i rep (flaAcc x (s.copy x.key) (s.nextPc x rep i) i) [] := by
  unfold State.runHead
  simp only [hg, hf, hr, if_false, Bool.true_eq_false, Bool.false_eq_true, false_and]
  obtain ⟨w1, w2, w3⟩ := hw
  cases i <;> first | exact absurd rfl w1 | exact absurd rfl w2 | exact absurd rfl w3 | simp [State.nextPc]

/-- An instruction with an access is neither WAIT nor a fence. -/
theorem flaAcc_notWait (x : Ctx) (c : Copy) (n : Word) (i : Fla) (h : flaAcc x c n i ≠ []) :
    i ≠ .wait ∧ i ≠ .fence ∧ i ≠ .fenceRule := by
  refine ⟨?_, ?_, ?_⟩ <;> (rintro rfl; exact h rfl)

end Sys2Proof.Machine
end

