-- ==== Sys2Proof/Laws/Memory.lean ====
section
/-! SUPPORT. The laws of the plain memories: the canonical form that every memory operation keeps, and what a byte reads as after a
write. -/

namespace Sys2Proof.Machine

/-! The canonical form. -/

theorem Ram.wf_iff (r : Ram) : r.wf = true ↔
    AMap.rising r.cells = true ∧ (∀ e ∈ r.cells, (r.bgAt e.1).fill ≠ some e.2) ∧ AMap.rising r.marks = true ∧
    AMap.rising r.syn = true := by
  simp only [Ram.wf, Bool.and_eq_true, List.all_eq_true, decide_eq_true_eq, and_assoc]

/-- A memory that nothing has written, or that is filled with one byte, is in canonical form. -/
theorem Ram.wf_unwritten (e : Nat) : (Ram.unwritten e).wf = true := by
  simp [Ram.wf_iff, Ram.unwritten, AMap.rising]
theorem Ram.wf_filled (b : Byte) : (Ram.filled b).wf = true := by
  simp [Ram.wf_iff, Ram.filled, AMap.rising]

/-- A byte write keeps the canonical form. -/
theorem Ram.wf_setByte (r : Ram) (a : Nat) (b : Byte) (h : r.wf = true) : (r.setByte a b).wf = true := by
  rw [Ram.wf_iff] at h
  obtain ⟨h1, h2, h3, h4⟩ := h
  unfold Ram.setByte
  split
  · rw [Ram.wf_iff]
    refine ⟨AMap.rising_drop a _ h1, fun e he => ?_, h3, h4⟩
    simp only [AMap.drop, List.mem_filter] at he
    exact h2 e he.1
  · rename_i hf
    rw [Ram.wf_iff]
    refine ⟨AMap.rising_put a b _ h1, fun e he => ?_, h3, h4⟩
    rcases AMap.mem_put a b _ e he with rfl | he
    · exact hf
    · exact h2 e he

theorem Ram.wf_syn (r : Ram) (l : AMap Byte) (h : r.wf = true) (hl : AMap.rising l = true) :
    ({ r with syn := l } : Ram).wf = true := by
  rw [Ram.wf_iff] at h ⊢
  exact ⟨h.1, h.2.1, h.2.2.1, hl⟩

/-- Valid check bits keep the canonical form. -/
theorem Ram.wf_clearSyn (r : Ram) (wa : Nat) (h : r.wf = true) : (r.clearSyn wa).wf = true := by
  have hs := h
  rw [Ram.wf_iff] at hs
  unfold Ram.clearSyn
  split
  · exact Ram.wf_syn _ _ h (AMap.rising_drop _ _ hs.2.2.2)
  · exact Ram.wf_syn _ _ h (AMap.rising_put _ _ _ hs.2.2.2)

theorem Ram.setByte_syn (r : Ram) (a : Nat) (b : Byte) : (r.setByte a b).syn = r.syn := by
  unfold Ram.setByte; split <;> rfl

/-- A word write keeps the canonical form. -/
theorem Ram.wf_setWord (r : Ram) (wa : Nat) (v : Word) (h : r.wf = true) : (r.setWord wa v).wf = true := by
  unfold Ram.setWord
  have h7 := Ram.wf_setByte _ (8 * wa + 7) (byteOfWord v 7) <| Ram.wf_setByte _ (8 * wa + 6) (byteOfWord v 6) <|
    Ram.wf_setByte _ (8 * wa + 5) (byteOfWord v 5) <| Ram.wf_setByte _ (8 * wa + 4) (byteOfWord v 4) <|
    Ram.wf_setByte _ (8 * wa + 3) (byteOfWord v 3) <| Ram.wf_setByte _ (8 * wa + 2) (byteOfWord v 2) <|
    Ram.wf_setByte _ (8 * wa + 1) (byteOfWord v 1) <| Ram.wf_setByte r (8 * wa) (byteOfWord v 0) h
  exact Ram.wf_clearSyn _ _ h7

/-- A write of part of a word keeps the canonical form. -/
theorem Ram.wf_mergeWrite (r : Ram) (wa lo n : Nat) (v : Word) (h : r.wf = true) : (r.mergeWrite wa lo n v).wf = true := by
  unfold Ram.mergeWrite
  split
  · exact Ram.wf_setWord _ _ _ h
  · dsimp only
    split
    · exact Ram.wf_setWord _ _ _ h
    · have := Ram.wf_setWord r wa (mergeBytes (r.rawWord wa) v lo n) h
      exact Ram.wf_syn _ _ this (AMap.rising_put _ _ _ (by rw [Ram.wf_iff] at this; exact this.2.2.2))

/-- A store keeps the canonical form. -/
theorem Ram.wf_writeBytes (r : Ram) (a n : Nat) (q : Quad) (h : r.wf = true) : (r.writeBytes a n q).wf = true := by
  unfold Ram.writeBytes
  generalize segments 3 a n 0 = l
  induction l generalizing r with
  | nil => exact h
  | cons e l ih => exact ih _ (Ram.wf_mergeWrite _ _ _ _ _ h)

theorem rising_filter {α : Type} (p : Nat × α → Bool) (m : AMap α) (h : AMap.rising m = true) :
    AMap.rising (m.filter p) = true := by
  induction m with
  | nil => rfl
  | cons e m ih =>
    obtain ⟨a, w⟩ := e
    rw [AMap.rising_cons, Bool.and_eq_true] at h
    have ha : AMap.above a (m.filter p) = true := by
      have h1 := h.1
      simp only [AMap.above, List.all_eq_true, decide_eq_true_eq, List.mem_filter] at h1 ⊢
      exact fun e he => h1 e he.1
    rw [List.filter_cons]
    split
    · rw [AMap.rising_cons, ha, ih h.2]; rfl
    · exact ih h.2

theorem rising_putAll {α : Type} (l : List (Nat × α)) (m : AMap α) (h : AMap.rising m = true) :
    AMap.rising (l.foldl (fun m e => AMap.put e.1 e.2 m) m) = true := by
  induction l generalizing m with
  | nil => exact h
  | cons e l ih => exact ih _ (AMap.rising_put _ _ _ h)

theorem mem_putAll {α : Type} (l : List (Nat × α)) (m : AMap α) (e : Nat × α)
    (h : e ∈ l.foldl (fun m e => AMap.put e.1 e.2 m) m) : e ∈ l ∨ e ∈ m := by
  induction l generalizing m with
  | nil => exact .inr h
  | cons f l ih =>
    rcases ih _ h with h | h
    · exact .inl (by simp [h])
    · rcases AMap.mem_put _ _ _ _ h with h | h
      · exact .inl (by simp [h])
      · exact .inr h

/-- The copy of a granule keeps the canonical form (R236). -/
theorem Ram.wf_copyGranule (x y : Ram) (g : Nat) (hx : x.wf = true) (hy : y.wf = true) : (x.copyGranule y g).wf = true := by
  rw [Ram.wf_iff] at hx hy
  obtain ⟨x1, x2, x3, x4⟩ := hx
  obtain ⟨y1, y2, y3, y4⟩ := hy
  have hm : AMap.rising (AMap.set x.marks (fun _ => x.base) g (y.bgAt (g * 0x100000))) = true := by
    unfold AMap.set
    split
    · exact AMap.rising_drop _ _ x3
    · exact AMap.rising_put _ _ _ x3
  unfold Ram.copyGranule
  dsimp only
  rw [Ram.wf_iff]
  refine ⟨rising_putAll _ _ (rising_filter _ _ x1), fun e he => ?_, hm, rising_putAll _ _ (rising_filter _ _ x4)⟩
  have hb : ∀ a, (Ram.bgAt { x with
      marks := AMap.set x.marks (fun _ => x.base) g (y.bgAt (g * 0x100000))
      cells := (y.cells.filter fun e => e.1 / 0x100000 == g).foldl (fun m e => AMap.put e.1 e.2 m)
        (x.cells.filter fun e => !(e.1 / 0x100000 == g))
      syn := (y.syn.filter fun e => e.1 / 0x20000 == g).foldl (fun m e => AMap.put e.1 e.2 m)
        (x.syn.filter fun e => !(e.1 / 0x20000 == g)) } a) =
      if a / 0x100000 = g then y.bgAt (g * 0x100000) else x.bgAt a := by
    intro a
    unfold Ram.bgAt
    rw [AMap.get_set]
  rw [hb]
  rcases mem_putAll _ _ _ he with h | h
  · simp only [List.mem_filter, beq_iff_eq] at h
    rw [if_pos h.2]
    have hg : y.bgAt (g * 0x100000) = y.bgAt e.1 := by
      unfold Ram.bgAt
      rw [← h.2, Nat.mul_div_cancel _ (by decide)]
    rw [hg]
    exact y2 e h.1
  · simp only [List.mem_filter, Bool.not_eq_true', beq_eq_false_iff_ne, ne_eq] at h
    rw [if_neg h.2]
    exact x2 e h.1

/-! A read after a write. -/

theorem Ram.setByte_bgAt (r : Ram) (a : Nat) (b : Byte) (c : Nat) : (r.setByte a b).bgAt c = r.bgAt c := by
  unfold Ram.setByte; split <;> rfl

/-- A byte just written reads as written, every other as before. -/
theorem Ram.byte_setByte (r : Ram) (a c : Nat) (b : Byte) : (r.setByte a b).byte c = if c = a then b else r.byte c := by
  have hb := Ram.setByte_bgAt r a b c
  have hf : AMap.find? (r.setByte a b).cells c = none ∧ c = a ∧ (r.bgAt a).fill = some b ∨
      AMap.find? (r.setByte a b).cells c = if c = a then some b else AMap.find? r.cells c := by
    unfold Ram.setByte
    split
    · rename_i hf
      by_cases h : c = a
      · exact .inl ⟨by simp [AMap.find?_drop, h], h, hf⟩
      · exact .inr (by simp [AMap.find?_drop, h])
    · exact .inr (AMap.find?_put _ _ _ _)
  unfold Ram.byte Ram.byte?
  rw [hb]
  rcases hf with ⟨h1, h2, h3⟩ | h1
  · rw [h1, if_pos h2, h2, h3]
  · rw [h1]
    by_cases h : c = a
    · rw [if_pos h, if_pos h]
    · rw [if_neg h, if_neg h]

theorem Ram.byte_syn (r : Ram) (l : AMap Byte) (c : Nat) : ({ r with syn := l } : Ram).byte c = r.byte c := rfl

@[simp] theorem Ram.byte_clearSyn (r : Ram) (wa c : Nat) : (r.clearSyn wa).byte c = r.byte c := rfl

/-- The bytes of a word just written, and every other byte. -/
theorem Ram.byte_setWord (r : Ram) (wa c : Nat) (v : Word) :
    (r.setWord wa v).byte c = if c / 8 = wa then byteOfWord v (c % 8) else r.byte c := by
  unfold Ram.setWord
  dsimp only
  rw [Ram.byte_clearSyn]
  simp only [Ram.byte_setByte]
  by_cases h : c / 8 = wa
  · rw [if_pos h]
    have h8 : c % 8 < 8 := Nat.mod_lt _ (by decide)
    have hc : c = 8 * wa + c % 8 := by omega
    generalize c % 8 = i at h8 hc
    subst hc
    rcases i with _ | _ | _ | _ | _ | _ | _ | _ | i <;> first | omega | simp
  · rw [if_neg h]
    repeat rw [if_neg (by omega)]

/-- Reading the bytes a word is made of. -/
theorem byteOfWord_wordOfBytes (f : Nat → Byte) (i : Nat) (h : i < 8) : byteOfWord (wordOfBytes f) i = f i := by
  unfold byteOfWord wordOfBytes
  rcases i with _ | _ | _ | _ | _ | _ | _ | _ | i
  all_goals first | omega | skip
  all_goals
    apply BitVec.eq_of_getLsbD_eq
    intro j hj
    simp only [BitVec.truncate_eq_setWidth, BitVec.getLsbD_setWidth, BitVec.getLsbD_ushiftRight, BitVec.getLsbD_append, hj,
      decide_true, Bool.true_and]
    repeat' split
    all_goals first | omega | (congr 1; omega)

/-- The bytes of a merged word (R220). -/
theorem byteOfWord_mergeBytes (old v : Word) (lo n i : Nat) (hi : i < 8) (hn : lo + n ≤ 8) :
    byteOfWord (mergeBytes old v lo n) i = if lo ≤ i ∧ i < lo + n then byteOfWord v (i - lo) else byteOfWord old i := by
  apply BitVec.eq_of_getLsbD_eq
  intro j hj
  have hm : (BitVec.ofNat 64 ((2 ^ (8 * n) - 1) * 2 ^ (8 * lo))).getLsbD (8 * i + j) = decide (lo ≤ i ∧ i < lo + n) := by
    simp only [BitVec.getLsbD_ofNat, Nat.testBit_mul_two_pow, Nat.testBit_two_pow_sub_one]
    rw [Bool.eq_iff_iff]
    simp only [Bool.and_eq_true, decide_eq_true_eq]
    omega
  have e : (byteOfWord (mergeBytes old v lo n) i).getLsbD j =
      ((old.getLsbD (8 * i + j) && !decide (lo ≤ i ∧ i < lo + n)) ||
        ((v <<< (8 * lo)).getLsbD (8 * i + j) && decide (lo ≤ i ∧ i < lo + n))) := by
    have h64 : 8 * i + j < 64 := by omega
    simp only [byteOfWord, mergeBytes, BitVec.truncate_eq_setWidth, BitVec.getLsbD_setWidth, BitVec.getLsbD_ushiftRight, hj,
      decide_true, Bool.true_and, BitVec.getLsbD_or, BitVec.getLsbD_and, BitVec.getLsbD_not, hm, h64]
  rw [e]
  by_cases h : lo ≤ i ∧ i < lo + n
  · rw [if_pos h]
    have h64 : 8 * i + j < 64 := by omega
    have hlt : ¬ 8 * i + j < 8 * lo := by omega
    simp only [h, and_self, decide_true, Bool.not_true, Bool.and_false, Bool.false_or, Bool.and_true, BitVec.getLsbD_shiftLeft,
      h64, hlt, decide_false, Bool.not_false, Bool.true_and, byteOfWord, BitVec.truncate_eq_setWidth, BitVec.getLsbD_setWidth,
      BitVec.getLsbD_ushiftRight, hj]
    congr 1
    omega
  · rw [if_neg h]
    simp [h, byteOfWord, hj]

/-- The bytes of a memory after a write of part of one word. -/
theorem Ram.byte_mergeWrite (r : Ram) (wa lo n c : Nat) (v : Word) (hn : lo + n ≤ 8) :
    (r.mergeWrite wa lo n v).byte c =
      if 8 * wa + lo ≤ c ∧ c < 8 * wa + lo + n then byteOfWord v (c - (8 * wa + lo)) else r.byte c := by
  have h8 : c % 8 < 8 := Nat.mod_lt _ (by decide)
  have hc : c = 8 * (c / 8) + c % 8 := by omega
  have key : ∀ w : Word, (∀ i, i < 8 → byteOfWord w i = if lo ≤ i ∧ i < lo + n then byteOfWord v (i - lo) else
      r.byte (8 * wa + i)) → (r.setWord wa w).byte c =
      if 8 * wa + lo ≤ c ∧ c < 8 * wa + lo + n then byteOfWord v (c - (8 * wa + lo)) else r.byte c := by
    intro w hw
    rw [Ram.byte_setWord]
    by_cases h : c / 8 = wa
    · rw [if_pos h, hw _ h8]
      by_cases hl : lo ≤ c % 8 ∧ c % 8 < lo + n
      · rw [if_pos hl, if_pos (by omega)]
        congr 1
        omega
      · rw [if_neg hl, if_neg (by omega), show 8 * wa + c % 8 = c by omega]
    · rw [if_neg h, if_neg (by omega)]
  unfold Ram.mergeWrite
  split
  · rename_i h8'
    apply key
    intro i hi
    rw [if_pos (by omega), show i - lo = i by omega]
  · have hk := key (mergeBytes (r.rawWord wa) v lo n) (by
      intro i hi
      rw [byteOfWord_mergeBytes _ _ _ _ _ hi hn]
      split
      · rfl
      · unfold Ram.rawWord; rw [byteOfWord_wordOfBytes _ _ hi])
    dsimp only
    split
    · exact hk
    · rw [Ram.byte_syn]; exact hk

theorem byteOfWord_quadWord (q : Quad) (k i : Nat) (hi : i < 8) : byteOfWord (quadWord q k) i = quadByte q (k + i) := by
  apply BitVec.eq_of_getLsbD_eq
  intro j hj
  have h64 : 8 * i + j < 64 := by omega
  simp only [byteOfWord, quadWord, quadByte, BitVec.truncate_eq_setWidth, BitVec.getLsbD_setWidth, BitVec.getLsbD_ushiftRight, hj,
    decide_true, Bool.true_and, h64]
  congr 1
  omega

/-- A store writes its bytes, and every other byte stands (R220, R223). -/
theorem Ram.byte_writeSegs (r : Ram) (fuel a n k c : Nat) (q : Quad) (hf : n ≤ 8 * fuel - a % 8 ∨ n = 0) :
    ((segments fuel a n k).foldl (fun r e => r.mergeWrite e.1 e.2.1 e.2.2.1 (quadWord q e.2.2.2)) r).byte c =
      if a ≤ c ∧ c < a + n then quadByte q (k + (c - a)) else r.byte c := by
  induction fuel generalizing r a n k with
  | zero =>
    have : n = 0 := by omega
    subst this
    simp only [segments, List.foldl_nil]
    rw [if_neg (by omega)]
  | succ fuel ih =>
    unfold segments
    by_cases hn : n = 0
    · subst hn
      simp only [if_true, List.foldl_nil]
      rw [if_neg (by omega)]
    · rw [if_neg hn]
      dsimp only
      rw [List.foldl_cons, ih _ _ _ _ (by omega)]
      have h8 : a % 8 < 8 := Nat.mod_lt _ (by decide)
      rw [Ram.byte_mergeWrite _ _ _ _ _ _ (show a % 8 + min n (8 - a % 8) ≤ 8 by omega)]
      generalize hcnt : min n (8 - a % 8) = cnt at *
      have ha : 8 * (a / 8) + a % 8 = a := by omega
      rw [ha]
      by_cases h1 : a + cnt ≤ c ∧ c < a + cnt + (n - cnt)
      · rw [if_pos h1, if_pos (by omega)]
        congr 1
        omega
      · rw [if_neg h1]
        by_cases h2 : a ≤ c ∧ c < a + cnt
        · rw [if_pos h2, if_pos (by omega), byteOfWord_quadWord _ _ _ (by omega)]
        · rw [if_neg h2, if_neg (by omega)]

/-- A store of at most 16 bytes writes its bytes, and every other byte stands. -/
theorem Ram.byte_writeBytes (r : Ram) (a n c : Nat) (q : Quad) (h : n ≤ 16) :
    (r.writeBytes a n q).byte c = if a ≤ c ∧ c < a + n then quadByte q (c - a) else r.byte c := by
  unfold Ram.writeBytes
  rw [Ram.byte_writeSegs r 3 a n 0 c q (by omega)]
  simp

end Sys2Proof.Machine
end

