-- ==== Sys2Proof/Laws/Tcm.lean ====
section
/-! SUPPORT. What a read and a store of a copy's own TCM do to the device (R51, R61, R223, R288). -/

namespace Sys2Proof.Machine

/-- The use of an armed ECC injection changes PGINJ of its page and the count of its checks alone (R288). -/
theorem State.injEccUse_keeps {α : Type} (f : State → α) (page : Nat)
    (hr : ∀ (s : State) (v : Word), f (s.setReg page 0x28 v) = f s) (hi : ∀ (s : State) (m : AMap Nat), f { s with injMade := m } = f s)
    (s : State) (i : Inject) (n : Nat) : f (s.injEccUse page i n) = f s := by
  unfold State.injEccUse State.injUse
  dsimp only
  split
  · rfl
  · split
    · exact hi _ _
    · rw [hi, hr]

/-- What a corrected word does (R223): a write-back owed, TCMERR, an event. -/
theorem State.tcmFixed_keeps {α : Type} (f : State → α) (t c : Nat)
    (hc : ∀ (s : State) l, f (s.setCopy (3 * t + c) { s.copy (3 * t + c) with writeBack := l }) = f s)
    (hr : ∀ (s : State) (v : Word), f (s.setReg (pgCore (3 * t + c)) 0x148 v) = f s)
    (hf : ∀ (s : State) (c : Fcol), f { s with fcol := c } = f s) (s : State) (wa : Nat) (inj : Bool) :
    f (s.tcmFixed t c wa inj) = f s := by
  unfold State.tcmFixed
  dsimp only
  unfold State.reportInj
  rw [State.reportEv_keeps f hf, hr]
  have hcs : ∀ s' : State, f (s'.countSat (pgCore (3 * t + c)) 0x148 47 32) = f s' := by
    intro s'
    unfold State.countSat
    dsimp only
    split
    · exact hr _ _
    · rfl
  rw [hcs, hc]

/-- A core-port read that gives data leaves everything but what corrections and an injection touch. -/
theorem State.tcmRead_keeps {α : Type} (f : State → α) (t c : Nat)
    (hc : ∀ (s : State) l, f (s.setCopy (3 * t + c) { s.copy (3 * t + c) with writeBack := l }) = f s)
    (hr : ∀ (s : State) (v : Word), f (s.setReg (pgCore (3 * t + c)) 0x148 v) = f s)
    (hp : ∀ (s : State) (v : Word), f (s.setReg (pgTriad t) 0x28 v) = f s)
    (hf : ∀ (s : State) (c : Fcol), f { s with fcol := c } = f s)
    (hi : ∀ (s : State) (m : AMap Nat), f { s with injMade := m } = f s) (s s' : State) (a n : Nat) (q : Quad)
    (h : s.tcmRead t c a n = (s', some q)) : f s' = f s := by
  unfold State.tcmRead at h
  dsimp only at h
  split at h
  · simp only [Prod.mk.injEq] at h
    rw [← h.1]
    refine foldl_keeps (fun u => f u = f s) _ _ (fun u wa _ hu => ?_) _ ?_
    · rw [State.tcmFixed_keeps f t c hc hr hf, hu]
    · exact State.injEccUse_keeps f _ hp hi _ _ _
  · simp at h

/-- The reading copy after a read that gives data: write-backs alone may be owed. -/
theorem State.tcmRead_copy (s s' : State) (t c a n : Nat) (q : Quad) (h : s.tcmRead t c a n = (s', some q)) :
    ∃ l, s'.copy (3 * t + c) = { s.copy (3 * t + c) with writeBack := l } := by
  have key := State.tcmRead_keeps (fun u => ({ u.copy (3 * t + c) with writeBack := [] } : Copy)) t c
    (fun s l => by simp) (fun _ _ => rfl) (fun _ _ => rfl) (fun _ _ => rfl) (fun _ _ => rfl) s s' a n q h
  refine ⟨(s'.copy (3 * t + c)).writeBack, ?_⟩
  have e := congrArg (fun d : Copy => ({ d with writeBack := (s'.copy (3 * t + c)).writeBack } : Copy)) key
  exact e

/-- Every other copy after it. -/
theorem State.tcmRead_other (s s' : State) (t c a n j : Nat) (q : Quad) (h : s.tcmRead t c a n = (s', some q))
    (hj : j ≠ 3 * t + c) : s'.copy j = s.copy j :=
  State.tcmRead_keeps (fun u => u.copy j) t c (fun s l => by simp [State.copy_setCopy, hj]) (fun _ _ => rfl) (fun _ _ => rfl)
    (fun _ _ => rfl) (fun _ _ => rfl) s s' a n q h

end Sys2Proof.Machine
end

