-- ==== Sys2Proof/Laws/Fetch.lean ====
section
/-! SUPPORT. What the fetch of the next group does to the device (R83, R223): the window, corrected words, their counts. -/

namespace Sys2Proof.Machine

/-- A fetch read of one line leaves everything but what corrections and an injection touch. -/
theorem State.fetchLine_keeps {α : Type} (f : State → α) (t c : Nat)
    (hc : ∀ (s : State) l, f (s.setCopy (3 * t + c) { s.copy (3 * t + c) with writeBack := l }) = f s)
    (hr : ∀ (s : State) (v : Word), f (s.setReg (pgCore (3 * t + c)) 0x148 v) = f s)
    (hp : ∀ (s : State) (v : Word), f (s.setReg (pgTriad t) 0x28 v) = f s)
    (hf : ∀ (s : State) (c : Fcol), f { s with fcol := c } = f s)
    (hi : ∀ (s : State) (m : AMap Nat), f { s with injMade := m } = f s) (s : State) (a : Nat)
    (h : (s.fetchLine t c a).2 = true) : f (s.fetchLine t c a).1 = f s := by
  unfold State.fetchLine at h ⊢
  split
  · rfl
  · rename_i ha
    simp only [if_neg ha] at h
    cases hr' : s.tcmRead t c a 16 with
    | mk s' o =>
      rw [hr'] at h
      cases o with
      | none => cases h
      | some q => exact State.tcmRead_keeps f t c hc hr hp hf hi s s' a 16 q hr'

/-- The window's move leaves everything but the window, what corrections and an injection touch, and CNTFETCH. -/
theorem State.fetchWindow_keeps {α : Type} (f : State → α) (t c : Nat)
    (hc : ∀ (s : State) l, f (s.setCopy (3 * t + c) { s.copy (3 * t + c) with writeBack := l }) = f s)
    (hw : ∀ (s : State) w, f (s.setCopy (3 * t + c) { s.copy (3 * t + c) with win := w }) = f s)
    (hr : ∀ (s : State) (v : Word), f (s.setReg (pgCore (3 * t + c)) 0x148 v) = f s)
    (hn : ∀ (s : State) (v : Word), f (s.setReg (pgCore (3 * t + c)) 0x130 v) = f s)
    (hp : ∀ (s : State) (v : Word), f (s.setReg (pgTriad t) 0x28 v) = f s)
    (hf : ∀ (s : State) (c : Fcol), f { s with fcol := c } = f s)
    (hi : ∀ (s : State) (m : AMap Nat), f { s with injMade := m } = f s) (s : State) (a : Nat)
    (h : (s.fetchWindow t c a).2 = true) : f (s.fetchWindow t c a).1 = f s := by
  have line := State.fetchLine_keeps f t c hc hr hp hf hi
  unfold State.fetchWindow at h ⊢
  dsimp only at h ⊢
  split
  · rfl
  · rename_i hne
    simp only [if_neg hne] at h
    -- the first line, or none where the window slides
    have first : ∀ b : Bool, (if b = true then (s, true) else (s.count (pgCore (3 * t + c)) 0x130).fetchLine t c (a / 16 * 16)).2 =
        true → f (if b = true then (s, true) else (s.count (pgCore (3 * t + c)) 0x130).fetchLine t c (a / 16 * 16)).1 = f s := by
      intro b hb
      cases b with
      | true => rfl
      | false => exact (line _ _ hb).trans (hn s _)
    generalize hX : (if decide (Option.map (fun w => w + 16) (s.copy (3 * t + c)).win = some (a / 16 * 16)) = true then (s, true)
      else (s.count (pgCore (3 * t + c)) 0x130).fetchLine t c (a / 16 * 16)) = X at h ⊢
    cases hx : X.2 with
    | false => rw [hx] at h; simp [hx] at h
    | true =>
      have h1 : f X.1 = f s := by rw [← hX]; exact first _ (by rw [hX]; exact hx)
      rw [hx] at h
      simp only [Bool.true_eq_false, if_false] at h ⊢
      cases hy : (X.1.fetchLine t c (a / 16 * 16 + 16)).2 with
      | false => rw [hy] at h; simp [hy] at h
      | true =>
        simp only [if_true]
        rw [hw, line _ _ hy, h1]

theorem State.fetchFor_keeps {α : Type} (f : State → α) (x : Ctx)
    (hc : ∀ (s : State) l, f (s.setCopy x.key { s.copy x.key with writeBack := l }) = f s)
    (hw : ∀ (s : State) w, f (s.setCopy x.key { s.copy x.key with win := w }) = f s)
    (hr : ∀ (s : State) (v : Word), f (s.setReg (pgCore x.key) 0x148 v) = f s)
    (hn : ∀ (s : State) (v : Word), f (s.setReg (pgCore x.key) 0x130 v) = f s)
    (hp : ∀ (s : State) (v : Word), f (s.setReg (pgTriad x.t) 0x28 v) = f s)
    (hf : ∀ (s : State) (c : Fcol), f { s with fcol := c } = f s)
    (hi : ∀ (s : State) (m : AMap Nat), f { s with injMade := m } = f s) (s : State) (i : Fla) (rep : Option RepKind)
    (h : (s.fetchFor x i rep).2 = true) : f (s.fetched x i rep) = f s := by
  unfold State.fetched
  unfold State.fetchFor at h ⊢
  dsimp only at h ⊢
  split
  · rfl
  · rename_i hne
    rw [if_neg hne] at h
    exact State.fetchWindow_keeps f x.t x.c hc hw hr hn hp hf hi s _ h

/-- The fetching copy: its window and the write-backs owed alone may differ. -/
theorem State.fetched_copy (s : State) (x : Ctx) (i : Fla) (rep : Option RepKind) (h : (s.fetchFor x i rep).2 = true) :
    ∃ w l, (s.fetched x i rep).copy x.key = { s.copy x.key with win := w, writeBack := l } := by
  have key := State.fetchFor_keeps (fun u => ({ u.copy x.key with win := none, writeBack := [] } : Copy)) x
    (fun s l => by simp) (fun s l => by simp) (fun _ _ => rfl) (fun _ _ => rfl) (fun _ _ => rfl) (fun _ _ => rfl) (fun _ _ => rfl)
    s i rep h
  refine ⟨((s.fetched x i rep).copy x.key).win, ((s.fetched x i rep).copy x.key).writeBack, ?_⟩
  have e := congrArg (fun d : Copy => ({ d with
    win := ((s.fetched x i rep).copy x.key).win, writeBack := ((s.fetched x i rep).copy x.key).writeBack } : Copy)) key
  exact e

/-- The fetch leaves the rest of the device. -/
theorem State.fetched_keepsRest (s : State) (x : Ctx) (i : Fla) (rep : Option RepKind) (hc : x.c < 3)
    (h : (s.fetchFor x i rep).2 = true) : s.keepsRest (s.fetched x i rep) x := by
  obtain ⟨w, l, hk⟩ := State.fetched_copy s x i rep h
  have simple : ∀ {α : Type} (f : State → α) (_ : ∀ (s : State) (k : Nat) (c : Copy), f (s.setCopy k c) = f s)
      (_ : ∀ (s : State) (p o : Nat) (v : Word), f (s.setReg p o v) = f s) (_ : ∀ (s : State) (c : Fcol), f { s with fcol := c } = f s)
      (_ : ∀ (s : State) (m : AMap Nat), f { s with injMade := m } = f s), f (s.fetched x i rep) = f s :=
    fun f h1 h2 h3 h4 => State.fetchFor_keeps f x (fun _ _ => h1 _ _ _) (fun _ _ => h1 _ _ _) (fun _ _ => h2 _ _ _ _)
      (fun _ _ => h2 _ _ _ _) (fun _ _ => h2 _ _ _ _) h3 h4 s i rep h
  refine ⟨fun n _ => by rw [hk]; rfl, by rw [hk], fun j hj => ?_, fun page off ho hp => ?_, ?_, ?_, ?_, ?_⟩
  · have hne : j ≠ x.key := by unfold Ctx.key; omega
    exact State.fetchFor_keeps (fun u => u.copy j) x (fun s l => by simp [State.copy_setCopy, hne])
      (fun s l => by simp [State.copy_setCopy, hne]) (fun _ _ => rfl) (fun _ _ => rfl) (fun _ _ => rfl) (fun _ _ => rfl)
      (fun _ _ => rfl) s i rep h
  · have ne : ∀ q o, o < 0x1000 → (q, o) ∈ touchedBy x → regKey page off ≠ regKey q o := by
      intro q o ho' hm e
      have := regKey_inj ho ho' e
      exact hp (by rw [this.1, this.2]; exact hm)
    exact State.fetchFor_keeps (fun v => v.reg page off) x (fun _ _ => rfl) (fun _ _ => rfl)
      (fun s v => State.reg_setReg_ne _ _ _ _ _ _ (ne _ _ (by decide) (by simp [touchedBy])))
      (fun s v => State.reg_setReg_ne _ _ _ _ _ _ (ne _ _ (by decide) (by simp [touchedBy])))
      (fun s v => State.reg_setReg_ne _ _ _ _ _ _ (ne _ _ (by decide) (by simp [touchedBy]))) (fun _ _ => rfl) (fun _ _ => rfl)
      s i rep h
  · exact simple (fun v => v.pending) (fun _ _ _ => rfl) (fun _ _ _ _ => rfl) (fun _ _ => rfl) (fun _ _ => rfl)
  · exact simple (fun v => v.engines) (fun _ _ _ => rfl) (fun _ _ _ _ => rfl) (fun _ _ => rfl) (fun _ _ => rfl)
  · exact simple (fun v => v.links) (fun _ _ _ => rfl) (fun _ _ _ _ => rfl) (fun _ _ => rfl) (fun _ _ => rfl)
  · exact simple (fun v => v.timeB) (fun _ _ _ => rfl) (fun _ _ _ _ => rfl) (fun _ _ => rfl) (fun _ _ => rfl)

/-- ... and every byte of every memory. -/
theorem State.fetched_byteAt (s : State) (x : Ctx) (i : Fla) (rep : Option RepKind) (h : (s.fetchFor x i rep).2 = true) (p : Place)
    (b : Nat) : (s.fetched x i rep).byteAt p b = s.byteAt p b := by
  cases p with
  | tcm k =>
    simp only [State.byteAt]
    by_cases hk : k = x.key
    · obtain ⟨w, l, hl⟩ := State.fetched_copy s x i rep h
      rw [hk, hl]
    · exact congrArg (fun c : Copy => c.tcm.byte b) (State.fetchFor_keeps (fun u => u.copy k) x
        (fun s l => by simp [State.copy_setCopy, hk]) (fun s l => by simp [State.copy_setCopy, hk]) (fun _ _ => rfl) (fun _ _ => rfl)
        (fun _ _ => rfl) (fun _ _ => rfl) (fun _ _ => rfl) s i rep h)
  | sram k =>
    exact congrArg (·.byte b) (State.fetchFor_keeps (fun v => v.sramOf k) x (fun _ _ => rfl) (fun _ _ => rfl) (fun _ _ => rfl)
      (fun _ _ => rfl) (fun _ _ => rfl) (fun _ _ => rfl) (fun _ _ => rfl) s i rep h)
  | ddr k =>
    exact congrArg (·.byte b) (State.fetchFor_keeps (fun v => v.ddrOf k) x (fun _ _ => rfl) (fun _ _ => rfl) (fun _ _ => rfl)
      (fun _ _ => rfl) (fun _ _ => rfl) (fun _ _ => rfl) (fun _ _ => rfl) s i rep h)

/-- TPWR of a triad of the device lies in its page (R353). -/
theorem State.tpwr_lt (s : State) (t : Nat) (h : t < s.nTriads) : tpwr t < 0x1000 := by
  have : s.dies ≤ 2 := by
    unfold State.dies Variant.dies
    split <;> omega
  unfold State.nTriads at h
  unfold tpwr
  omega

/-- A copy that was free to take a group is so behind the fetch. -/
theorem State.fetched_headFree (s : State) (x : Ctx) (i : Fla) (rep : Option RepKind) (h : (s.fetchFor x i rep).2 = true)
    (hh : s.headFree x = true) : (s.fetched x i rep).headFree x = true := by
  obtain ⟨hn, hc, hs, hd⟩ := State.headFree_spec s x hh
  obtain ⟨w, l, hk⟩ := State.fetched_copy s x i rep h
  have hdies : (s.fetched x i rep).dies = s.dies := State.fetchFor_keeps (fun v => v.dies) x (fun _ _ => rfl) (fun _ _ => rfl)
    (fun _ _ => rfl) (fun _ _ => rfl) (fun _ _ => rfl) (fun _ _ => rfl) (fun _ _ => rfl) s i rep h
  have ht : (s.fetched x i rep).triad x.t = s.triad x.t := State.fetchFor_keeps (fun v => v.triad x.t) x (fun _ _ => rfl)
    (fun _ _ => rfl) (fun _ _ => rfl) (fun _ _ => rfl) (fun _ _ => rfl) (fun _ _ => rfl) (fun _ _ => rfl) s i rep h
  have ho := State.tpwr_lt s x.t hn
  have ne : ∀ q o, o < 0x1000 → pgPwr ≠ q → regKey pgPwr (tpwr x.t) ≠ regKey q o :=
    fun q o ho' hq e => hq (regKey_inj ho ho' e).1
  have hp : (s.fetched x i rep).reg pgPwr (tpwr x.t) = s.reg pgPwr (tpwr x.t) :=
    State.fetchFor_keeps (fun v => v.reg pgPwr (tpwr x.t)) x (fun _ _ => rfl) (fun _ _ => rfl)
      (fun s v => State.reg_setReg_ne _ _ _ _ _ _ (ne _ _ (by decide) (by unfold pgPwr pgCore; omega)))
      (fun s v => State.reg_setReg_ne _ _ _ _ _ _ (ne _ _ (by decide) (by unfold pgPwr pgCore; omega)))
      (fun s v => State.reg_setReg_ne _ _ _ _ _ _ (ne _ _ (by decide) (by unfold pgPwr pgTriad; omega))) (fun _ _ => rfl)
      (fun _ _ => rfl) s i rep h
  unfold State.headFree at hh ⊢
  unfold State.sleepHeld State.powerState State.fld at hh ⊢
  unfold State.nTriads at hh ⊢
  rw [hk, hdies, ht, hp]
  exact hh

end Sys2Proof.Machine
end

