-- ==== Sys2Proof/Laws/Retire.lean ====
section
/-! SUPPORT. What a group whose effect writes no control register and has no special action leaves in its copy (R39, R48, R80),
as the next group and in slot B (R86). -/

namespace Sys2Proof.Machine

/-- The effect of a group that writes registers and predicates and may branch, and nothing else. -/
def Eff.plain (e : Eff) : Bool := e.crw.isNone && decide (e.special = .none)

/-- An arithmetic exception made pending changes that field alone (R174). -/
theorem Copy.raiseArith_keeps {α : Type} (f : Copy → α) (h : ∀ (c : Copy) p, f { c with pend := p } = f c) (c : Copy) (k : Nat)
    (a : Word) (x : Bool) (z : ArithCause) : f (c.raiseArith k a x z) = f c := by
  unfold Copy.raiseArith
  split
  · rfl
  · split <;> exact h _ _

/-- A register write changes the registers alone, and the shadow of an MTC to the stack pointer's bank (R89). -/
theorem Copy.setSp_keeps {α : Type} (f : Copy → α) (hg : ∀ (c : Copy) g, f { c with g := g } = f c)
    (hs : ∀ (c : Copy) l, f { c with shadow := l } = f c) (c : Copy) (v : Word) : f (c.setSp v) = f c :=
  (hs (c.setG (spBank c.level) v) _).trans (hg c _)

theorem Copy.wr_keeps {α : Type} (f : Copy → α) (hg : ∀ (c : Copy) g, f { c with g := g } = f c)
    (hs : ∀ (c : Copy) l, f { c with shadow := l } = f c) (c : Copy) (r : Reg) (v : Word) : f (c.wr r v) = f c := by
  unfold Copy.wr
  split
  · exact Copy.setSp_keeps f hg hs c v
  · exact hg c _

theorem Copy.wr_preds (c : Copy) (r : Reg) (v : Word) : (c.wr r v).preds = c.preds :=
  Copy.wr_keeps (·.preds) (fun _ _ => rfl) (fun _ _ => rfl) c r v

/-- The register writes of a group change the registers, the predicates and that shadow alone. -/
theorem Copy.writes_keeps {α : Type} (f : Copy → α) (hg : ∀ (c : Copy) g, f { c with g := g } = f c)
    (hp : ∀ (c : Copy) p, f { c with preds := p } = f c) (hs : ∀ (c : Copy) l, f { c with shadow := l } = f c) (c : Copy)
    (e : Eff) : f (c.writes e) = f c := by
  unfold Copy.writes
  dsimp only
  rw [show ∀ (d : Copy) m v, f (d.setPreds m v) = f d from fun d m v => hp _ _]
  split <;> split <;> split <;> simp only [Copy.wr_keeps f hg hs, Copy.setSp_keeps f hg hs]

/-- The copy after an instruction that joins slot B, by what reads it: whatever neither the registers, the predicates, the shadow,
the MPU generation nor the fields that it sets show stays. -/
theorem Copy.joinB_keeps {α : Type} (f : Copy → α) (hg : ∀ (c : Copy) g, f { c with g := g } = f c)
    (hp : ∀ (c : Copy) p, f { c with preds := p } = f c) (hs : ∀ (c : Copy) l, f { c with shadow := l } = f c)
    (hc : ∀ (c : Copy) v n, f { c.setCr 0x71 v with ovl := n } = f c) (ha : ∀ (c : Copy) p, f { c with pend := p } = f c)
    (hr : ∀ (c : Copy) s p ti, f { c with slotA := s, pc := p, tints := ti } = f c)
    (c : Copy) (next addr : Word) (e : Eff) : f (c.joinB next addr e) = f c := by
  have hr' : ∀ (d : Copy) (ti : List TintRec), f { d with tints := ti } = f d := fun d ti => hr d d.slotA d.pc ti
  unfold Copy.joinB
  simp only [hr', Copy.raiseArith_keeps f ha]
  rw [show ∀ (d : Copy) s p, f { d with slotA := s, pc := p } = f d from fun d s p => hr d s p d.tints,
    Copy.tickShadow_keeps f hs hc]
  exact Copy.writes_keeps f hg hp hs c e

/-- The effect of a group that writes no control register and is no RETE. -/
def Eff.soft (e : Eff) : Bool :=
  e.crw.isNone && match e.special with | .rete _ _ _ => false | _ => true

theorem Eff.plain_soft (e : Eff) (h : e.plain = true) : e.soft = true := by
  simp only [Eff.plain, Bool.and_eq_true, decide_eq_true_eq] at h
  simp [Eff.soft, h.1, h.2]

/-- The special action of a soft effect changes the window, the shadows, the local flag and the reservation alone. -/
theorem Copy.special_keeps {α : Type} (f : Copy → α) (hs : ∀ (c : Copy) l, f { c with shadow := l } = f c)
    (hw : ∀ (c : Copy) w q, f { c with win := w, queue := q } = f c)
    (hc : ∀ (c : Copy) v n, f { c.setCr 0x71 v with ovl := n } = f c) (hh : ∀ (c : Copy) r, f { c with holdRem := r } = f c)
    (hl : ∀ (c : Copy) l r, f { c with localFlag := l, resv := r } = f c) (c : Copy) (held : Nat) (e : Eff) (he : e.soft = true) :
    f (c.special held e.special) = f c := by
  simp only [Eff.soft, Bool.and_eq_true] at he
  cases h : e.special with
  | none => rfl
  | hold m => exact hh _ _
  | msync => exact (hw _ _ _).trans (Copy.endShadows_keeps f hs hc _ _)
  | reserve g => exact hl _ _ _
  | clrRes => exact hl _ _ _
  | wait => exact hh _ _
  | rete a b d => rw [h] at he; simp at he

/-- The register part of a group's end: the writes, and the count of a repeated instruction (R140). -/
def Copy.wrote (c : Copy) (g : GroupEnd) (e : Eff) : Copy :=
  if g.element then (c.writes e).setG 1 ((c.writes e).gAt 1 - 1) else c.writes e

/-- The copy after a soft group, by what reads it: whatever none of the fields that retirement sets shows stays as the
register writes left it. -/
theorem Copy.retire_soft {α : Type} (f : Copy → α) (hs : ∀ (c : Copy) l, f { c with shadow := l } = f c)
    (hw : ∀ (c : Copy) w q, f { c with win := w, queue := q } = f c)
    (hc : ∀ (c : Copy) v n, f { c.setCr 0x71 v with ovl := n } = f c) (hh : ∀ (c : Copy) r, f { c with holdRem := r } = f c)
    (hl : ∀ (c : Copy) l r, f { c with localFlag := l, resv := r } = f c) (ha : ∀ (c : Copy) p, f { c with pend := p } = f c)
    (hr : ∀ (c : Copy) k t a h r u s x p, f { c with
      retcnt := k, lastRetire := t, afterEntry := a, hold := h, holdRem := r, repu := u, slotA := s, xStall := x, pc := p } = f c)
    (ht : ∀ (c : Copy) ti, f { c with tints := ti } = f c)
    (c : Copy) (now : Nat) (g : GroupEnd) (e : Eff) (he : e.soft = true) : f (c.retire now g e) = f (c.wrote g e) := by
  have hn : e.crw = none := by
    simp only [Eff.soft, Bool.and_eq_true, Option.isNone_iff_eq_none] at he
    exact he.1
  unfold Copy.retire
  simp only [hn, ht, Copy.raiseArith_keeps f ha, Copy.special_keeps f hs hw hc hh hl _ _ e he]
  rw [hr, Copy.tickShadow_keeps f hs hc]
  rfl

/-- The registers after a soft group. -/
theorem Copy.retire_gAt (c : Copy) (now : Nat) (g : GroupEnd) (e : Eff) (he : e.soft = true) (n : Nat) :
    (c.retire now g e).gAt n = (c.wrote g e).gAt n :=
  Copy.retire_soft (·.gAt n) (fun _ _ => rfl) (fun _ _ _ => rfl) (fun _ _ _ => rfl) (fun _ _ => rfl) (fun _ _ _ => rfl)
    (fun _ _ => rfl) (fun _ _ _ _ _ _ _ _ _ _ => rfl) (fun _ _ => rfl) c now g e he

theorem Copy.joinB_gAt (c : Copy) (next addr : Word) (e : Eff) (n : Nat) :
    (c.joinB next addr e).gAt n = (c.writes e).gAt n := by
  unfold Copy.joinB Copy.gAt
  simp [Copy.raiseArith_keeps (·.g) (fun _ _ => rfl)]

/-- The predicates after a soft group. -/
theorem Copy.retire_preds (c : Copy) (now : Nat) (g : GroupEnd) (e : Eff) (he : e.soft = true) :
    (c.retire now g e).preds = (c.writes e).preds := by
  rw [Copy.retire_soft (·.preds) (fun _ _ => rfl) (fun _ _ _ => rfl) (fun _ _ _ => rfl) (fun _ _ => rfl) (fun _ _ _ => rfl)
    (fun _ _ => rfl) (fun _ _ _ _ _ _ _ _ _ _ => rfl) (fun _ _ => rfl) c now g e he]
  unfold Copy.wrote
  split <;> rfl

theorem Copy.joinB_preds (c : Copy) (next addr : Word) (e : Eff) : (c.joinB next addr e).preds = (c.writes e).preds := by
  unfold Copy.joinB
  simp [Copy.raiseArith_keeps (·.preds) (fun _ _ => rfl)]

/-- The pc after a soft group. -/
theorem Copy.retire_pc (c : Copy) (now : Nat) (g : GroupEnd) (e : Eff) (he : e.soft = true) :
    (c.retire now g e).pc = if g.more then g.addr else e.target.getD g.next := by
  have hn : e.crw = none := by
    simp only [Eff.soft, Bool.and_eq_true, Option.isNone_iff_eq_none] at he
    exact he.1
  unfold Copy.retire
  simp only [hn, Copy.raiseArith_keeps (·.pc) (fun _ _ => rfl),
    Copy.special_keeps (·.pc) (fun _ _ => rfl) (fun _ _ _ => rfl) (fun _ _ _ => rfl) (fun _ _ => rfl) (fun _ _ _ => rfl) _ _ e he]

theorem Copy.joinB_pc (c : Copy) (next addr : Word) (e : Eff) : (c.joinB next addr e).pc = e.target.getD next := by
  unfold Copy.joinB
  simp [Copy.raiseArith_keeps (·.pc) (fun _ _ => rfl)]

/-- RETCNT counts the group once, and an instruction of slot B not at all (R39, R86). -/
theorem Copy.retire_retcnt (c : Copy) (now : Nat) (g : GroupEnd) (e : Eff) (he : e.soft = true) :
    (c.retire now g e).retcnt = c.retcnt + 1 := by
  have hn : e.crw = none := by
    simp only [Eff.soft, Bool.and_eq_true, Option.isNone_iff_eq_none] at he
    exact he.1
  unfold Copy.retire
  simp only [hn, Copy.raiseArith_keeps (·.retcnt) (fun _ _ => rfl),
    Copy.special_keeps (·.retcnt) (fun _ _ => rfl) (fun _ _ _ => rfl) (fun _ _ _ => rfl) (fun _ _ => rfl) (fun _ _ _ => rfl) _ _ e he]

theorem Copy.joinB_retcnt (c : Copy) (next addr : Word) (e : Eff) : (c.joinB next addr e).retcnt = c.retcnt :=
  Copy.joinB_keeps (·.retcnt) (fun _ _ => rfl) (fun _ _ => rfl) (fun _ _ => rfl) (fun _ _ _ => rfl) (fun _ _ => rfl)
    (fun _ _ _ _ => rfl) c next addr e

/-- The pending arithmetic exception behind a group (R174, R175). -/
theorem Copy.raiseArith_pend (c : Copy) (k : Nat) (a : Word) (x : Bool) (z : ArithCause) :
    (c.raiseArith k a x z).pend = pendAfter c.pend k a x z := by
  unfold Copy.raiseArith pendAfter
  cases z with
  | none => rfl
  | some code => cases h : c.pend <;> rfl

theorem Copy.writes_pend (c : Copy) (e : Eff) : (c.writes e).pend = c.pend :=
  Copy.writes_keeps (·.pend) (fun _ _ => rfl) (fun _ _ => rfl) (fun _ _ => rfl) c e

theorem Copy.retire_pend (c : Copy) (now : Nat) (g : GroupEnd) (e : Eff) (he : e.soft = true) :
    (c.retire now g e).pend = pendAfter c.pend c.retcnt g.addr c.precise e.arith := by
  have hn : e.crw = none := by
    simp only [Eff.soft, Bool.and_eq_true, Option.isNone_iff_eq_none] at he
    exact he.1
  unfold Copy.retire
  simp only [hn, Copy.raiseArith_pend, Copy.tickShadow_pend,
    Copy.special_keeps (·.pend) (fun _ _ => rfl) (fun _ _ _ => rfl) (fun _ _ _ => rfl) (fun _ _ => rfl) (fun _ _ _ => rfl) _ _ e he]
  split <;> simp only [Copy.setG, Copy.writes_pend]

theorem Copy.joinB_pend (c : Copy) (next addr : Word) (e : Eff) :
    (c.joinB next addr e).pend = pendAfter c.pend (c.retcnt - 1) addr c.precise e.arith := by
  unfold Copy.joinB
  simp only [Copy.raiseArith_pend, Copy.tickShadow_pend, Copy.writes_pend]

/-- A copy does not wait behind a group that has retired. -/
theorem Copy.retire_hold (c : Copy) (now : Nat) (g : GroupEnd) (e : Eff) (he : e.soft = true) :
    (c.retire now g e).hold = .none := by
  have hn : e.crw = none := by
    simp only [Eff.soft, Bool.and_eq_true, Option.isNone_iff_eq_none] at he
    exact he.1
  unfold Copy.retire
  simp only [hn, Copy.raiseArith_keeps (·.hold) (fun _ _ => rfl),
    Copy.special_keeps (·.hold) (fun _ _ => rfl) (fun _ _ _ => rfl) (fun _ _ _ => rfl) (fun _ _ => rfl) (fun _ _ _ => rfl) _ _ e he]

/-- What the register part of a group's end leaves of a copy. -/
theorem Copy.wrote_keeps {α : Type} (f : Copy → α) (hg : ∀ (c : Copy) g, f { c with g := g } = f c)
    (hp : ∀ (c : Copy) p, f { c with preds := p } = f c) (hs : ∀ (c : Copy) l, f { c with shadow := l } = f c) (c : Copy)
    (g : GroupEnd) (e : Eff) : f (c.wrote g e) = f c := by
  unfold Copy.wrote
  split
  · simp only [Copy.setG, hg]; exact Copy.writes_keeps f hg hp hs c e
  · exact Copy.writes_keeps f hg hp hs c e

/-- The TCM and the emergency flag after a soft group. -/
theorem Copy.retire_tcm (c : Copy) (now : Nat) (g : GroupEnd) (e : Eff) (he : e.soft = true) : (c.retire now g e).tcm = c.tcm := by
  rw [Copy.retire_soft (·.tcm) (fun _ _ => rfl) (fun _ _ _ => rfl) (fun _ _ _ => rfl) (fun _ _ => rfl) (fun _ _ _ => rfl)
    (fun _ _ => rfl) (fun _ _ _ _ _ _ _ _ _ _ => rfl) (fun _ _ => rfl) c now g e he]
  exact Copy.wrote_keeps (·.tcm) (fun _ _ => rfl) (fun _ _ => rfl) (fun _ _ => rfl) c g e

theorem Copy.retire_emerg (c : Copy) (now : Nat) (g : GroupEnd) (e : Eff) (he : e.soft = true) :
    (c.retire now g e).emerg = c.emerg := by
  rw [Copy.retire_soft (·.emerg) (fun _ _ => rfl) (fun _ _ _ => rfl) (fun _ _ _ => rfl) (fun _ _ => rfl) (fun _ _ _ => rfl)
    (fun _ _ => rfl) (fun _ _ _ _ _ _ _ _ _ _ => rfl) (fun _ _ => rfl) c now g e he]
  exact Copy.wrote_keeps (·.emerg) (fun _ _ => rfl) (fun _ _ => rfl) (fun _ _ => rfl) c g e

/-- A control register but the MPU's generation after a soft group. -/
theorem Copy.retire_crv (c : Copy) (now : Nat) (g : GroupEnd) (e : Eff) (he : e.soft = true) (n : Nat) (h : n ≠ 0x71) :
    (c.retire now g e).crv n = c.crv n := by
  rw [Copy.retire_soft (·.crv n) (fun _ _ => rfl) (fun _ _ _ => rfl)
    (fun c v _ => by simp [Copy.crv, Copy.setCr, AMap.get_set, h]) (fun _ _ => rfl) (fun _ _ _ => rfl) (fun _ _ => rfl)
    (fun _ _ _ _ _ _ _ _ _ _ => rfl) (fun _ _ => rfl) c now g e he]
  exact Copy.wrote_keeps (·.crv n) (fun _ _ => rfl) (fun _ _ => rfl) (fun _ _ => rfl) c g e

theorem Copy.joinB_crv (c : Copy) (next addr : Word) (e : Eff) (n : Nat) (h : n ≠ 0x71) :
    (c.joinB next addr e).crv n = c.crv n :=
  Copy.joinB_keeps (·.crv n) (fun _ _ => rfl) (fun _ _ => rfl) (fun _ _ => rfl)
    (fun c v _ => by simp [Copy.crv, Copy.setCr, AMap.get_set, h]) (fun _ _ => rfl) (fun _ _ _ _ => rfl) c next addr e

/-- The local flag and the reservation after a soft group: what its special action makes of them (R136). -/
theorem Copy.retire_resv (c : Copy) (now : Nat) (g : GroupEnd) (e : Eff) (he : e.soft = true) :
    ((c.retire now g e).localFlag, (c.retire now g e).resv) =
      match e.special with
      | .reserve a => (true, some a)
      | .clrRes => (false, none)
      | _ => (c.localFlag, c.resv) := by
  have hn : e.crw = none := by
    simp only [Eff.soft, Bool.and_eq_true, Option.isNone_iff_eq_none] at he
    exact he.1
  have hw : ((c.wrote g e).localFlag, (c.wrote g e).resv) = (c.localFlag, c.resv) :=
    Copy.wrote_keeps (fun c => (c.localFlag, c.resv)) (fun _ _ => rfl) (fun _ _ => rfl) (fun _ _ => rfl) c g e
  have ht : ∀ d : Copy, (d.tickShadow.localFlag, d.tickShadow.resv) = (d.localFlag, d.resv) := fun d => by simp
  unfold Copy.retire
  simp only [hn]
  rw [Copy.raiseArith_keeps (·.localFlag) (fun _ _ => rfl), Copy.raiseArith_keeps (·.resv) (fun _ _ => rfl)]
  cases h : e.special with
  | rete a b d => simp [Eff.soft, h] at he
  | reserve a => rfl
  | clrRes => rfl
  | msync =>
    simp only [Copy.special]
    rw [Copy.endShadows_keeps (·.localFlag) (fun _ _ => rfl) (fun _ _ _ => rfl),
      Copy.endShadows_keeps (·.resv) (fun _ _ => rfl) (fun _ _ _ => rfl)]
    exact (ht _).trans hw
  | none => exact (ht _).trans hw
  | hold m => exact (ht _).trans hw
  | wait => exact (ht _).trans hw

/-- The registers a group writes: its destinations; with none, no register changes. -/
theorem Copy.writes_dst (c : Copy) (e : Eff) (d : Reg) (v : Word) (hs : e.sp = none) (ha : e.dstA = some (d, v))
    (hb : e.dstB = none) (n : Nat) : (c.writes e).gAt n = if n = c.slotOf d then v else c.gAt n := by
  simp [Copy.writes, hs, ha, hb, Copy.gAt_wr]

theorem Copy.writes_none (c : Copy) (e : Eff) (hs : e.sp = none) (ha : e.dstA = none) (hb : e.dstB = none) (n : Nat) :
    (c.writes e).gAt n = c.gAt n := by
  simp [Copy.writes, hs, ha, hb]

/-- A write of no predicate leaves them all. -/
theorem Copy.writes_preds_none (c : Copy) (e : Eff) (h : e.pmask = 0) : (c.writes e).preds = c.preds := by
  have : ∀ d : Copy, (d.setPreds 0 e.pvals).preds = d.preds := by
    intro d
    simp only [Copy.setPreds]
    have hz : (BitVec.ofNat 8 (0 / 2 * 2)) = 0#8 := rfl
    rw [hz]
    simp only [BitVec.and_zero, BitVec.or_zero, BitVec.not_zero]
    exact BitVec.and_allOnes
  unfold Copy.writes
  dsimp only
  rw [h, this]
  have hs : ∀ (d : Copy) (v : Word), (d.setSp v).preds = d.preds := fun _ _ => rfl
  split <;> split <;> split <;> simp only [Copy.wr_preds, hs]

end Sys2Proof.Machine
end

