-- ==== Sys2Proof/Laws/Exec.lean ====
section
/-! SUPPORT. What one FLA instruction that makes no access does to the device (R39, R41, R80, R86): the copy after it, by its
effect, and what stays. -/

namespace Sys2Proof.Machine

theorem Copy.retireWait_tcm (c : Copy) (now len : Nat) : (c.retireWait now len).tcm = c.tcm := by
  unfold Copy.retireWait Copy.retire
  simp [Copy.special, Copy.writes, Copy.raiseArith, Copy.setPreds]

/-- The wake of copies stalled in WAIT stores nothing. -/
theorem State.wakeWaits_tcm (s : State) (t j : Nat) : ((s.wakeWaits t).copy j).tcm = (s.copy j).tcm := by
  unfold State.wakeWaits
  refine foldl_keeps (fun s' => (s'.copy j).tcm = (s.copy j).tcm) _ _ (fun s' c _ hs => ?_) s rfl
  dsimp only
  split
  · split
    · rw [State.copy_setCopy]
      split
      · subst_vars; rw [Copy.retireWait_tcm]; exact hs
      · exact hs
    · exact hs
  · exact hs

theorem State.groupDone_tcm (s : State) (t c j : Nat) (p : Copy) (hp : p.tcm = (s.copy (3 * t + c)).tcm) :
    ((s.groupDone t c p).copy j).tcm = (s.copy j).tcm := by
  have e : ∀ s' : State, ((s'.afterGroup t).copy j).tcm = (s'.copy j).tcm := by
    intro s'
    unfold State.afterGroup
    dsimp only
    rw [State.wakeWaits_tcm]
    split
    · simp [State.setPowerState]
    · rfl
  unfold State.groupDone
  rw [e, State.mpuReport_keeps (fun s => (s.copy j).tcm) (fun _ _ => rfl), State.copy_setCopy]
  split
  · subst_vars; exact hp
  · rfl

/-- The page registers after a group's end: TPWR alone may change (R362). -/
theorem State.groupDone_reg (s : State) (t c : Nat) (p : Copy) (ht : t < s.nTriads) (page off : Nat) (ho : off < 0x1000)
    (h : (page, off) ≠ (pgPwr, tpwr t)) : (s.groupDone t c p).reg page off = s.reg page off := by
  unfold State.groupDone State.afterGroup
  dsimp only
  rw [State.wakeWaits_keeps (fun s => s.reg page off) (fun _ _ _ => rfl)]
  split
  · unfold State.setPowerState State.setFld
    rw [State.reg_setReg_ne, State.mpuReport_keeps (fun s => s.reg page off) (fun _ _ => rfl)]
    · rfl
    · intro e
      have := regKey_inj ho (State.tpwr_lt s t ht) e
      exact h (by rw [this.1, this.2])
  · rw [State.mpuReport_keeps (fun s => s.reg page off) (fun _ _ => rfl)]
    rfl

/-- A copy stored after its group leaves the rest, where the copy itself keeps its own part of it. -/
theorem State.groupDone_keepsRest (s : State) (x : Ctx) (p : Copy) (ht64 : x.t < s.nTriads) (hc : x.c < 3)
    (hh : ∀ len, p.hold ≠ .wait len) (hcr : ∀ n, n ≠ 0x71 → p.crv n = (s.copy x.key).crv n)
    (he : p.emerg = (s.copy x.key).emerg) : s.keepsRest (s.groupDone x.t x.c p) x := by
  have hk : (s.groupDone x.t x.c p).copy x.key = p := State.groupDone_copy s x.t x.c p hh
  refine ⟨?_, ?_, ?_, ?_, ?_, ?_, ?_, ?_⟩
  · intro n hn; rw [hk]; exact hcr n hn
  · rw [hk]; exact he
  · intro j hj; exact State.groupDone_other s x.t x.c j p hc hj
  · intro page off ho hp
    apply State.groupDone_reg s x.t x.c p ht64 page off ho
    intro e
    exact hp (by rw [e]; simp [touchedBy])
  · exact State.groupDone_keeps (fun s => s.pending) (fun _ _ _ => rfl) (fun _ _ _ => rfl) (fun _ _ => rfl) ..
  · exact State.groupDone_keeps (fun s => s.engines) (fun _ _ _ => rfl) (fun _ _ _ => rfl) (fun _ _ => rfl) ..
  · exact State.groupDone_keeps (fun s => s.links) (fun _ _ _ => rfl) (fun _ _ _ => rfl) (fun _ _ => rfl) ..
  · exact State.groupDone_keeps (fun s => s.timeB) (fun _ _ _ => rfl) (fun _ _ _ => rfl) (fun _ _ => rfl) ..

/-- A copy stored after its group changes no memory, where it keeps its TCM. -/
theorem State.groupDone_stores (s : State) (x : Ctx) (p : Copy) (hh : ∀ len, p.hold ≠ .wait len)
    (ht : p.tcm = (s.copy x.key).tcm) (hl : p.localFlag = (s.copy x.key).localFlag) (hr : p.resv = (s.copy x.key).resv) :
    s.storesNothing (s.groupDone x.t x.c p) x := by
  have hk : (s.groupDone x.t x.c p).copy x.key = p := State.groupDone_copy s x.t x.c p hh
  refine ⟨?_, by rw [hk]; exact hl, by rw [hk]; exact hr⟩
  intro q a
  cases q with
  | tcm k => simp only [State.byteAt, State.groupDone_tcm s x.t x.c k p ht]
  | sram n =>
    simp only [State.byteAt, State.groupDone_keeps (fun s => s.sramOf n) (fun _ _ _ => rfl) (fun _ _ _ => rfl) (fun _ _ => rfl)]
  | ddr k =>
    simp only [State.byteAt, State.groupDone_keeps (fun s => s.ddrOf k) (fun _ _ _ => rfl) (fun _ _ _ => rfl) (fun _ _ => rfl)]

/-- Counting on the copy's CORE page is no part of what `keepsRest` names. -/
theorem State.keepsRest_count (s t : State) (x : Ctx) (h : s.keepsRest t x) : s.keepsRest (t.count (pgCore x.key) 0x120) x := by
  obtain ⟨h2, h5, h6, h7, h8, h9, h10, h11⟩ := h
  refine ⟨h2, h5, h6, ?_, h8, h9, h10, h11⟩
  intro page off ho hp
  rw [← h7 page off ho hp]
  apply State.reg_setReg_ne
  intro e
  have := regKey_inj ho (by decide) e
  exact hp (by rw [this.1, this.2]; simp [touchedBy])

theorem State.storesNothing_count (s t : State) (x : Ctx) (h : s.storesNothing t x) :
    s.storesNothing (t.count (pgCore x.key) 0x120) x := by
  refine ⟨fun q a => ?_, h.2.1, h.2.2⟩
  rw [← h.1 q a]
  cases q <;> rfl

/-- What the parts of a group leave to change of a copy besides its registers: the TCM, the write-backs owed, the reservation, the
window, slot A, the groups issued ahead, the hold. -/
def Copy.stage (c : Copy) (m : Ram) (l : List Nat) (r : Option Nat) (w : Option Nat) (a : Option SlotA) (q : List QGroup)
    (h : Hold) : Copy :=
  { c with tcm := m, writeBack := l, resv := r, win := w, slotA := a, queue := q, hold := h }

/-- Register writes do not see those. -/
theorem Copy.wr_stage (c : Copy) (m : Ram) (l : List Nat) (r w : Option Nat) (a : Option SlotA) (q : List QGroup) (h : Hold)
    (d : Reg) (v : Word) : (c.stage m l r w a q h).wr d v = (c.wr d v).stage m l r w a q h := by
  unfold Copy.wr
  split <;> rfl

theorem Copy.writes_stage (c : Copy) (m : Ram) (l : List Nat) (r w : Option Nat) (a : Option SlotA) (q : List QGroup) (h : Hold)
    (e : Eff) : (c.stage m l r w a q h).writes e = (c.writes e).stage m l r w a q h := by
  unfold Copy.writes
  dsimp only
  cases e.sp with
  | none =>
    cases e.dstA with
    | none => cases e.dstB with
      | none => rfl
      | some _ => simp only [Copy.wr_stage]; rfl
    | some _ => cases e.dstB with
      | none => simp only [Copy.wr_stage]; rfl
      | some _ => simp only [Copy.wr_stage]; rfl
  | some v =>
    have hs : (c.stage m l r w a q h).setSp v = (c.setSp v).stage m l r w a q h := rfl
    cases e.dstA with
    | none => cases e.dstB with
      | none => rfl
      | some _ => simp only [hs, Copy.wr_stage]; rfl
    | some _ => cases e.dstB with
      | none => simp only [hs, Copy.wr_stage]; rfl
      | some _ => simp only [hs, Copy.wr_stage]; rfl

/-- Nor does an instruction's effect, which a copy's hold does not steer. -/
theorem flaEff_stage (x : Ctx) (c : Copy) (next : Word) (vals : List Quad) (i : Fla) (m : Ram) (l : List Nat) (r w : Option Nat)
    (a : Option SlotA) (q : List QGroup) (h : Hold) : flaEff x (c.stage m l r w a q h) next vals i = flaEff x c next vals i := by
  cases i <;> rfl

theorem flaAcc_stage (x : Ctx) (c : Copy) (next : Word) (i : Fla) (m : Ram) (l : List Nat) (r w : Option Nat)
    (a : Option SlotA) (q : List QGroup) (h : Hold) : flaAcc x (c.stage m l r w a q h) next i = flaAcc x c next i := by
  cases i <;> rfl

theorem State.keepsRest_trans (s u t : State) (x : Ctx) (h : s.keepsRest u x) (k : u.keepsRest t x) : s.keepsRest t x := by
  obtain ⟨a1, a2, a3, a4, a5, a6, a7, a8⟩ := h
  obtain ⟨b1, b2, b3, b4, b5, b6, b7, b8⟩ := k
  exact ⟨fun n hn => (b1 n hn).trans (a1 n hn), b2.trans a2, fun j hj => (b3 j hj).trans (a3 j hj),
    fun p o ho hp => (b4 p o ho hp).trans (a4 p o ho hp), b5.trans a5, b6.trans a6, b7.trans a7, b8.trans a8⟩

/-- From `s` to `u` a group of copy `x` has been made ready: nothing of the copy but the window, the write-backs owed, slot A and the
groups issued ahead has changed, and nothing of the device but what a fetch counts. -/
def State.staged (s u : State) (x : Ctx) : Prop :=
  (∃ l w a q, u.copy x.key = (s.copy x.key).stage (s.copy x.key).tcm l (s.copy x.key).resv w a q (s.copy x.key).hold) ∧
  s.keepsRest u x ∧ (∀ p b, u.byteAt p b = s.byteAt p b) ∧ u.dies = s.dies

/-- The fetch makes a group ready so. -/
theorem State.fetched_staged (s : State) (x : Ctx) (i : Fla) (rep : Option RepKind) (hc : x.c < 3)
    (h : (s.fetchFor x i rep).2 = true) : s.staged (s.fetched x i rep) x := by
  obtain ⟨w, l, hk⟩ := State.fetched_copy s x i rep h
  refine ⟨⟨l, w, (s.copy x.key).slotA, (s.copy x.key).queue, hk⟩, State.fetched_keepsRest s x i rep hc h,
    State.fetched_byteAt s x i rep h, ?_⟩
  exact State.fetchFor_keeps (fun v => v.dies) x (fun _ _ => rfl) (fun _ _ => rfl) (fun _ _ => rfl) (fun _ _ => rfl)
    (fun _ _ => rfl) (fun _ _ => rfl) (fun _ _ => rfl) s i rep h

theorem State.byteAt_setCopy (s : State) (k : Nat) (c : Copy) (h : c.tcm = (s.copy k).tcm) (p : Place) (b : Nat) :
    (s.setCopy k c).byteAt p b = s.byteAt p b := by
  cases p with
  | tcm j =>
    simp only [State.byteAt, State.copy_setCopy]
    split
    · subst_vars; rw [h]
    · rfl
  | sram n => rfl
  | ddr n => rfl

/-- ... and so does the close of slot B. -/
theorem State.closeSlot_staged (s u : State) (x : Ctx) (hc : x.c < 3) (h : s.staged u x) : s.staged (u.closeSlot x.key) x := by
  obtain ⟨⟨l, w, a, q, hk⟩, h2, h3, h4⟩ := h
  refine ⟨⟨l, w, none, q, ?_⟩, State.keepsRest_trans s u _ x h2 ?_, fun p b => ?_, h4⟩
  · unfold State.closeSlot
    rw [State.copy_setCopy, if_pos rfl, hk]; rfl
  · unfold State.closeSlot
    refine ⟨fun n _ => ?_, ?_, fun j hj => ?_, fun _ _ _ _ => rfl, rfl, rfl, rfl, rfl⟩
    · rw [State.copy_setCopy, if_pos rfl]; rfl
    · rw [State.copy_setCopy, if_pos rfl]
    · have hne : j ≠ x.key := by unfold Ctx.key; omega
      rw [State.copy_setCopy, if_neg hne]
  · rw [← h3 p b]
    exact State.byteAt_setCopy u x.key { u.copy x.key with slotA := none } rfl p b

/-- What `joins` says: behind the fetch the instruction is slot B's. -/
theorem State.joins_spec (s : State) (x : Ctx) (i : Fla) (h : s.joins x i = true) :
    x.t < s.nTriads ∧ x.c < 3 ∧ (s.copy x.key).hold = .none ∧ (s.fetchFor x i none).2 = true ∧
    s.moveGroup x i none = (s.fetched x i none).runSlotB x i := by
  simp only [State.joins, Bool.and_eq_true] at h
  have hr := h.1
  simp only [State.ready, Bool.and_eq_true] at hr
  obtain ⟨hn, hc, -, hho⟩ := State.headFree_spec s x hr.1.1
  refine ⟨hn, hc, hho, hr.2, ?_⟩
  have hh := State.headGroup_joins _ x i none (State.fetched_headFree s x i none hr.2 hr.1.1) h.2
  rw [State.moveGroup_ready s x i none h.1, hh]
  have : sameGroup ((s.fetched x i none).copy x.key) (((s.fetched x i none).runSlotB x i).copy x.key) x none i = false := by
    unfold sameGroup
    rw [h.2]; rfl
  rw [this]; rfl

/-- What `heads` says: behind the fetch, with slot B closed, the instruction is all that stands before the copy. -/
theorem State.heads_spec (s : State) (x : Ctx) (i : Fla) (rep : Option RepKind) (h : s.heads x i rep = true) :
    x.t < s.nTriads ∧ x.c < 3 ∧ (s.copy x.key).hold = .none ∧ s.ready x i rep = true ∧
    s.staged ((s.fetched x i rep).closeSlot x.key) x ∧
    (s.fetched x i rep).headGroup x i rep = ((s.fetched x i rep).closeSlot x.key).runHead x i rep false ∧
    ((s.fetched x i rep).copy x.key).guardOk x.guard = true ∧ headFault ((s.fetched x i rep).copy x.key) x i rep = none ∧
    ¬ (rep.isSome = true ∧ ((s.fetched x i rep).copy x.key).gAt 1 = 0) ∧
    ((s.fetched x i rep).copy x.key).takesB x rep i = false := by
  simp only [State.heads, State.next, Bool.and_eq_true, Bool.not_eq_true', Option.isNone_iff_eq_none, decide_eq_true_eq] at h
  obtain ⟨⟨⟨⟨⟨⟨⟨⟨⟨h1, h2⟩, h3⟩, h4⟩, h5⟩, h6⟩, h7⟩, h8⟩, h9⟩, h10⟩ := h
  have hr := h1
  simp only [State.ready, Bool.and_eq_true] at hr
  obtain ⟨hn, hc, -, hho⟩ := State.headFree_spec s x hr.1.1
  have ht : (s.fetched x i rep).takesGroups x = true := by
    simp [State.takesGroups, State.fetched_headFree s x i rep hr.2 hr.1.1, h3]
  exact ⟨hn, hc, hho, h1, State.closeSlot_staged s _ x hc (State.fetched_staged s x i rep hc hr.2),
    State.headGroup_runs _ x i rep h2 ht h4 h5 h6 h7, h8, h9, by simpa using h10, h2⟩

/-- An open slot A does not change the fault of a group. -/
theorem headFault_slotA (p : Copy) (x : Ctx) (i : Fla) (rep : Option RepKind) :
    headFault { p with slotA := none } x i rep = headFault p x i rep := by
  unfold headFault
  cases i <;> rfl

/-- An instruction that heads, but for WAIT and the fences: its accesses from the state made ready. -/
theorem State.headGroup_accs (s : State) (x : Ctx) (i : Fla) (rep : Option RepKind) (h : s.heads x i rep = true)
    (hw : i ≠ .wait ∧ i ≠ .fence ∧ i ≠ .fenceRule) :
    (s.fetched x i rep).headGroup x i rep = ((s.fetched x i rep).closeSlot x.key).runAccs x i rep
      (flaAcc x (s.copy x.key) (s.nextPc x rep i) i) [] := by
  obtain ⟨hn, hc, hho, hr, hs, hg, h8, h9, h10, -⟩ := State.heads_spec s x i rep h
  obtain ⟨⟨l, w, a, q, hk⟩, -, -, -⟩ := hs
  have hp : ((s.fetched x i rep).closeSlot x.key).copy x.key = { (s.fetched x i rep).copy x.key with slotA := none } := by
    unfold State.closeSlot
    rw [State.copy_setCopy, if_pos rfl]
  rw [hg, State.runHead_accs _ x i rep (by rw [hp]; exact h8)
    (by rw [hp, headFault_slotA]; exact h9) (by rw [hp]; exact h10) hw]
  have e1 : ((s.fetched x i rep).closeSlot x.key).nextPc x rep i = s.nextPc x rep i := by
    unfold State.nextPc; rw [hk]; rfl
  rw [e1, hk, flaAcc_stage]

/-- A group that went on is no longer what stood before the copy. -/
theorem State.moveGroup_gone (s : State) (x : Ctx) (i : Fla) (rep : Option RepKind) (hr : s.ready x i rep = true)
    (hg : (((s.fetched x i rep).headGroup x i rep).copy x.key).retcnt ≠ ((s.fetched x i rep).copy x.key).retcnt ∨
      (((s.fetched x i rep).headGroup x i rep).copy x.key).hold ≠ .none) :
    s.moveGroup x i rep = (s.fetched x i rep).headGroup x i rep := by
  rw [State.moveGroup_ready s x i rep hr]
  have : sameGroup ((s.fetched x i rep).copy x.key) (((s.fetched x i rep).headGroup x i rep).copy x.key) x rep i = false := by
    unfold sameGroup
    rcases hg with hg | hg
    · have : (((s.fetched x i rep).copy x.key).retcnt == (((s.fetched x i rep).headGroup x i rep).copy x.key).retcnt) = false := by
        simpa using fun e => hg e.symm
      simp [this]
    · simp [hg]
  rw [this]; rfl

/-- The end of a group whose accesses are done, on the state that they left. -/
theorem State.finishGroup_soft (s : State) (x : Ctx) (i : Fla) (rep : Option RepKind) (vals : List Quad) (hn : x.t < s.nTriads)
    (hc : x.c < 3) (he : (flaEff x (s.copy x.key) (s.nextPc x rep i) vals i).soft = true) :
    ∃ g : GroupEnd, g.element = rep.isSome ∧ g.next = s.nextPc x rep i ∧ g.addr = (s.copy x.key).pc ∧
      g.more = (rep.isSome && decide ((s.copy x.key).gAt 1 - 1 ≠ 0)) ∧
      (s.finishGroup x i rep vals).copy x.key = ({ s.copy x.key with hold := .none } : Copy).retire s.now g
        (flaEff x (s.copy x.key) (s.nextPc x rep i) vals i) ∧
      s.keepsRest (s.finishGroup x i rep vals) x ∧
      (∀ q a, (s.finishGroup x i rep vals).byteAt q a = s.byteAt q a) := by
  generalize hE : flaEff x (s.copy x.key) (s.nextPc x rep i) vals i = e at he ⊢
  refine ⟨⟨(s.copy x.key).pc, s.nextPc x rep i, rep.isSome, rep.isSome && decide ((s.copy x.key).gAt 1 - 1 ≠ 0),
    decide (rep = some .repu), slotAOf (s.copy x.key) x rep i (s.nextPc x rep i)⟩, rfl, rfl, rfl, rfl, ?_⟩
  generalize hG : (⟨(s.copy x.key).pc, s.nextPc x rep i, rep.isSome, rep.isSome && decide ((s.copy x.key).gAt 1 - 1 ≠ 0),
    decide (rep = some .repu), slotAOf (s.copy x.key) x rep i (s.nextPc x rep i)⟩ : GroupEnd) = g
  have hR : s.finishGroup x i rep vals =
      s.groupDone x.t x.c (({ s.copy x.key with hold := .none } : Copy).retire s.now g e) := by
    unfold State.finishGroup
    dsimp only
    rw [show (s.copy x.key).pc + BitVec.ofNat 64 (flaLen x rep i) = s.nextPc x rep i from rfl, hE, ← hG]
    cases h : e.special with
    | rete a b d => simp [Eff.soft, h] at he
    | _ => simp
  have hh : ∀ len, (({ s.copy x.key with hold := .none } : Copy).retire s.now g e).hold ≠ .wait len := by
    intro len
    rw [Copy.retire_hold _ _ _ _ he]
    simp
  rw [hR]
  refine ⟨State.groupDone_copy s x.t x.c _ hh, ?_, ?_⟩
  · exact State.groupDone_keepsRest s x _ hn hc hh (fun n hn => (Copy.retire_crv _ _ _ _ he n hn).trans rfl)
      ((Copy.retire_emerg _ _ _ _ he).trans rfl)
  · intro q a
    have ht : (({ s.copy x.key with hold := .none } : Copy).retire s.now g e).tcm = (s.copy x.key).tcm :=
      (Copy.retire_tcm _ _ _ _ he).trans rfl
    cases q with
    | tcm k => simp only [State.byteAt, State.groupDone_tcm s x.t x.c k _ ht]
    | sram n =>
      simp only [State.byteAt, State.groupDone_keeps (fun s => s.sramOf n) (fun _ _ _ => rfl) (fun _ _ _ => rfl) (fun _ _ => rfl)]
    | ddr k =>
      simp only [State.byteAt, State.groupDone_keeps (fun s => s.ddrOf k) (fun _ _ _ => rfl) (fun _ _ _ => rfl) (fun _ _ => rfl)]

/-- The facts of a group whose accesses are done, from the state `u` that they left, seen from the state before its fetch. -/
theorem State.finish_retired (s u : State) (x : Ctx) (i : Fla) (vals : List Quad) (hn : x.t < s.nTriads) (hc : x.c < 3)
    (hj : s.joins x i = false) (m : Ram) (l : List Nat) (r w : Option Nat) (a : Option SlotA) (q : List QGroup) (h : Hold)
    (hu : u.copy x.key = (s.copy x.key).stage m l r w a q h) (hd : u.dies = s.dies) (hk : s.keepsRest u x)
    (he : (flaEff x (s.copy x.key) (s.nextPc x none i) vals i).soft = true) :
    s.retired (u.finishGroup x i none vals) x i (flaEff x (s.copy x.key) (s.nextPc x none i) vals i) ∧
    (((u.finishGroup x i none vals).copy x.key).localFlag, ((u.finishGroup x i none vals).copy x.key).resv) =
      (match (flaEff x (s.copy x.key) (s.nextPc x none i) vals i).special with
       | .reserve a => (true, some a)
       | .clrRes => (false, none)
       | _ => ((s.copy x.key).localFlag, r)) ∧
    (∀ q a, (u.finishGroup x i none vals).byteAt q a = u.byteAt q a) := by
  have hnx : u.nextPc x none i = s.nextPc x none i := by unfold State.nextPc; rw [hu]; rfl
  have hE : flaEff x (u.copy x.key) (u.nextPc x none i) vals i = flaEff x (s.copy x.key) (s.nextPc x none i) vals i := by
    rw [hnx, hu, flaEff_stage]
  have hun : x.t < u.nTriads := by unfold State.nTriads; rw [hd]; exact hn
  obtain ⟨g, g1, g2, g3, g4, g5, g6, g7⟩ := State.finishGroup_soft u x i none vals hun hc (by rw [hE]; exact he)
  rw [hE] at g5
  generalize flaEff x (s.copy x.key) (s.nextPc x none i) vals i = e at he g5 ⊢
  generalize hT : u.finishGroup x i none vals = t at g5 g6 g7 ⊢
  have hp : ({ u.copy x.key with hold := .none } : Copy) = (s.copy x.key).stage m l r w a q .none := by rw [hu]; rfl
  rw [hp] at g5
  refine ⟨⟨fun n => ?_, ?_, ?_, ?_, ?_, State.keepsRest_trans s u t x hk g6⟩, ?_, g7⟩
  · rw [g5, Copy.retire_gAt _ _ _ _ he, Copy.wrote, g1, Copy.writes_stage]; rfl
  · rw [g5, Copy.retire_preds _ _ _ _ he, Copy.writes_stage]; rfl
  · rw [g5, Copy.retire_pc _ _ _ _ he, g4, g2, hnx]; rfl
  · rw [g5, Copy.retire_retcnt _ _ _ _ he, hj]; rfl
  · rw [g5, Copy.retire_pend _ _ _ _ he, g3, hj, hu]; rfl
  · rw [g5]
    refine (Copy.retire_resv _ _ g e he).trans ?_
    cases e.special <;> rfl

/-- ... and that group has gone on. -/
theorem State.finishGroup_gone (u : State) (x : Ctx) (i : Fla) (vals : List Quad) (hn : x.t < u.nTriads) (hc : x.c < 3)
    (he : (flaEff x (u.copy x.key) (u.nextPc x none i) vals i).soft = true) :
    ((u.finishGroup x i none vals).copy x.key).retcnt = (u.copy x.key).retcnt + 1 := by
  obtain ⟨g, -, -, -, -, g5, -, -⟩ := State.finishGroup_soft u x i none vals hn hc he
  rw [g5, Copy.retire_retcnt _ _ _ _ he]

/-- An instruction that heads does not join. -/
theorem State.heads_not_joins (s : State) (x : Ctx) (i : Fla) (h : s.heads x i none = true) : s.joins x i = false := by
  obtain ⟨-, -, -, -, -, -, -, -, -, hb⟩ := State.heads_spec s x i none h
  unfold State.joins
  rw [hb, Bool.and_false]

/-- An instruction that makes no access, writes no control register and has no special action: the copy after it and what stays,
in slot B and as the next group. -/
theorem State.moveGroup_plain (s : State) (x : Ctx) (i : Fla) (h : s.executes x i = true)
    (ha : ∀ c n, flaAcc x c n i = []) (hw : i ≠ .wait ∧ i ≠ .fence ∧ i ≠ .fenceRule)
    (he : (flaEff x (s.copy x.key) (s.nextPc x none i) [] i).plain = true) :
    s.retired (s.moveGroup x i none) x i (flaEff x (s.copy x.key) (s.nextPc x none i) [] i) ∧
    s.storesNothing (s.moveGroup x i none) x := by
  cases hj : s.joins x i with
  | true =>
    obtain ⟨hn, hc, hho, hf, hm⟩ := State.joins_spec s x i hj
    obtain ⟨⟨l, w, a, q, hk⟩, k2, k3, k4⟩ := State.fetched_staged s x i none hc hf
    rw [hm]
    generalize hu : s.fetched x i none = u at hk k2 k3 k4
    have hnx : u.nextPc x none i = s.nextPc x none i := by unfold State.nextPc; rw [hk]; rfl
    have hE : flaEff x (u.copy x.key) (u.nextPc x none i) [] i = flaEff x (s.copy x.key) (s.nextPc x none i) [] i := by
      rw [hnx, hk, flaEff_stage]
    have hB : u.runSlotB x i = (u.groupDone x.t x.c ((u.copy x.key).joinB (s.nextPc x none i) (s.copy x.key).pc
        (flaEff x (s.copy x.key) (s.nextPc x none i) [] i))).count (pgCore x.key) 0x120 := by
      rw [← hE, ← hnx]
      have hpc : (s.copy x.key).pc = (u.copy x.key).pc := by rw [hk]; rfl
      rw [hpc]; rfl
    generalize flaEff x (s.copy x.key) (s.nextPc x none i) [] i = e at he hB ⊢
    have hho' : (u.copy x.key).hold = .none := by rw [hk]; exact hho
    have hh : ∀ len, ((u.copy x.key).joinB (s.nextPc x none i) (s.copy x.key).pc e).hold ≠ .wait len := by
      intro len
      rw [Copy.joinB_keeps (·.hold) (fun _ _ => rfl) (fun _ _ => rfl) (fun _ _ => rfl) (fun _ _ _ => rfl) (fun _ _ => rfl)
        (fun _ _ _ _ => rfl), hho']
      simp
    have hk' : ((u.groupDone x.t x.c ((u.copy x.key).joinB (s.nextPc x none i) (s.copy x.key).pc e)).count
        (pgCore x.key) 0x120).copy x.key = (u.copy x.key).joinB (s.nextPc x none i) (s.copy x.key).pc e :=
      State.groupDone_copy u x.t x.c _ hh
    have hun : x.t < u.nTriads := by unfold State.nTriads; rw [k4]; exact hn
    have hst : u.storesNothing ((u.groupDone x.t x.c ((u.copy x.key).joinB (s.nextPc x none i) (s.copy x.key).pc e)).count
        (pgCore x.key) 0x120) x := by
      refine State.storesNothing_count _ _ _ (State.groupDone_stores u x _ hh ?_ ?_ ?_)
      · exact Copy.joinB_keeps (·.tcm) (fun _ _ => rfl) (fun _ _ => rfl) (fun _ _ => rfl) (fun _ _ _ => rfl) (fun _ _ => rfl)
          (fun _ _ _ _ => rfl) ..
      · exact Copy.joinB_keeps (·.localFlag) (fun _ _ => rfl) (fun _ _ => rfl) (fun _ _ => rfl) (fun _ _ _ => rfl) (fun _ _ => rfl)
          (fun _ _ _ _ => rfl) ..
      · exact Copy.joinB_keeps (·.resv) (fun _ _ => rfl) (fun _ _ => rfl) (fun _ _ => rfl) (fun _ _ _ => rfl) (fun _ _ => rfl)
          (fun _ _ _ _ => rfl) ..
    have hkr : u.keepsRest ((u.groupDone x.t x.c ((u.copy x.key).joinB (s.nextPc x none i) (s.copy x.key).pc e)).count
        (pgCore x.key) 0x120) x := by
      refine State.keepsRest_count _ _ _ (State.groupDone_keepsRest u x _ hun hc hh (fun n hn => Copy.joinB_crv _ _ _ _ n hn) ?_)
      exact Copy.joinB_keeps (·.emerg) (fun _ _ => rfl) (fun _ _ => rfl) (fun _ _ => rfl) (fun _ _ _ => rfl) (fun _ _ => rfl)
          (fun _ _ _ _ => rfl) ..
    rw [hB]
    refine ⟨⟨fun n => ?_, ?_, ?_, ?_, ?_, State.keepsRest_trans s u _ x k2 hkr⟩, fun p b => (hst.1 p b).trans (k3 p b), ?_, ?_⟩
    · rw [hk', Copy.joinB_gAt, hk, Copy.writes_stage]; rfl
    · rw [hk', Copy.joinB_preds, hk, Copy.writes_stage]; rfl
    · rw [hk', Copy.joinB_pc]
    · rw [hk', Copy.joinB_retcnt, hk, hj]; rfl
    · rw [hk', Copy.joinB_pend, hk, hj]; rfl
    · rw [hst.2.1, hk]; rfl
    · rw [hst.2.2, hk]; rfl
  | false =>
    have hd : s.heads x i none = true := by simpa [State.executes, hj] using h
    obtain ⟨hn, hc, hho, hr, hst, -, -, -, -, -⟩ := State.heads_spec s x i none hd
    have hA := State.headGroup_accs s x i none hd hw
    rw [ha] at hA
    generalize hu : (s.fetched x i none).closeSlot x.key = u at hst hA
    obtain ⟨⟨l, w, a, q, hk⟩, k2, k3, k4⟩ := hst
    have hA' : (s.fetched x i none).headGroup x i none = u.finishGroup x i none [] := hA
    have hs' := Eff.plain_soft _ he
    have hun : x.t < u.nTriads := by unfold State.nTriads; rw [k4]; exact hn
    have hnx : u.nextPc x none i = s.nextPc x none i := by unfold State.nextPc; rw [hk]; rfl
    have hret : (u.copy x.key).retcnt = ((s.fetched x i none).copy x.key).retcnt := by
      rw [← hu]; unfold State.closeSlot; rw [State.copy_setCopy, if_pos rfl]
    have hM : s.moveGroup x i none = u.finishGroup x i none [] := by
      rw [State.moveGroup_gone s x i none hr (Or.inl ?_), hA']
      rw [hA', State.finishGroup_gone u x i [] hun hc (by rw [hnx, hk, flaEff_stage]; exact hs'), hret]
      omega
    obtain ⟨r1, r2, r3⟩ := State.finish_retired s u x i [] hn hc hj _ l _ w a q _ hk k4 k2 hs'
    have hs : (flaEff x (s.copy x.key) (s.nextPc x none i) [] i).special = .none := by
      simp only [Eff.plain, Bool.and_eq_true, decide_eq_true_eq] at he; exact he.2
    rw [hs] at r2
    simp only [Prod.mk.injEq] at r2
    rw [hM]
    exact ⟨r1, fun p b => (r3 p b).trans (k3 p b), r2.1, r2.2⟩

/-- The predicate just written reads as written, but for p0; the others as before (R100). -/
theorem Copy.p_setPreds (c : Copy) (p q : Pred) (v : Bool) :
    (c.setPreds (predWrite p v).1 (predWrite p v).2).p q = if q = p ∧ p.val ≠ 0 then v else c.p q := by
  have hm : ∀ (p : Pred) (v : Bool), (BitVec.ofNat 8 ((predWrite p v).1 / 2 * 2)).getLsbD q.val = decide (q = p ∧ p.val ≠ 0) := by
    revert q; decide
  have hv : ∀ (p : Pred) (v : Bool), (BitVec.ofNat 8 (predWrite p v).2).getLsbD q.val = (decide (q = p) && v) := by
    revert q; decide
  have h8 : q.val < 8 := q.isLt
  unfold Copy.p Copy.setPreds
  by_cases h0 : q.val = 0
  · rw [if_pos h0, if_pos h0, if_neg]
    rintro ⟨rfl, h⟩
    exact h h0
  · rw [if_neg h0, if_neg h0]
    simp only [BitVec.getLsbD_or, BitVec.getLsbD_and, BitVec.getLsbD_not, hm, hv, h8, decide_true, Bool.true_and]
    by_cases hq : q = p
    · subst hq
      simp [h0]
    · simp [hq]

/-- The predicates after the register writes of a group. -/
theorem Copy.p_writes (c : Copy) (e : Eff) (q : Pred) : (c.writes e).p q = (c.setPreds e.pmask e.pvals).p q := by
  have h : (c.writes e).preds = (c.setPreds e.pmask e.pvals).preds := by
    unfold Copy.writes
    dsimp only
    have hs : ∀ (d : Copy) (v : Word), (d.setSp v).preds = d.preds := fun _ _ => rfl
    split <;> split <;> split <;> simp only [Copy.setPreds, Copy.wr_preds, hs]
  unfold Copy.p
  rw [h]

/-- The effect of an instruction that writes one register. -/
def Eff.oneReg (e : Eff) (d : Reg) (v : Word) : Prop :=
  e.dstA = some (d, v) ∧ e.dstB = none ∧ e.sp = none ∧ e.pmask = 0 ∧ e.target = none ∧ e.plain = true

/-- An instruction that writes one register completes so, in either slot. -/
theorem State.moveGroup_writesReg (s : State) (x : Ctx) (i : Fla) (d : Reg) (v : Word) (z : ArithCause)
    (h : s.executes x i = true) (ha : ∀ c n, flaAcc x c n i = []) (hw : i ≠ .wait ∧ i ≠ .fence ∧ i ≠ .fenceRule)
    (he : (flaEff x (s.copy x.key) (s.nextPc x none i) [] i).oneReg d v)
    (hz : (flaEff x (s.copy x.key) (s.nextPc x none i) [] i).arith = z) : s.writesReg (s.moveGroup x i none) x i d v z := by
  obtain ⟨h1, h2, h3, h4, h5, h6⟩ := he
  obtain ⟨⟨g1, g2, g3⟩, gm⟩ := State.moveGroup_plain s x i h ha hw h6
  refine ⟨fun n => ?_, ?_, gm, ?_⟩
  · rw [g1 n, Copy.writes_dst _ _ d v h3 h1 h2]
  · rw [g2, Copy.writes_preds_none _ _ h4]
  · rw [h5, hz] at g3; exact g3

/-- An instruction that writes one predicate completes so, in either slot. -/
theorem State.moveGroup_writesPred (s : State) (x : Ctx) (i : Fla) (p : Pred) (v : Bool)
    (h : s.executes x i = true) (ha : ∀ c n, flaAcc x c n i = []) (hw : i ≠ .wait ∧ i ≠ .fence ∧ i ≠ .fenceRule)
    (he : (flaEff x (s.copy x.key) (s.nextPc x none i) [] i) = { pmask := (predWrite p v).1, pvals := (predWrite p v).2 }) :
    s.writesPred (s.moveGroup x i none) x i p v := by
  obtain ⟨⟨g1, g2, g3⟩, gm⟩ := State.moveGroup_plain s x i h ha hw (by rw [he]; rfl)
  refine ⟨fun q => ?_, fun n => ?_, gm, ?_⟩
  · have e : ((s.moveGroup x i none).copy x.key).p q =
        ((s.copy x.key).writes (flaEff x (s.copy x.key) (s.nextPc x none i) [] i)).p q := by
      unfold Copy.p; rw [g2]
    rw [e, Copy.p_writes, he, Copy.p_setPreds]
  · rw [g1 n, he, Copy.writes_none _ _ rfl rfl rfl]
  · rw [he] at g3; exact g3

/-- An instruction that writes nothing completes so, in either slot. -/
theorem State.moveGroup_goesTo (s : State) (x : Ctx) (i : Fla) (o : Option Word)
    (h : s.executes x i = true) (ha : ∀ c n, flaAcc x c n i = []) (hw : i ≠ .wait ∧ i ≠ .fence ∧ i ≠ .fenceRule)
    (he : (flaEff x (s.copy x.key) (s.nextPc x none i) [] i) = { target := o }) :
    s.goesTo (s.moveGroup x i none) x i (o.getD (s.nextPc x none i)) := by
  obtain ⟨⟨g1, g2, g3⟩, gm⟩ := State.moveGroup_plain s x i h ha hw (by rw [he]; rfl)
  refine ⟨fun n => ?_, ?_, gm, ?_⟩
  · rw [g1 n, he, Copy.writes_none _ _ rfl rfl rfl]
  · rw [g2, he, Copy.writes_preds_none _ _ rfl]
  · rw [he] at g3; exact g3

end Sys2Proof.Machine
end

