-- ==== Sys2Proof/Laws/Access.lean ====
section
/-! SUPPORT. What the instructions that access the copy's own TCM do (R126, R132 to R136, R143): one load, one store. -/

namespace Sys2Proof.Machine

/-- A read of the copy's own TCM leaves the rest. -/
theorem State.tcmRead_keepsRest (s u : State) (x : Ctx) (a n : Nat) (q : Quad) (hc : x.c < 3)
    (h : s.tcmRead x.t x.c a n = (u, some q)) : s.keepsRest u x := by
  obtain ⟨l, hl⟩ := State.tcmRead_copy s u x.t x.c a n q h
  have hk : u.copy x.key = { s.copy x.key with writeBack := l } := hl
  refine ⟨fun n _ => by rw [hk]; rfl, by rw [hk], fun j hj => ?_, fun page off ho hp => ?_, ?_, ?_, ?_, ?_⟩
  · exact State.tcmRead_other s u x.t x.c a n j q h (by omega)
  · have hne : ∀ o, o < 0x1000 → (pgCore x.key, o) ∈ touchedBy x → regKey page off ≠ regKey (pgCore x.key) o := by
      intro o ho' hm e
      have := regKey_inj ho ho' e
      exact hp (by rw [this.1, this.2]; exact hm)
    have hne' : regKey page off ≠ regKey (pgTriad x.t) 0x28 := by
      intro e
      have := regKey_inj ho (by decide) e
      exact hp (by rw [this.1, this.2]; simp [touchedBy])
    exact State.tcmRead_keeps (fun v => v.reg page off) x.t x.c (fun _ _ => rfl)
      (fun s v => State.reg_setReg_ne _ _ _ _ _ _ (hne 0x148 (by decide) (by simp [touchedBy])))
      (fun s v => State.reg_setReg_ne _ _ _ _ _ _ hne') (fun _ _ => rfl) (fun _ _ => rfl) s u a n q h
  · exact State.tcmRead_keeps (fun v => v.pending) x.t x.c (fun _ _ => rfl) (fun _ _ => rfl) (fun _ _ => rfl) (fun _ _ => rfl)
      (fun _ _ => rfl) s u a n q h
  · exact State.tcmRead_keeps (fun v => v.engines) x.t x.c (fun _ _ => rfl) (fun _ _ => rfl) (fun _ _ => rfl) (fun _ _ => rfl)
      (fun _ _ => rfl) s u a n q h
  · exact State.tcmRead_keeps (fun v => v.links) x.t x.c (fun _ _ => rfl) (fun _ _ => rfl) (fun _ _ => rfl) (fun _ _ => rfl)
      (fun _ _ => rfl) s u a n q h
  · exact State.tcmRead_keeps (fun v => v.timeB) x.t x.c (fun _ _ => rfl) (fun _ _ => rfl) (fun _ _ => rfl) (fun _ _ => rfl)
      (fun _ _ => rfl) s u a n q h

/-- ... and every byte of every memory. -/
theorem State.tcmRead_byteAt (s u : State) (t c a n : Nat) (q : Quad) (h : s.tcmRead t c a n = (u, some q)) (p : Place) (b : Nat) :
    u.byteAt p b = s.byteAt p b := by
  cases p with
  | tcm k =>
    simp only [State.byteAt]
    by_cases hk : k = 3 * t + c
    · obtain ⟨l, hl⟩ := State.tcmRead_copy s u t c a n q h
      rw [hk, hl]
    · rw [State.tcmRead_other s u t c a n k q h hk]
  | sram k =>
    exact congrArg (·.byte b) (State.tcmRead_keeps (fun v => v.sramOf k) t c (fun _ _ => rfl) (fun _ _ => rfl) (fun _ _ => rfl)
      (fun _ _ => rfl) (fun _ _ => rfl) s u a n q h)
  | ddr k =>
    exact congrArg (·.byte b) (State.tcmRead_keeps (fun v => v.ddrOf k) t c (fun _ _ => rfl) (fun _ _ => rfl) (fun _ _ => rfl)
      (fun _ _ => rfl) (fun _ _ => rfl) s u a n q h)

/-- Whether a read of the copy's own TCM gives data does not depend on slot B. -/
theorem State.tcmRead_closeSlot (s : State) (x : Ctx) (a n : Nat) :
    ((s.closeSlot x.key).tcmRead x.t x.c a n).2 = (s.tcmRead x.t x.c a n).2 := by
  have h : ((s.closeSlot x.key).copy (3 * x.t + x.c)).tcm = (s.copy (3 * x.t + x.c)).tcm := by
    unfold State.closeSlot
    rw [show (3 * x.t + x.c) = x.key from rfl, State.copy_setCopy, if_pos rfl]
  have hi : (s.closeSlot x.key).injEcc (pgTriad x.t) x.c = s.injEcc (pgTriad x.t) x.c := rfl
  unfold State.tcmRead
  dsimp only
  rw [h, hi]
  split <;> rfl

/-- A group of one access that heads: what the access and the group's end do, from the state made ready. -/
theorem State.moveGroup_access (s u : State) (x : Ctx) (i : Fla) (vals : List Quad) (h : s.heads x i none = true) (w : Option Nat)
    (l : List Nat) (r : Option Nat) (m : Ram) (a : Option SlotA) (q : List QGroup)
    (hA : (s.fetched x i none).headGroup x i none = u.finishGroup x i none vals)
    (hu : u.copy x.key = (s.copy x.key).stage m l r w a q .none) (hd : u.dies = s.dies) (hk : s.keepsRest u x)
    (he : (flaEff x (s.copy x.key) (s.nextPc x none i) vals i).soft = true) :
    s.retired (s.moveGroup x i none) x i (flaEff x (s.copy x.key) (s.nextPc x none i) vals i) ∧
    (((s.moveGroup x i none).copy x.key).localFlag, ((s.moveGroup x i none).copy x.key).resv) =
      (match (flaEff x (s.copy x.key) (s.nextPc x none i) vals i).special with
       | .reserve a => (true, some a)
       | .clrRes => (false, none)
       | _ => ((s.copy x.key).localFlag, r)) ∧
    (∀ p b, (s.moveGroup x i none).byteAt p b = u.byteAt p b) := by
  obtain ⟨hn, hc, -, hr, -, -, -, -, -, -⟩ := State.heads_spec s x i none h
  have hf : (s.fetchFor x i none).2 = true := by
    simp only [State.ready, Bool.and_eq_true] at hr
    exact hr.2
  have hun : x.t < u.nTriads := by unfold State.nTriads; rw [hd]; exact hn
  have hnx : u.nextPc x none i = s.nextPc x none i := by unfold State.nextPc; rw [hu]; rfl
  obtain ⟨⟨l', w', a', q', hk'⟩, -, -, -⟩ := State.fetched_staged s x i none hc hf
  have hM : s.moveGroup x i none = u.finishGroup x i none vals := by
    rw [State.moveGroup_gone s x i none hr (Or.inl ?_), hA]
    rw [hA, State.finishGroup_gone u x i vals hun hc (by rw [hnx, hu, flaEff_stage]; exact he), hu, hk']
    simp [Copy.stage]
  rw [hM]
  exact State.finish_retired s u x i vals hn hc (State.heads_not_joins s x i h) m l r w a q .none hu hd hk he

/-- One load or LDRS of the copy's own TCM (R126, R136). -/
theorem State.moveGroup_load (s : State) (x : Ctx) (i : Fla) (a : Acc) (q : Quad) (h : s.heads x i none = true)
    (hi : flaAcc x (s.copy x.key) (s.nextPc x none i) i = [a]) (hk : a.kind = .load ∨ a.kind = .ldrs)
    (hf : isFabric a = false) (hr : ((s.fetched x i none).tcmRead x.t x.c a.addr.toNat a.size).2 = some q)
    (he : (flaEff x (s.copy x.key) (s.nextPc x none i) [q] i).soft = true) :
    s.retired (s.moveGroup x i none) x i (flaEff x (s.copy x.key) (s.nextPc x none i) [q] i) ∧
    (((s.moveGroup x i none).copy x.key).localFlag, ((s.moveGroup x i none).copy x.key).resv) =
      (match (flaEff x (s.copy x.key) (s.nextPc x none i) [q] i).special with
       | .reserve a => (true, some a)
       | .clrRes => (false, none)
       | _ => ((s.copy x.key).localFlag, (s.copy x.key).resv)) ∧
    (∀ p b, (s.moveGroup x i none).byteAt p b = s.byteAt p b) := by
  obtain ⟨hn, hc, hho, -, hst, -, -, -, -, -⟩ := State.heads_spec s x i none h
  have hA := State.headGroup_accs s x i none h (flaAcc_notWait x _ _ i (by rw [hi]; simp))
  rw [hi] at hA
  rw [← State.tcmRead_closeSlot] at hr
  generalize (s.fetched x i none).closeSlot x.key = v at hst hA hr
  obtain ⟨⟨l, w, b, qq, hk'⟩, k2, k3, k4⟩ := hst
  have hu : v.tcmRead x.t x.c a.addr.toNat a.size = ((v.tcmRead x.t x.c a.addr.toNat a.size).1, some q) := by rw [← hr]
  generalize (v.tcmRead x.t x.c a.addr.toNat a.size).1 = u at hu
  have hF : v.runAccs x i none [a] [] = u.finishGroup x i none [q] := by
    have hr' : v.tcmRead x.t x.c (reqOf (v.copy x.key) a []).addr (reqOf (v.copy x.key) a []).size = (u, some q) := hu
    rcases hk with hk | hk <;> simp [State.runAccs, hf, hk, hr']
  obtain ⟨l', hl⟩ := State.tcmRead_copy v u x.t x.c a.addr.toNat a.size q hu
  have hl' : u.copy x.key = (s.copy x.key).stage (s.copy x.key).tcm l' (s.copy x.key).resv w b qq .none := by
    have : u.copy x.key = { v.copy x.key with writeBack := l' } := hl
    rw [this, hk', hho]; rfl
  have hd : u.dies = s.dies := (State.tcmRead_keeps (fun v => v.dies) x.t x.c (fun _ _ => rfl) (fun _ _ => rfl) (fun _ _ => rfl)
    (fun _ _ => rfl) (fun _ _ => rfl) v u _ _ q hu).trans k4
  obtain ⟨r1, r2, r3⟩ := State.moveGroup_access s u x i [q] h w l' (s.copy x.key).resv (s.copy x.key).tcm b qq (hA.trans hF) hl' hd
    (State.keepsRest_trans s v u x k2 (State.tcmRead_keepsRest v u x _ _ q hc hu)) he
  exact ⟨r1, r2, fun p b => ((r3 p b).trans (State.tcmRead_byteAt v u x.t x.c _ _ q hu p b)).trans (k3 p b)⟩

/-- A store to the copy's own TCM: what it leaves of everything but that TCM, the mordanting source's dirty blocks, the reservation
and the count of window restarts. -/
theorem State.tcmWrite_keeps {α : Type} (f : State → α) (t c : Nat)
    (hc : ∀ (s : State) m l r w g, f (s.setCopy (3 * t + c)
      { s.copy (3 * t + c) with tcm := m, writeBack := l, resv := r, win := w, queue := g }) = f s)
    (ht : ∀ (s : State) l, f (s.setTriad t { s.triad t with dirty := l }) = f s)
    (hr : ∀ (s : State) (v : Word), f (s.setReg (pgCore (3 * t + c)) 0x138 v) = f s) (s : State) (a n : Nat)
    (q : Quad) : f (s.tcmWrite t c a n q) = f s := by
  have hd : ∀ s' : State, f (s'.markDirty t c a n) = f s' := by
    intro s'
    unfold State.markDirty
    dsimp only
    split
    · exact ht _ _
    · rfl
  unfold State.tcmWrite
  dsimp only
  split
  · unfold State.count
    rw [hr, hd]
    exact hc _ _ _ _ _ _
  · rw [hd]
    exact hc _ _ _ _ _ _

/-- The storing copy after it. -/
theorem State.tcmWrite_copy (s : State) (t c a n : Nat) (q : Quad) :
    (s.tcmWrite t c a n q).copy (3 * t + c) = { s.copy (3 * t + c) with
      tcm := (s.copy (3 * t + c)).tcm.writeBytes a n q
      writeBack := (s.copy (3 * t + c)).writeBack.filter fun w => decide (w < a / 8) || decide ((a + n - 1) / 8 < w)
      resv := if (s.copy (3 * t + c)).storeHits a n then none else (s.copy (3 * t + c)).resv
      win := if (s.copy (3 * t + c)).hitsFetched a n then none else (s.copy (3 * t + c)).win
      queue := if (s.copy (3 * t + c)).hitsFetched a n then [] else (s.copy (3 * t + c)).queue } := by
  have hd : ∀ s' : State, (s'.markDirty t c a n).copy (3 * t + c) = s'.copy (3 * t + c) := by
    intro s'
    unfold State.markDirty
    dsimp only
    split <;> rfl
  unfold State.tcmWrite
  dsimp only
  split
  · rw [State.count_copy, hd, State.copy_setCopy_self]; rfl
  · rw [hd, State.copy_setCopy_self]; rfl

theorem State.tcmWrite_other (s : State) (t c a n j : Nat) (q : Quad) (hj : j ≠ 3 * t + c) :
    (s.tcmWrite t c a n q).copy j = s.copy j :=
  State.tcmWrite_keeps (fun u => u.copy j) t c (fun s m l r w g => by simp [State.copy_setCopy, hj]) (fun _ _ => rfl) (fun _ _ => rfl)
    s a n q

theorem State.tcmWrite_keepsRest (s : State) (x : Ctx) (a n : Nat) (q : Quad) (hc : x.c < 3) :
    s.keepsRest (s.tcmWrite x.t x.c a n q) x := by
  have hk : (s.tcmWrite x.t x.c a n q).copy x.key = _ := State.tcmWrite_copy s x.t x.c a n q
  refine ⟨fun n _ => by rw [hk]; rfl, by rw [hk]; rfl, fun j hj => ?_, fun page off ho hp => ?_, ?_, ?_, ?_, ?_⟩
  · exact State.tcmWrite_other s x.t x.c a n j q (by unfold Ctx.key at *; omega)
  · refine State.tcmWrite_keeps (fun v => v.reg page off) x.t x.c (fun _ _ _ _ _ _ => rfl) (fun _ _ => rfl)
      (fun s v => State.reg_setReg_ne _ _ _ _ _ _ ?_) s a n q
    intro e
    have := regKey_inj ho (by decide) e
    exact hp (by rw [this.1, this.2]; simp [touchedBy, Ctx.key])
  · exact State.tcmWrite_keeps (fun v => v.pending) x.t x.c (fun _ _ _ _ _ _ => rfl) (fun _ _ => rfl) (fun _ _ => rfl) s a n q
  · exact State.tcmWrite_keeps (fun v => v.engines) x.t x.c (fun _ _ _ _ _ _ => rfl) (fun _ _ => rfl) (fun _ _ => rfl) s a n q
  · exact State.tcmWrite_keeps (fun v => v.links) x.t x.c (fun _ _ _ _ _ _ => rfl) (fun _ _ => rfl) (fun _ _ => rfl) s a n q
  · exact State.tcmWrite_keeps (fun v => v.timeB) x.t x.c (fun _ _ _ _ _ _ => rfl) (fun _ _ => rfl) (fun _ _ => rfl) s a n q

/-- The bytes of every memory after a store to a copy's own TCM: the stored ones hold the data, every other stands. -/
theorem State.tcmWrite_byteAt (s : State) (t c a n : Nat) (q : Quad) (h : n ≤ 16) (p : Place) (b : Nat) :
    (s.tcmWrite t c a n q).byteAt p b =
      if p = .tcm (3 * t + c) ∧ a ≤ b ∧ b < a + n then quadByte q (b - a) else s.byteAt p b := by
  cases p with
  | tcm k =>
    simp only [State.byteAt]
    by_cases hk : k = 3 * t + c
    · subst hk
      rw [State.tcmWrite_copy, Ram.byte_writeBytes _ _ _ _ _ h]
      simp
    · rw [State.tcmWrite_other _ _ _ _ _ _ _ hk, if_neg]
      simp [hk]
  | sram k =>
    rw [if_neg (by simp)]
    exact congrArg (·.byte b) (State.tcmWrite_keeps (fun v => v.sramOf k) t c (fun _ _ _ _ _ _ => rfl) (fun _ _ => rfl) (fun _ _ => rfl)
      s a n q)
  | ddr k =>
    rw [if_neg (by simp)]
    exact congrArg (·.byte b) (State.tcmWrite_keeps (fun v => v.ddrOf k) t c (fun _ _ _ _ _ _ => rfl) (fun _ _ => rfl) (fun _ _ => rfl)
      s a n q)

/-- A store whose words carry no error goes to the TCM as it stands (R219, R223). -/
theorem State.tcmStore_clean (s : State) (t c a n : Nat) (q : Quad) (hb : partialBad (s.copy (3 * t + c)).tcm a n = [])
    (hx : partialFixed (s.copy (3 * t + c)).tcm a n = []) : s.tcmStore t c a n q = (s.tcmWrite t c a n q, true) := by
  unfold State.tcmStore
  dsimp only
  rw [hb, hx]; rfl

/-- One store to the copy's own TCM of words that carry no error (R126, R133). -/
theorem State.moveGroup_store (s : State) (x : Ctx) (i : Fla) (a : Acc) (v : Quad) (h : s.heads x i none = true)
    (hi : flaAcc x (s.copy x.key) (s.nextPc x none i) i = [a]) (hk : a.kind = .store ∨ a.kind = .frame)
    (hf : isFabric a = false) (hv : a.data = .lit v) (hz : a.size ≤ 16)
    (hb : partialBad (s.copy x.key).tcm a.addr.toNat a.size = []) (hx : partialFixed (s.copy x.key).tcm a.addr.toNat a.size = [])
    (he : (flaEff x (s.copy x.key) (s.nextPc x none i) [0] i).plain = true) :
    s.retired (s.moveGroup x i none) x i (flaEff x (s.copy x.key) (s.nextPc x none i) [0] i) ∧
    ((s.moveGroup x i none).copy x.key).localFlag = (s.copy x.key).localFlag ∧
    ((s.moveGroup x i none).copy x.key).resv =
      (if (s.copy x.key).storeHits a.addr.toNat a.size then none else (s.copy x.key).resv) ∧
    (∀ p b, (s.moveGroup x i none).byteAt p b =
      if p = .tcm x.key ∧ a.addr.toNat ≤ b ∧ b < a.addr.toNat + a.size then quadByte v (b - a.addr.toNat) else s.byteAt p b) := by
  obtain ⟨hn, hc, hho, -, hst, -, -, -, -, -⟩ := State.heads_spec s x i none h
  have hA := State.headGroup_accs s x i none h (flaAcc_notWait x _ _ i (by rw [hi]; simp))
  rw [hi] at hA
  generalize (s.fetched x i none).closeSlot x.key = u at hst hA
  obtain ⟨⟨l, w, b, qq, hk'⟩, k2, k3, k4⟩ := hst
  have hF : u.runAccs x i none [a] [] = (u.tcmWrite x.t x.c a.addr.toNat a.size v).finishGroup x i none [0] := by
    have hs : u.tcmStore x.t x.c a.addr.toNat a.size v = (u.tcmWrite x.t x.c a.addr.toNat a.size v, true) := by
      apply State.tcmStore_clean <;> (rw [show 3 * x.t + x.c = x.key from rfl, hk']; assumption)
    rcases hk with hk | hk <;> simp [State.runAccs, hf, hk, reqOf, hv, hs]
  have hd : (u.tcmWrite x.t x.c a.addr.toNat a.size v).dies = s.dies :=
    (State.tcmWrite_keeps (fun v => v.dies) x.t x.c (fun _ _ _ _ _ _ => rfl) (fun _ _ => rfl) (fun _ _ => rfl) u _ _ _).trans k4
  have hw : (u.tcmWrite x.t x.c a.addr.toNat a.size v).copy x.key = _ := State.tcmWrite_copy u x.t x.c a.addr.toNat a.size v
  rw [show 3 * x.t + x.c = x.key from rfl, hk', hho] at hw
  have hr := State.moveGroup_access s _ x i [0] h _ _ _ _ _ _ (hA.trans hF) (hw.trans rfl) hd
    (State.keepsRest_trans s u _ x k2 (State.tcmWrite_keepsRest u x _ _ _ hc)) (Eff.plain_soft _ he)
  obtain ⟨r1, r2, r3⟩ := hr
  have hs : (flaEff x (s.copy x.key) (s.nextPc x none i) [0] i).special = .none := by
    simp only [Eff.plain, Bool.and_eq_true, decide_eq_true_eq] at he
    exact he.2
  rw [hs] at r2
  simp only [Prod.mk.injEq] at r2
  refine ⟨r1, r2.1, r2.2, fun p b => ?_⟩
  rw [r3 p b, State.tcmWrite_byteAt u x.t x.c _ _ _ hz p b, k3 p b]; rfl

end Sys2Proof.Machine
end

