-- ==== Sys2Proof/Laws/PerInstr.lean ====
section
/-! SUPPORT. What well-formedness says of each command: an FLA command names a copy of the largest device and meets no condition of
R119; any other has its numbers in range. One lemma per constructor. -/

namespace Sys2Proof.Laws.Wf

open Sys2Proof Sys2Proof.Machine

/-- A well-formed FLA command names a triad and a copy that exist and an instruction that is not illegal; a well-formed command of
any other kind has its operands in range. -/
def Statement (i : Instr) : Prop :=
  i.wf = true →
    match i.fla with
    | some (x, rep, f) => x.t < 64 ∧ x.c < 3 ∧ flaIllegals x rep f = []
    | none => i.inRange = true

theorem statement_of_fla (i : Instr) (x : Ctx) (rep : Option RepKind) (f : Fla) (h : i.fla = some (x, rep, f)) : Statement i := by
  intro hw
  simp only [Instr.wf, h, flaWf, Bool.and_eq_true, decide_eq_true_eq, List.isEmpty_iff] at hw
  rw [h]
  exact ⟨hw.1.1.1, hw.1.1.2, hw.2⟩

theorem statement_of_range (i : Instr) (h : i.fla = none) : Statement i := by
  intro hw
  simp only [Instr.wf, h] at hw
  rw [h]
  exact hw

theorem add (x : Ctx) (d a : Reg) (b : Src2) : Statement (.add x d a b) := statement_of_fla _ _ _ _ rfl
theorem sub (x : Ctx) (d a : Reg) (b : Src2) : Statement (.sub x d a b) := statement_of_fla _ _ _ _ rfl
theorem and (x : Ctx) (d a : Reg) (b : Src2) : Statement (.and x d a b) := statement_of_fla _ _ _ _ rfl
theorem or (x : Ctx) (d a : Reg) (b : Src2) : Statement (.or x d a b) := statement_of_fla _ _ _ _ rfl
theorem xor (x : Ctx) (d a : Reg) (b : Src2) : Statement (.xor x d a b) := statement_of_fla _ _ _ _ rfl
theorem andn (x : Ctx) (d a : Reg) (b : Src2) : Statement (.andn x d a b) := statement_of_fla _ _ _ _ rfl
theorem shl (x : Ctx) (d a : Reg) (b : Src2) : Statement (.shl x d a b) := statement_of_fla _ _ _ _ rfl
theorem shr (x : Ctx) (d a : Reg) (b : Src2) : Statement (.shr x d a b) := statement_of_fla _ _ _ _ rfl
theorem sar (x : Ctx) (d a : Reg) (b : Src2) : Statement (.sar x d a b) := statement_of_fla _ _ _ _ rfl
theorem rol (x : Ctx) (d a : Reg) (b : Src2) : Statement (.rol x d a b) := statement_of_fla _ _ _ _ rfl
theorem ror (x : Ctx) (d a : Reg) (b : Src2) : Statement (.ror x d a b) := statement_of_fla _ _ _ _ rfl
theorem mul (x : Ctx) (d a : Reg) (b : Src2) : Statement (.mul x d a b) := statement_of_fla _ _ _ _ rfl
theorem mulh (x : Ctx) (d a : Reg) (b : Src2) : Statement (.mulh x d a b) := statement_of_fla _ _ _ _ rfl
theorem mulhu (x : Ctx) (d a : Reg) (b : Src2) : Statement (.mulhu x d a b) := statement_of_fla _ _ _ _ rfl
theorem addt (x : Ctx) (d a : Reg) (b : Src2) : Statement (.addt x d a b) := statement_of_fla _ _ _ _ rfl
theorem subt (x : Ctx) (d a b : Reg) : Statement (.subt x d a b) := statement_of_fla _ _ _ _ rfl
theorem mult (x : Ctx) (d a b : Reg) : Statement (.mult x d a b) := statement_of_fla _ _ _ _ rfl
theorem div (x : Ctx) (d a b : Reg) : Statement (.div x d a b) := statement_of_fla _ _ _ _ rfl
theorem divu (x : Ctx) (d a b : Reg) : Statement (.divu x d a b) := statement_of_fla _ _ _ _ rfl
theorem rem (x : Ctx) (d a b : Reg) : Statement (.rem x d a b) := statement_of_fla _ _ _ _ rfl
theorem remu (x : Ctx) (d a b : Reg) : Statement (.remu x d a b) := statement_of_fla _ _ _ _ rfl
theorem min (x : Ctx) (d a b : Reg) : Statement (.min x d a b) := statement_of_fla _ _ _ _ rfl
theorem max (x : Ctx) (d a b : Reg) : Statement (.max x d a b) := statement_of_fla _ _ _ _ rfl
theorem minu (x : Ctx) (d a b : Reg) : Statement (.minu x d a b) := statement_of_fla _ _ _ _ rfl
theorem maxu (x : Ctx) (d a b : Reg) : Statement (.maxu x d a b) := statement_of_fla _ _ _ _ rfl
theorem mov (x : Ctx) (d a : Reg) : Statement (.mov x d a) := statement_of_fla _ _ _ _ rfl
theorem movi (x : Ctx) (d : Reg) (v : Word) : Statement (.movi x d v) := statement_of_fla _ _ _ _ rfl
theorem movis (x : Ctx) (d : Reg) (v : BitVec 32) : Statement (.movis x d v) := statement_of_fla _ _ _ _ rfl
theorem neg (x : Ctx) (d a : Reg) : Statement (.neg x d a) := statement_of_fla _ _ _ _ rfl
theorem not (x : Ctx) (d a : Reg) : Statement (.not x d a) := statement_of_fla _ _ _ _ rfl
theorem sxb (x : Ctx) (d a : Reg) : Statement (.sxb x d a) := statement_of_fla _ _ _ _ rfl
theorem sxh (x : Ctx) (d a : Reg) : Statement (.sxh x d a) := statement_of_fla _ _ _ _ rfl
theorem sxw (x : Ctx) (d a : Reg) : Statement (.sxw x d a) := statement_of_fla _ _ _ _ rfl
theorem zxb (x : Ctx) (d a : Reg) : Statement (.zxb x d a) := statement_of_fla _ _ _ _ rfl
theorem zxh (x : Ctx) (d a : Reg) : Statement (.zxh x d a) := statement_of_fla _ _ _ _ rfl
theorem zxw (x : Ctx) (d a : Reg) : Statement (.zxw x d a) := statement_of_fla _ _ _ _ rfl
theorem clz (x : Ctx) (d a : Reg) : Statement (.clz x d a) := statement_of_fla _ _ _ _ rfl
theorem ctz (x : Ctx) (d a : Reg) : Statement (.ctz x d a) := statement_of_fla _ _ _ _ rfl
theorem popc (x : Ctx) (d a : Reg) : Statement (.popc x d a) := statement_of_fla _ _ _ _ rfl
theorem bswap (x : Ctx) (d a : Reg) : Statement (.bswap x d a) := statement_of_fla _ _ _ _ rfl
theorem movpg (x : Ctx) (d : Reg) : Statement (.movpg x d) := statement_of_fla _ _ _ _ rfl
theorem ld (x : Ctx) (d a : Reg) (o : Disp) : Statement (.ld x d a o) := statement_of_fla _ _ _ _ rfl
theorem lds (x : Ctx) (d a : Reg) (o : Disp) : Statement (.lds x d a o) := statement_of_fla _ _ _ _ rfl
theorem ldpc (x : Ctx) (d : Reg) (o : BitVec 32) : Statement (.ldpc x d o) := statement_of_fla _ _ _ _ rfl
theorem st (x : Ctx) (d a : Reg) (o : Disp) : Statement (.st x d a o) := statement_of_fla _ _ _ _ rfl
theorem sti (x : Ctx) (a : Reg) (o : Disp) (v : Word) : Statement (.sti x a o v) := statement_of_fla _ _ _ _ rfl
theorem lea (x : Ctx) (d a : Reg) (o : Disp) : Statement (.lea x d a o) := statement_of_fla _ _ _ _ rfl
theorem leapc (x : Ctx) (d : Reg) (o : BitVec 32) : Statement (.leapc x d o) := statement_of_fla _ _ _ _ rfl
theorem push (x : Ctx) (a : Reg) : Statement (.push x a) := statement_of_fla _ _ _ _ rfl
theorem pop (x : Ctx) (d : Reg) : Statement (.pop x d) := statement_of_fla _ _ _ _ rfl
theorem br (x : Ctx) (o : Disp) : Statement (.br x o) := statement_of_fla _ _ _ _ rfl
theorem brr (x : Ctx) (a : Reg) : Statement (.brr x a) := statement_of_fla _ _ _ _ rfl
theorem call (x : Ctx) (o : BitVec 32) : Statement (.call x o) := statement_of_fla _ _ _ _ rfl
theorem callr (x : Ctx) (a : Reg) : Statement (.callr x a) := statement_of_fla _ _ _ _ rfl
theorem dbnz (x : Ctx) (d : Reg) (o : Disp) : Statement (.dbnz x d o) := statement_of_fla _ _ _ _ rfl
theorem ret (x : Ctx) : Statement (.ret x) := statement_of_fla _ _ _ _ rfl
theorem rete (x : Ctx) : Statement (.rete x) := statement_of_fla _ _ _ _ rfl
theorem tas (x : Ctx) (p : Pred) (a : Reg) (o : Disp) : Statement (.tas x p a o) := statement_of_fla _ _ _ _ rfl
theorem ldrs (x : Ctx) (d a : Reg) : Statement (.ldrs x d a) := statement_of_fla _ _ _ _ rfl
theorem stc (x : Ctx) (p : Pred) (d a : Reg) : Statement (.stc x p d a) := statement_of_fla _ _ _ _ rfl
theorem clrres (x : Ctx) : Statement (.clrres x) := statement_of_fla _ _ _ _ rfl
theorem mfc (x : Ctx) (d : Reg) (n : BitVec 16) : Statement (.mfc x d n) := statement_of_fla _ _ _ _ rfl
theorem mtc (x : Ctx) (a : Reg) (n : BitVec 16) : Statement (.mtc x a n) := statement_of_fla _ _ _ _ rfl
theorem hold (x : Ctx) (n : BitVec 16) : Statement (.hold x n) := statement_of_fla _ _ _ _ rfl
theorem wait (x : Ctx) : Statement (.wait x) := statement_of_fla _ _ _ _ rfl
theorem msync (x : Ctx) : Statement (.msync x) := statement_of_fla _ _ _ _ rfl
theorem fence (x : Ctx) : Statement (.fence x) := statement_of_fla _ _ _ _ rfl
theorem fenceRule (x : Ctx) : Statement (.fenceRule x) := statement_of_fla _ _ _ _ rfl
theorem nop (x : Ctx) : Statement (.nop x) := statement_of_fla _ _ _ _ rfl
theorem movs (x : Ctx) : Statement (.movs x) := statement_of_fla _ _ _ _ rfl
theorem fills (x : Ctx) : Statement (.fills x) := statement_of_fla _ _ _ _ rfl
theorem cmps (x : Ctx) (p : Pred) : Statement (.cmps x p) := statement_of_fla _ _ _ _ rfl
theorem scans (x : Ctx) (p : Pred) (a : Reg) : Statement (.scans x p a) := statement_of_fla _ _ _ _ rfl
theorem crcs (x : Ctx) : Statement (.crcs x) := statement_of_fla _ _ _ _ rfl
theorem repeatElement (x : Ctx) (r : RepKind) (i : Fla) : Statement (.repeatElement x r i) := statement_of_fla _ _ _ _ rfl
theorem eq (x : Ctx) (p : Pred) (d : Reg) (b : Src2) : Statement (.eq x p d b) := statement_of_fla _ _ _ _ rfl
theorem ne (x : Ctx) (p : Pred) (d : Reg) (b : Src2) : Statement (.ne x p d b) := statement_of_fla _ _ _ _ rfl
theorem lt (x : Ctx) (p : Pred) (d : Reg) (b : Src2) : Statement (.lt x p d b) := statement_of_fla _ _ _ _ rfl
theorem le (x : Ctx) (p : Pred) (d : Reg) (b : Src2) : Statement (.le x p d b) := statement_of_fla _ _ _ _ rfl
theorem gt (x : Ctx) (p : Pred) (d : Reg) (b : Src2) : Statement (.gt x p d b) := statement_of_fla _ _ _ _ rfl
theorem ge (x : Ctx) (p : Pred) (d : Reg) (b : Src2) : Statement (.ge x p d b) := statement_of_fla _ _ _ _ rfl
theorem ltu (x : Ctx) (p : Pred) (d : Reg) (b : Src2) : Statement (.ltu x p d b) := statement_of_fla _ _ _ _ rfl
theorem leu (x : Ctx) (p : Pred) (d : Reg) (b : Src2) : Statement (.leu x p d b) := statement_of_fla _ _ _ _ rfl
theorem gtu (x : Ctx) (p : Pred) (d : Reg) (b : Src2) : Statement (.gtu x p d b) := statement_of_fla _ _ _ _ rfl
theorem geu (x : Ctx) (p : Pred) (d : Reg) (b : Src2) : Statement (.geu x p d b) := statement_of_fla _ _ _ _ rfl
theorem tst (x : Ctx) (p : Pred) (d a : Reg) : Statement (.tst x p d a) := statement_of_fla _ _ _ _ rfl
theorem tsti (x : Ctx) (p : Pred) (d : Reg) (v : BitVec 32) : Statement (.tsti x p d v) := statement_of_fla _ _ _ _ rfl
theorem pand (x : Ctx) (p q : Pred) : Statement (.pand x p q) := statement_of_fla _ _ _ _ rfl
theorem por (x : Ctx) (p q : Pred) : Statement (.por x p q) := statement_of_fla _ _ _ _ rfl
theorem pxor (x : Ctx) (p q : Pred) : Statement (.pxor x p q) := statement_of_fla _ _ _ _ rfl
theorem pandn (x : Ctx) (p q : Pred) : Statement (.pandn x p q) := statement_of_fla _ _ _ _ rfl
theorem pnot (x : Ctx) (p q : Pred) : Statement (.pnot x p q) := statement_of_fla _ _ _ _ rfl
theorem pmov (x : Ctx) (p q : Pred) : Statement (.pmov x p q) := statement_of_fla _ _ _ _ rfl
theorem pset (x : Ctx) (p : Pred) : Statement (.pset x p) := statement_of_fla _ _ _ _ rfl
theorem pclr (x : Ctx) (p : Pred) : Statement (.pclr x p) := statement_of_fla _ _ _ _ rfl
theorem pnz (x : Ctx) (p : Pred) (a : Reg) : Statement (.pnz x p a) := statement_of_fla _ _ _ _ rfl
theorem movgp (x : Ctx) (a : Reg) : Statement (.movgp x a) := statement_of_fla _ _ _ _ rfl
theorem exceptionEntry (t c : Nat) : Statement (.exceptionEntry t c) := statement_of_range _ rfl
theorem interruptRequest (t v : Nat) : Statement (.interruptRequest t v) := statement_of_range _ rfl
theorem tintArrival (t c : Nat) : Statement (.tintArrival t c) := statement_of_range _ rfl
theorem replayLoadRequest (t c : Nat) : Statement (.replayLoadRequest t c) := statement_of_range _ rfl
theorem gatedRequest (t c : Nat) : Statement (.gatedRequest t c) := statement_of_range _ rfl
theorem tmiResponse (t : Nat) : Statement (.tmiResponse t) := statement_of_range _ rfl
theorem lagLimit (t c : Nat) : Statement (.lagLimit t c) := statement_of_range _ rfl
theorem stepBlockEnd (t c avg : Nat) : Statement (.stepBlockEnd t c avg) := statement_of_range _ rfl
theorem tcmScrub (t c : Nat) : Statement (.tcmScrub t c) := statement_of_range _ rfl
theorem tcmWriteBack (t c : Nat) : Statement (.tcmWriteBack t c) := statement_of_range _ rfl
theorem mordantingRoundEnd (t : Nat) (ok : Bool) : Statement (.mordantingRoundEnd t ok) := statement_of_range _ rfl
theorem mordantingPause (t : Nat) : Statement (.mordantingPause t) := statement_of_range _ rfl
theorem mordantingComplete (t : Nat) (ok : Bool) : Statement (.mordantingComplete t ok) := statement_of_range _ rfl
theorem mordtmoExpiry (t : Nat) : Statement (.mordtmoExpiry t) := statement_of_range _ rfl
theorem tmodeWrite (iid t : Nat) (v : Word) : Statement (.tmodeWrite iid t v) := statement_of_range _ rfl
theorem tcfgWrite (iid t : Nat) (v : Word) : Statement (.tcfgWrite iid t v) := statement_of_range _ rfl
theorem irqsetWrite (iid t : Nat) (v : Word) : Statement (.irqsetWrite iid t v) := statement_of_range _ rfl
theorem radmwinWrite (iid t : Nat) (v : Word) : Statement (.radmwinWrite iid t v) := statement_of_range _ rfl
theorem clrmon (iid key : Nat) : Statement (.clrmon iid key) := statement_of_range _ rfl
theorem clrcnt (iid page off : Nat) : Statement (.clrcnt iid page off) := statement_of_range _ rfl
theorem frameStart : Statement (.frameStart) := statement_of_range _ rfl
theorem move (n i : Nat) : Statement (.move n i) := statement_of_range _ rfl
theorem moveWindowEnd (n i : Nat) (commit : Bool) : Statement (.moveWindowEnd n i commit) := statement_of_range _ rfl
theorem release (n i : Nat) : Statement (.release n i) := statement_of_range _ rfl
theorem deadlineEnd (n j : Nat) : Statement (.deadlineEnd n j) := statement_of_range _ rfl
theorem doneComplete (iid n job : Nat) : Statement (.doneComplete iid n job) := statement_of_range _ rfl
theorem doneStopAck (iid n job : Nat) : Statement (.doneStopAck iid n job) := statement_of_range _ rfl
theorem lossNotice (n : Nat) : Statement (.lossNotice n) := statement_of_range _ rfl
theorem completionNotice (n : Nat) : Statement (.completionNotice n) := statement_of_range _ rfl
theorem takeoverNotice (n : Nat) : Statement (.takeoverNotice n) := statement_of_range _ rfl
theorem noticeTimeout (n j : Nat) : Statement (.noticeTimeout n j) := statement_of_range _ rfl
theorem rerunMoveEnd (n j : Nat) : Statement (.rerunMoveEnd n j) := statement_of_range _ rfl
theorem sparedlEnd (n j : Nat) : Statement (.sparedlEnd n j) := statement_of_range _ rfl
theorem vote (n i : Nat) : Statement (.vote n i) := statement_of_range _ rfl
theorem voteWindowEnd (n i : Nat) : Statement (.voteWindowEnd n i) := statement_of_range _ rfl
theorem commit (n i : Nat) : Statement (.commit n i) := statement_of_range _ rfl
theorem tx (q i : Nat) : Statement (.tx q i) := statement_of_range _ rfl
theorem rxchk (q i : Nat) : Statement (.rxchk q i) := statement_of_range _ rfl
theorem tbldataWrite (iid page : Nat) (v : Word) : Statement (.tbldataWrite iid page v) := statement_of_range _ rfl
theorem tblchk (iid : Nat) : Statement (.tblchk iid) := statement_of_range _ rfl
theorem swframeWrite (iid : Nat) (v : Word) : Statement (.swframeWrite iid v) := statement_of_range _ rfl
theorem sctlEnWrite (iid n : Nat) (on : Bool) : Statement (.sctlEnWrite iid n on) := statement_of_range _ rfl
theorem alarmFire (n : Nat) : Statement (.alarmFire n) := statement_of_range _ rfl
theorem srcWrite (iid v : Nat) : Statement (.srcWrite iid v) := statement_of_range _ rfl
theorem sourceLock : Statement (.sourceLock) := statement_of_range _ rfl
theorem sourceFailure : Statement (.sourceFailure) := statement_of_range _ rfl
theorem ppsinEdge : Statement (.ppsinEdge) := statement_of_range _ rfl
theorem txHandoverComplete (q k : Nat) : Statement (.txHandoverComplete q k) := statement_of_range _ rfl
theorem txWindowEnd (q k : Nat) : Statement (.txWindowEnd q k) := statement_of_range _ rfl
theorem sramAccess (n : Nat) : Statement (.sramAccess n) := statement_of_range _ rfl
theorem sramWriteBack (n : Nat) : Statement (.sramWriteBack n) := statement_of_range _ rfl
theorem zeroFillComplete (n : Nat) (ok : Bool) : Statement (.zeroFillComplete n ok) := statement_of_range _ rfl
theorem ddr4Request (k : Nat) : Statement (.ddr4Request k) := statement_of_range _ rfl
theorem maintenanceWindow (k : Nat) : Statement (.maintenanceWindow k) := statement_of_range _ rfl
theorem dcfgWrite (iid k : Nat) (v : Word) : Statement (.dcfgWrite iid k v) := statement_of_range _ rfl
theorem start (iid k : Nat) : Statement (.start iid k) := statement_of_range _ rfl
theorem trainingComplete (k : Nat) (pass : Bool) (us : Nat) : Statement (.trainingComplete k pass us) := statement_of_range _ rfl
theorem trainingTimeout (k : Nat) : Statement (.trainingTimeout k) := statement_of_range _ rfl
theorem init (iid k : Nat) : Statement (.init iid k) := statement_of_range _ rfl
theorem initComplete (k : Nat) : Statement (.initComplete k) := statement_of_range _ rfl
theorem mirror (iid k : Nat) (on : Bool) : Statement (.mirror iid k on) := statement_of_range _ rfl
theorem retrain (iid k : Nat) : Statement (.retrain iid k) := statement_of_range _ rfl
theorem retire (iid k : Nat) : Statement (.retire iid k) := statement_of_range _ rfl
theorem selfRefreshExitComplete (k : Nat) : Statement (.selfRefreshExitComplete k) := statement_of_range _ rfl
theorem commitFwall (iid n : Nat) (v : Word) : Statement (.commitFwall iid n v) := statement_of_range _ rfl
theorem clrdeny (iid n : Nat) : Statement (.clrdeny iid n) := statement_of_range _ rfl
theorem flitArrival (f : FlitIn) : Statement (.flitArrival f) := statement_of_range _ rfl
theorem tagTimeout (tag : Nat) : Statement (.tagTimeout tag) := statement_of_range _ rfl
theorem crcFeed (n : Nat) : Statement (.crcFeed n) := statement_of_range _ rfl
theorem crctlInit (iid n mask : Nat) : Statement (.crctlInit iid n mask) := statement_of_range _ rfl
theorem ccfgWrite (iid n i : Nat) (v : Word) : Statement (.ccfgWrite iid n i v) := statement_of_range _ rfl
theorem cvalueWrite (iid n i : Nat) (count : Bool) (v : Word) : Statement (.cvalueWrite iid n i count v) := statement_of_range _ rfl
theorem faultEvent (src code unit : Nat) (detail : Word) : Statement (.faultEvent src code unit detail) := statement_of_range _ rfl
theorem railFault (src pair : Nat) : Statement (.railFault src pair) := statement_of_range _ rfl
theorem takeEvent : Statement (.takeEvent) := statement_of_range _ rfl
theorem resetActionExpiry : Statement (.resetActionExpiry) := statement_of_range _ rfl
theorem railSweep (bad : List Nat) : Statement (.railSweep bad) := statement_of_range _ rfl
theorem leakClear : Statement (.leakClear) := statement_of_range _ rfl
theorem erroutToggle : Statement (.erroutToggle) := statement_of_range _ rfl
theorem rtblchk (iid : Nat) : Statement (.rtblchk iid) := statement_of_range _ rfl
theorem rswgenWrite (iid : Nat) (v : Word) : Statement (.rswgenWrite iid v) := statement_of_range _ rfl
theorem reactionBankExchange : Statement (.reactionBankExchange) := statement_of_range _ rfl
theorem flogselWrite (iid : Nat) (v : Word) : Statement (.flogselWrite iid v) := statement_of_range _ rfl
theorem clrfirst (iid : Nat) : Statement (.clrfirst iid) := statement_of_range _ rfl
theorem clrlog (iid : Nat) : Statement (.clrlog iid) := statement_of_range _ rfl
theorem arm (iid page : Nat) (v : Word) : Statement (.arm iid page v) := statement_of_range _ rfl
theorem lctlEnWrite (iid l : Nat) (on : Bool) : Statement (.lctlEnWrite iid l on) := statement_of_range _ rfl
theorem signalDetect (l : Nat) : Statement (.signalDetect l) := statement_of_range _ rfl
theorem autoNegotiation (l abilities : Nat) (fec : Bool) (page : Nat) : Statement (.autoNegotiation l abilities fec page) := statement_of_range _ rfl
theorem capSend (l : Nat) : Statement (.capSend l) := statement_of_range _ rfl
theorem cap (rx : BvlRx) (flags : Nat) (c : Cap) : Statement (.cap rx flags c) := statement_of_range _ rfl
theorem rateChange (l : Nat) : Statement (.rateChange l) := statement_of_range _ rfl
theorem equaliserConverged (l : Nat) : Statement (.equaliserConverged l) := statement_of_range _ rfl
theorem trainingLimit (l : Nat) : Statement (.trainingLimit l) := statement_of_range _ rfl
theorem confirmTimeout (l : Nat) : Statement (.confirmTimeout l) := statement_of_range _ rfl
theorem laneFailure (l why : Nat) : Statement (.laneFailure l why) := statement_of_range _ rfl
theorem spareTimeout (l : Nat) : Statement (.spareTimeout l) := statement_of_range _ rfl
theorem downExpiry (i : Nat) : Statement (.downExpiry i) := statement_of_range _ rfl
theorem retune (iid l : Nat) : Statement (.retune iid l) := statement_of_range _ rfl
theorem reneg (iid l : Nat) : Statement (.reneg iid l) := statement_of_range _ rfl
theorem sendindigo (iid l : Nat) : Statement (.sendindigo iid l) := statement_of_range _ rfl
theorem indigoDetect (l : Nat) : Statement (.indigoDetect l) := statement_of_range _ rfl
theorem data (rx : BvlRx) (bytes : List Byte) : Statement (.data rx bytes) := statement_of_range _ rfl
theorem req (rx : BvlRx) (addr kind width : Nat) (bytes : List Byte) : Statement (.req rx addr kind width bytes) := statement_of_range _ rfl
theorem rsp (rx : BvlRx) (status : Nat) (bytes : List Byte) : Statement (.rsp rx status bytes) := statement_of_range _ rfl
theorem voteFrame (rx : BvlRx) (v : VoteRec) : Statement (.voteFrame rx v) := statement_of_range _ rfl
theorem time (rx : BvlRx) (tx rxlast txlast : Nat) : Statement (.time rx tx rxlast txlast) := statement_of_range _ rfl
theorem svc (rx : BvlRx) (code arg : Nat) (msg : List Byte) : Statement (.svc rx code arg msg) := statement_of_range _ rfl
theorem ack (rx : BvlRx) : Statement (.ack rx) := statement_of_range _ rfl
theorem nak (rx : BvlRx) : Statement (.nak rx) := statement_of_range _ rfl
theorem reorderTimeout (i vc : Nat) : Statement (.reorderTimeout i vc) := statement_of_range _ rfl
theorem retryTimeout (i vc : Nat) : Statement (.retryTimeout i vc) := statement_of_range _ rfl
theorem timeSend (i : Nat) : Statement (.timeSend i) := statement_of_range _ rfl
theorem holdover : Statement (.holdover) := statement_of_range _ rfl
theorem holdoverExpiry : Statement (.holdoverExpiry) := statement_of_range _ rfl
theorem peerHoldTimeout (i tag : Nat) (serving : Bool) (dev : Nat) : Statement (.peerHoldTimeout i tag serving dev) := statement_of_range _ rfl
theorem blcfgWrite (iid i : Nat) (v : Word) : Statement (.blcfgWrite iid i v) := statement_of_range _ rfl
theorem restart (iid q : Nat) : Statement (.restart iid q) := statement_of_range _ rfl
theorem ethernetFrame (mac : Nat) (f : EthFrame) : Statement (.ethernetFrame mac f) := statement_of_range _ rfl
theorem tailWrite (iid mac : Nat) (rx : Bool) (v : Word) : Statement (.tailWrite iid mac rx v) := statement_of_range _ rfl
theorem transmitDescriptorReturned (mac : Nat) : Statement (.transmitDescriptorReturned mac) := statement_of_range _ rfl
theorem outboundAccess : Statement (.outboundAccess) := statement_of_range _ rfl
theorem queueEntry (a : VmeAns) : Statement (.queueEntry a) := statement_of_range _ rfl
theorem busTimer (done : Nat) : Statement (.busTimer done) := statement_of_range _ rfl
theorem queueTimeout : Statement (.queueTimeout) := statement_of_range _ rfl
theorem inboundCycle (c : VmeCycle) : Statement (.inboundCycle c) := statement_of_range _ rfl
theorem sysresetIn : Statement (.sysresetIn) := statement_of_range _ rfl
theorem sysresetExpiry : Statement (.sysresetExpiry) := statement_of_range _ rfl
theorem vcfgWrite (iid : Nat) (v : Word) : Statement (.vcfgWrite iid v) := statement_of_range _ rfl
theorem virqWrite (iid : Nat) (v : Word) : Statement (.virqWrite iid v) := statement_of_range _ rfl
theorem iack (level : Nat) : Statement (.iack level) := statement_of_range _ rfl
theorem irqAsserted (level : Nat) : Statement (.irqAsserted level) := statement_of_range _ rfl
theorem vintpopRead (iid : Nat) : Statement (.vintpopRead iid) := statement_of_range _ rfl
theorem vmemapWrite (iid off : Nat) (v : Word) : Statement (.vmemapWrite iid off v) := statement_of_range _ rfl
theorem pcfgWrite (iid p : Nat) (v : Word) : Statement (.pcfgWrite iid p v) := statement_of_range _ rfl
theorem discWrite (iid : Nat) (v : Word) : Statement (.discWrite iid v) := statement_of_range _ rfl
theorem mailboxHeaderWrite (iid k m : Nat) (v : Word) : Statement (.mailboxHeaderWrite iid k m v) := statement_of_range _ rfl
theorem canFrameReceived (k : Nat) (hdr : Word) (bytes : List Byte) : Statement (.canFrameReceived k hdr bytes) := statement_of_range _ rfl
theorem recover (iid k : Nat) : Statement (.recover iid k) := statement_of_range _ rfl
theorem udataWrite (iid k : Nat) (v : Word) : Statement (.udataWrite iid k v) := statement_of_range _ rfl
theorem udataRead (iid k : Nat) : Statement (.udataRead iid k) := statement_of_range _ rfl
theorem uartCharacter (k ch err : Nat) : Statement (.uartCharacter k ch err) := statement_of_range _ rfl
theorem mdioGo (iid i : Nat) (v : Word) : Statement (.mdioGo iid i v) := statement_of_range _ rfl
theorem icmdStart (iid k : Nat) : Statement (.icmdStart iid k) := statement_of_range _ rfl
theorem icmdWrite (iid k data : Nat) : Statement (.icmdWrite iid k data) := statement_of_range _ rfl
theorem icmdReadAck (iid k : Nat) : Statement (.icmdReadAck iid k) := statement_of_range _ rfl
theorem icmdReadNack (iid k : Nat) : Statement (.icmdReadNack iid k) := statement_of_range _ rfl
theorem icmdStop (iid k : Nat) : Statement (.icmdStop iid k) := statement_of_range _ rfl
theorem iresRead (iid k : Nat) : Statement (.iresRead iid k) := statement_of_range _ rfl
theorem gsetWrite (iid : Nat) (v : Word) : Statement (.gsetWrite iid v) := statement_of_range _ rfl
theorem gclrWrite (iid : Nat) (v : Word) : Statement (.gclrWrite iid v) := statement_of_range _ rfl
theorem gpioInputChange (levels : Nat) : Statement (.gpioInputChange levels) := statement_of_range _ rfl
theorem canFrameSent (k r : Nat) : Statement (.canFrameSent k r) := statement_of_range _ rfl
theorem recoverySequenceComplete (k : Nat) : Statement (.recoverySequenceComplete k) := statement_of_range _ rfl
theorem uartCharacterSent (k : Nat) : Statement (.uartCharacterSent k) := statement_of_range _ rfl
theorem mdioFrameDone (i data : Nat) : Statement (.mdioFrameDone i data) := statement_of_range _ rfl
theorem i2cCommandComplete (k data : Nat) (ack : Bool) : Statement (.i2cCommandComplete k data ack) := statement_of_range _ rfl
theorem i2cSlaveAddressed (k : Nat) : Statement (.i2cSlaveAddressed k) := statement_of_range _ rfl
theorem mgmtLinkDown (i : Nat) : Statement (.mgmtLinkDown i) := statement_of_range _ rfl
theorem domainRequest (iid : Nat) (rdom : Bool) (v : Word) : Statement (.domainRequest iid rdom v) := statement_of_range _ rfl
theorem domainSwitchComplete (d : Nat) (late : Bool) : Statement (.domainSwitchComplete d late) := statement_of_range _ rfl
theorem plWrite (iid t : Nat) (v : Word) : Statement (.plWrite iid t v) := statement_of_range _ rfl
theorem levelChangeComplete (t : Nat) : Statement (.levelChangeComplete t) := statement_of_range _ rfl
theorem entryStageComplete (t : Nat) : Statement (.entryStageComplete t) := statement_of_range _ rfl
theorem wake (t v : Nat) : Statement (.wake t v) := statement_of_range _ rfl
theorem wakeSource (src idx : Nat) : Statement (.wakeSource src idx) := statement_of_range _ rfl
theorem thermalSample (t0 t1 tio : Nat) : Statement (.thermalSample t0 t1 tio) := statement_of_range _ rfl
theorem regulatorOutOfRegulation (t : Nat) : Statement (.regulatorOutOfRegulation t) := statement_of_range _ rfl
theorem dmodeWrite (iid v : Nat) : Statement (.dmodeWrite iid v) := statement_of_range _ rfl
theorem clrabort (iid : Nat) : Statement (.clrabort iid) := statement_of_range _ rfl
theorem powerOnReset (cause devid : Nat) : Statement (.powerOnReset cause devid) := statement_of_range _ rfl
theorem startStepComplete (r : StartResult) : Statement (.startStepComplete r) := statement_of_range _ rfl
theorem deviceReset (iid key : Nat) : Statement (.deviceReset iid key) := statement_of_range _ rfl
theorem dieReset (iid key d : Nat) : Statement (.dieReset iid key d) := statement_of_range _ rfl
theorem regionReset (iid key n : Nat) : Statement (.regionReset iid key n) := statement_of_range _ rfl
theorem triadReset (iid key t : Nat) : Statement (.triadReset iid key t) := statement_of_range _ rfl
theorem debugReset : Statement (.debugReset) := statement_of_range _ rfl
theorem startok (iid : Nat) : Statement (.startok iid) := statement_of_range _ rfl
theorem starttmoExpiry : Statement (.starttmoExpiry) := statement_of_range _ rfl
theorem step9Timeout : Statement (.step9Timeout) := statement_of_range _ rfl
theorem retryExpiry : Statement (.retryExpiry) := statement_of_range _ rfl
theorem go (iid : Nat) (v : Word) : Statement (.go iid v) := statement_of_range _ rfl
theorem bistRunEnd (pass : Bool) : Statement (.bistRunEnd pass) := statement_of_range _ rfl
theorem resetComplete (kind inst : Nat) : Statement (.resetComplete kind inst) := statement_of_range _ rfl
theorem serviceMessage (ch src : Nat) (bytes : List Byte) : Statement (.serviceMessage ch src bytes) := statement_of_range _ rfl
theorem mailboxPoll : Statement (.mailboxPoll) := statement_of_range _ rfl
theorem getseq (ch : Nat) : Statement (.getseq ch) := statement_of_range _ rfl
theorem resend (ch : Nat) : Statement (.resend ch) := statement_of_range _ rfl
theorem readreg (ch : Nat) : Statement (.readreg ch) := statement_of_range _ rfl
theorem logread (ch : Nat) : Statement (.logread ch) := statement_of_range _ rfl
theorem writereg (ch : Nat) : Statement (.writereg ch) := statement_of_range _ rfl
theorem msg (ch : Nat) : Statement (.msg ch) := statement_of_range _ rfl
theorem flashwrite (ch : Nat) : Statement (.flashwrite ch) := statement_of_range _ rfl
theorem flasherase (ch : Nat) : Statement (.flasherase ch) := statement_of_range _ rfl
theorem verify (ch : Nat) : Statement (.verify ch) := statement_of_range _ rfl
theorem setpref (ch : Nat) : Statement (.setpref ch) := statement_of_range _ rfl
theorem dirset (ch : Nat) : Statement (.dirset ch) := statement_of_range _ rfl
theorem loadtable (ch : Nat) : Statement (.loadtable ch) := statement_of_range _ rfl
theorem loadreact (ch : Nat) : Statement (.loadreact ch) := statement_of_range _ rfl
theorem loadtriad (ch : Nat) : Statement (.loadtriad ch) := statement_of_range _ rfl
theorem loadmcode (ch : Nat) : Statement (.loadmcode ch) := statement_of_range _ rfl
theorem wardenswap (ch : Nat) (takes : Bool) : Statement (.wardenswap ch takes) := statement_of_range _ rfl
theorem handoverTimeout : Statement (.handoverTimeout) := statement_of_range _ rfl
theorem reset (ch : Nat) : Statement (.reset ch) := statement_of_range _ rfl
theorem installset (ch : Nat) : Statement (.installset ch) := statement_of_range _ rfl
theorem revokekey (ch : Nat) : Statement (.revokekey ch) := statement_of_range _ rfl
theorem send (iid : Nat) : Statement (.send iid) := statement_of_range _ rfl
theorem msgin7Read (iid : Nat) : Statement (.msgin7Read iid) := statement_of_range _ rfl
theorem acknowledgeWaitExpiry : Statement (.acknowledgeWaitExpiry) := statement_of_range _ rfl
theorem pglockWrite (iid page : Nat) : Statement (.pglockWrite iid page) := statement_of_range _ rfl
theorem registerWrite (iid page off n : Nat) (v : Word) : Statement (.registerWrite iid page off n v) := statement_of_range _ rfl

end Sys2Proof.Laws.Wf
end

