-- ==== Sys2Proof/Machine/Pins.lean ====
section
/-! DEFINITION. What every pin does in every device state (R352, R376, R390, R436): a view of the state, which no command reads. -/

namespace Sys2Proof.Machine

/-- The pins, by the groups of R436, with their index. -/
inductive Pin where
  | errout | control | ppsout | spif
  | mgmt (i : Nat) | uartTx (k : Nat) | uartRx (k : Nat) | uartDe (k : Nat) | gpio (n : Nat) | i2c (k : Nat)
  | canTx (k : Nat) | vme
  /-- CKE and RESET_n of a channel; its other pins -/
  | ddrHeld (k : Nat) | ddr (k : Nat)
  | lane (l : Nat)
deriving DecidableEq, Repr

/-- What a pin shows. -/
inductive PinShows where
  /-- high impedance -/
  | float
  /-- high impedance, with its wake detector fed (R365) -/
  | wake
  /-- held by the retention latches (R239) -/
  | retained
  /-- an input at work -/
  | input
  /-- ERROUT: the error state; the healthy pair with its phase (R276) -/
  | error
  | healthy (phase : Bool)
  /-- driven low or high by its SAFE record (R281) -/
  | low | high
  /-- its port drives it -/
  | works
  /-- a rack lane idle, a join lane with service frames only (R275) -/
  | idle | service
deriving DecidableEq, Repr

/-- A pin of the SAFE groups: its record's state where it has left its function. -/
def State.pinOverride (s : State) (g i : Nat) : Option PinShows :=
  (AMap.find? s.pins (256 * g + i)).map fun v => if v = 1 then .low else if v = 2 then .high else .float

/-- Steps 2 to 8 of a start. -/
def State.pinStart (s : State) : Bool := decide (s.fld pgWarden 0x108 3 0 ≤ 1)

/-- A pin of a FABIO port (R352, R376, R436): group and index of its SAFE record, whether the configuration has enabled the
port, whether the port works in Umber mode, what the pin shows in Standby and Deep. -/
def State.fabPin (s : State) (g i : Nat) (on umberWorks : Bool) (asleep : PinShows) : PinShows :=
  if s.asleep then asleep
  else if s.fabio = false ∨ s.fld pgWarden 0x108 3 0 = 5 then .float
  else if s.umber then (if umberWorks then .works else .float)
  else match s.pinOverride g i with
    | some v => v
    | none => if s.pinStart && !on then .float else .works

/-- A pin of the legacy bank (R352, R436). -/
def State.legacyPin (s : State) (g i : Nat) (on : Bool) : PinShows :=
  if s.asleep || s.umber || !s.legacyOn || decide (s.fld pgWarden 0x108 3 0 = 5) || (s.pinStart && !on) then .float
  else (s.pinOverride g i).getD .works

/-- A pin of a DDR4 channel (R352, R436); `held`: CKE or RESET_n. -/
def State.ddrPin (s : State) (k : Nat) (held : Bool) : PinShows :=
  if s.asleep then (if held && s.dmode == 1 then .retained else .float)
  else if s.umber || !s.ddrOn k || decide (s.dstate k ≤ 1) then .float
  else .works

/-- What a pin shows (R436). -/
def State.pinShows (s : State) (p : Pin) : PinShows :=
  match p with
  | .errout => if s.fcol.errShown then .error else .healthy s.fcol.errPhase
  | .control => .input
  | .ppsout => s.fabPin 4 0 (s.bit pgTime 0x100 8) false .float
  | .spif => s.fabPin 8 0 (!s.pinStart || decide (4 ≤ s.fld pgWarden 0x108 11 8)) true .float
  | .mgmt i => s.fabPin 7 i (s.bit (pgMgmt i) 0x100 0) (i == 0) .float
  | .uartTx k => s.fabPin 1 k (s.bit (pgUart k) 0x100 0) (k == 0) .float
  | .uartRx k => if s.asleep || !s.fabio then (if s.asleep && k == 0 then .wake else .float) else .input
  | .uartDe k => s.fabPin 2 k (s.bit (pgUart k) 0x100 0) (k == 0) .float
  | .gpio n => s.fabPin 0 n (s.bit pgGpio 0x100 n) false (if n < 4 then .wake else .float)
  | .i2c k => s.fabPin 6 k false false .float
  | .canTx k => s.legacyPin 3 k (s.bit (pgCan k) 0x108 0)
  | .vme => s.legacyPin 5 0 (s.bit pgVme 0x100 0)
  | .ddrHeld k => s.ddrPin k true
  | .ddr k => s.ddrPin k false
  | .lane l =>
    if s.asleep then .wake
    else if s.umber = true ∨ s.quadOn (l / 4) = false ∨ s.laneState l = 0 then .float
    else if s.dsafe then (if l < 16 then .service else .idle)
    else .works

end Sys2Proof.Machine
end

