-- ==== Sys2Proof/Tests/Slice0.lean ====
section
/-! SUPPORT. Tests: each statement's hypotheses are met by a concrete state (the theorems named witness_), single commands give what the
spec says (test_), ill-formed commands are refused, and bytes written out from the encoding tables decode (R102 to R119). -/

namespace Sys2Proof.Tests

set_option Elab.async false

open Sys2Proof Sys2Proof.Machine

/-! Small states. -/

/-- Several fields at once: page, offset, high bit, low bit, value. -/
def setFlds (s : State) (l : List (Nat × Nat × Nat × Nat × Nat)) : State :=
  l.foldl (fun s e => s.setFld e.1 e.2.1 e.2.2.1 e.2.2.2.1 e.2.2.2.2) s

/-- A running copy at Machine level: a zeroed TCM, the pc at 0x1000, general register slot n at 0x2000 + 64 n. -/
def runner : Copy := { Copy.off.start 0 with
  tcm := Ram.filled 0, pc := 0x1000, g := (List.range 18).map fun n => (n, BitVec.ofNat 64 (0x2000 + 64 * n)) }

/-- Operational, region 0 with power, triad 0 running in Triple. -/
def lab : State :=
  let s : State := { State.reset with
    fabio := true, fab := true, aoc := true, copies := [(0, runner), (1, runner), (2, runner)]
    triads := [(0, { Triad.off with mode := 1 })] }
  (setFlds s [(pgWarden, 0x108, 3, 0, 3), (pgPwr, 0x138, 0, 0, 1), (pgPwr, 0x128, 0, 0, 1)]).setPowerState 0 2

/-- The same with copy A changed. -/
def labA (f : Copy → Copy) : State := lab.setCopy 0 (f runner)

/-- The same with every copy changed. -/
def labAll (f : Copy → Copy) : State := (List.range 3).foldl (fun s c => s.setCopy c (f runner)) lab

/-- The same with the triad changed. -/
def labT (f : Triad → Triad) : State := lab.setTriad 0 (f (lab.triad 0))

/-- Copy A of triad 0, and the same with an operation width. -/
def xA : Ctx := { t := 0, c := 0 }
def xW (w : Width) : Ctx := { t := 0, c := 0, w := w }

/-- A command runs on to a next state that passes a check. -/
def gives (s : State) (c : Instr) (p : State → Bool) : Bool :=
  match exec c s with
  | .next t => p t
  | _ => false

/-- The check form of `State.settled`. -/
def calm (s : State) : Bool :=
  (s.resps.all fun e => match e.1 with | .tmi _ _ => true | _ => false) && decide (s.svc.op = none)

theorem settled_of_calm (s : State) (h : calm s = true) : s.settled := by
  simp only [calm, Bool.and_eq_true, List.all_eq_true, decide_eq_true_eq] at h
  refine ⟨fun e he => ?_, h.2⟩
  have := h.1 e he
  split at this
  · exact ⟨_, _, by assumption⟩
  · cases this

/-- The check form of `State.reaches`. -/
def hits (s : State) (iid page off n : Nat) (v : Word) (k : PageKind) (i : Nat) (new : Word) : Bool :=
  let w := wrAt iid page off n v
  decide (off < 0x1000) && decide (s.pageFor iid (regAddr page off) n .store = (s, some (k, i))) &&
  decide (s.bit pgImage 0x100 0 = false ∨ wardenOnly k w.off = false ∨ iid = 0x0200) &&
  (match s.planWrite k w with
    | .go _ old m false => decide (old = s.reg page w.off) && decide (m = new)
    | _ => false) && decide (s.commitLocked k w = false)

theorem reaches_of_hits (s : State) (iid page off n : Nat) (v : Word) (k : PageKind) (i : Nat) (new : Word)
    (h : hits s iid page off n v k i new = true) : s.reaches iid page off n v k i new := by
  simp only [hits, Bool.and_eq_true, decide_eq_true_eq] at h
  obtain ⟨⟨⟨⟨h1, h2⟩, h3⟩, h4⟩, h5⟩ := h
  refine ⟨h1, h2, h3, ?_, h5⟩
  split at h4
  · rename_i row old m heq
    simp only [Bool.and_eq_true, decide_eq_true_eq] at h4
    exact ⟨row, by rw [heq, h4.1, h4.2]⟩
  · cases h4

/-- The check forms of `State.quietTmi` and `State.awake`. -/
def quiet (s : State) (t : Nat) : Bool :=
  decide ((s.triad t).gate = []) && decide ((s.triad t).replay = []) && !s.ahead t &&
  (List.range 3).all fun c => decide ((s.copy (3 * t + c)).hold = .none)

theorem quietTmi_of_quiet (s : State) (t : Nat) (h : quiet s t = true) : s.quietTmi t := by
  simp only [quiet, Bool.and_eq_true, Bool.not_eq_true', List.all_eq_true, decide_eq_true_eq, List.mem_range] at h
  exact ⟨h.1.1.1, h.1.1.2, h.1.2, h.2⟩

/-- The check form of `State.noTints`. -/
def silent (s : State) (t : Nat) : Bool :=
  decide ((s.triad t).voter = []) && decide ((s.triad t).injTints = []) &&
  (List.range 3).all fun c => decide ((s.copy (3 * t + c)).tints = [])

theorem noTints_of_silent (s : State) (t : Nat) (h : silent s t = true) : s.noTints t := by
  simp only [silent, Bool.and_eq_true, List.all_eq_true, decide_eq_true_eq, List.mem_range] at h
  exact ⟨h.1.1, h.1.2, h.2⟩

/-- The check form of `State.stillTmi`. -/
def still (s : State) (t : Nat) : Bool :=
  decide (s.tintsDue t = []) && !s.ahead t &&
  (List.range 3).all fun c => match (s.copy (3 * t + c)).hold with | .wait _ => false | .fence _ _ => false | _ => true

theorem stillTmi_of_still (s : State) (t : Nat) (h : still s t = true) : s.stillTmi t := by
  simp only [still, Bool.and_eq_true, Bool.not_eq_true', List.all_eq_true, decide_eq_true_eq, List.mem_range] at h
  refine ⟨h.1.1, h.1.2, fun c hc => ⟨fun len hw => ?_, fun r len hw => ?_⟩⟩ <;>
  · have := h.2 c hc
    rw [hw] at this
    cases this

def up (s : State) (t : Nat) : Bool :=
  decide ((s.triad t).entry = 0) && decide (s.powerState t ≠ 5) && decide (s.powerState t ≠ 6) &&
  (List.range 3).all fun c => match (s.copy (3 * t + c)).hold with | .wait _ => false | _ => true

theorem awake_of_up (s : State) (t : Nat) (h : up s t = true) : s.awake t := by
  simp only [up, Bool.and_eq_true, List.all_eq_true, decide_eq_true_eq, List.mem_range] at h
  refine ⟨h.1.1.1, h.1.1.2, h.1.2, fun c n hc hw => ?_⟩
  have := h.2 c hc
  rw [hw] at this
  cases this

/-- The check form of `State.ioQuiet`, where no link is listed and the VME queue is empty. -/
theorem ioQuiet_of_bare (s : State) (h1 : s.links = []) (h2 : s.vme.queue = []) : s.ioQuiet := by
  refine ⟨fun j => ?_, fun e he => ?_⟩
  · simp only [State.link, h1]; rfl
  · rw [h2] at he; cases he

/-- Every hypothesis of a `State.reaches` or `settled` at once. -/
theorem test_lab : calm lab = true ∧ quiet lab 0 = true ∧ up lab 0 = true ∧ silent lab 0 = true ∧ still lab 0 = true := by decide +kernel

/-! FLA: results (R113 to R116, R124, R127 to R131). Slot n holds 0x2000 + 64 n, so g2 is 0x2080 and g3 is 0x20C0. -/

theorem witness_IntegerResults : lab.executes xA (.alu .add 1 2 (.reg 3)) = true ∧
    lab.executes (xW .w1) (.alu .shl 1 2 (.imm8 8)) = true ∧ lab.executes xA (.alu .mulh 15 15 (.reg 15)) = true := by
  decide +kernel

/-- 8-bit addition wraps and is zero-extended (R124): 0xFF + 0x01. -/
theorem test_add_wraps : gives (labA fun c => (c.setG 2 0x1FF).setG 3 0x301) (.add (xW .w1) 1 2 (.reg 3))
    (fun t => decide ((t.copy 0).gAt 1 = 0) && decide ((t.copy 0).retcnt = 1)) = true := by decide +kernel

/-- SAR fills with bit 8w - 1; the count is taken modulo 8w (R127). -/
theorem test_sar : gives (labA fun c => c.setG 2 0x80) (.sar (xW .w1) 1 2 (.imm8 9)) (fun t => decide ((t.copy 0).gAt 1 = 0xC0)) = true := by
  decide +kernel

/-- The high half of a signed product: -1 times 2 (R128). -/
theorem test_mulh : gives (labA fun c => (c.setG 2 (-1)).setG 3 2) (.mulh xA 1 2 (.reg 3)) (fun t => decide ((t.copy 0).gAt 1 = -1)) = true := by
  decide +kernel

theorem witness_ArithmeticExceptions : lab.executes xA (.alu .addt 1 2 (.reg 3)) = true ∧
    (labA fun c => c.setG 3 0).executes xA (.alu .div 1 2 (.reg 3)) = true := by decide +kernel

/-- Division by zero writes all ones and leaves arith(divide by zero), code 1, pending (R129, R174). -/
theorem test_div_by_zero : gives (labA fun c => c.setG 3 0) (.div (xW .w4) 1 2 3)
    (fun t => decide ((t.copy 0).gAt 1 = 0xFFFFFFFF) && decide ((t.copy 0).pend.map (·.code) = some 1)) = true := by decide +kernel

/-- The one overflow of REM gives 0 with no exception (R129). -/
theorem test_rem_overflow : gives (labA fun c => (c.setG 2 0x80).setG 3 0xFF) (.rem (xW .w1) 1 2 3)
    (fun t => decide ((t.copy 0).gAt 1 = 0) && decide ((t.copy 0).pend = none)) = true := by decide +kernel

/-- ADDT: 0x7F + 1 does not fit in 8 signed bits (R130). -/
theorem test_addt_overflow : gives (labA fun c => (c.setG 2 0x7F).setG 3 1) (.addt (xW .w1) 1 2 (.reg 3))
    (fun t => decide ((t.copy 0).gAt 1 = 0x80) && decide ((t.copy 0).pend.map (·.code) = some 2)) = true := by decide +kernel

theorem witness_MovesCountsAndAddresses : lab.executes xA (.alu .min 1 2 (.reg 3)) = true ∧ lab.executes xA (.un .ctz 1 2) = true ∧
    lab.executes xA (.movpg 1) = true ∧ lab.executes xA (.lea 1 2 (.d8 (-1))) = true ∧ lab.executes xA (.leapc 1 (-1)) = true := by
  decide +kernel

/-- CTZ of 0x2080 is 7; the reversed bytes of 0x2080 at width 2; p0 alone is set. -/
theorem witness_BitCounts : (List.range 7).all (fun i => (lab.unsignedOf xA 2).toNat.testBit i == false) = true ∧
    (lab.unsignedOf xA 2).toNat.testBit 7 = true ∧
    (List.range 8).all (fun k => decide (0x8020 / 256 ^ k % 256 =
      if k < 2 then (lab.unsignedOf (xW .w2) 2).toNat / 256 ^ (1 - k) % 256 else 0)) = true ∧
    (List.range 64).all (fun k => (1 : Word).getLsbD k == if h : k < 8 then runner.p ⟨k, h⟩ else false) = true := by decide +kernel

/-- BSWAP turns the bytes of the width (R113). -/
theorem test_bswap : gives (labA fun c => c.setG 2 0x1122334455667788) (.bswap (xW .w4) 1 2)
    (fun t => decide ((t.copy 0).gAt 1 = 0x88776655)) = true := by decide +kernel

/-- CLZ of 0 is 8w (R113). -/
theorem test_clz_zero : gives (labA fun c => c.setG 2 0) (.clz (xW .w2) 1 2) (fun t => decide ((t.copy 0).gAt 1 = 16)) = true := by
  decide +kernel

theorem witness_PredicateResults : lab.executes xA (.cmp .lt 1 2 (.reg 3)) = true ∧ lab.executes xA (.tst 7 2 3) = true ∧
    lab.executes xA (.plog .pand 7 1) = true ∧ lab.executes xA (.movgp 2) = true := by decide +kernel

/-- LT is signed, LTU unsigned (R115): 0x80 against 1 at width 1. -/
theorem test_lt_ltu : gives (labA fun c => (c.setG 2 0x80).setG 3 1) (.lt (xW .w1) 1 2 (.reg 3)) (fun t => (t.copy 0).p 1) = true ∧
    gives (labA fun c => (c.setG 2 0x80).setG 3 1) (.ltu (xW .w1) 1 2 (.reg 3)) (fun t => !(t.copy 0).p 1) = true := by decide +kernel

/-- MOVGP never writes p0 (R100, R116). -/
theorem test_movgp : gives (labA fun c => c.setG 2 0x82) (.movgp xA 2) (fun t => decide ((t.copy 0).preds = 0x83)) = true := by decide +kernel

theorem witness_BranchTargets : lab.executes xA (.br (.d8 (-2))) = true ∧ lab.executes xA (.brr 2) = true ∧ lab.executes xA .nop = true ∧
    lab.executes xA (.dbnz 1 (.d8 0)) = true := by decide +kernel

/-- DBNZ leaves the loop where the count reaches 0 (R139). -/
theorem test_dbnz_last : gives (labA fun c => c.setG 1 1) (.dbnz xA 1 (.d8 (-10)))
    (fun t => decide ((t.copy 0).pc = 0x1003) && decide ((t.copy 0).gAt 1 = 0)) = true := by decide +kernel

/-! FLA: the copy's own TCM (R126, R132 to R136, R143 to R145, R217). -/

/-- The instruction heads the copy, and `n` bytes at `a` of its TCM are zeros without error. -/
def ownTcm (s : State) (x : Ctx) (i : Fla) (a n : Nat) : Bool :=
  let r := (s.copy x.key).tcm
  s.heads x i none && decide (classify a = .tcm) && decide (((s.fetched x i none).tcmRead x.t x.c a n).2 = some 0) &&
  decide (partialBad r a n = []) && decide (partialFixed r a n = [])

/-- The TCM with some bytes written. -/
def withBytes (c : Copy) (a : Nat) (bs : List Byte) : Copy :=
  { c with tcm := bs.zipIdx.foldl (fun r e => r.setByte (a + e.2) e.1) c.tcm }

theorem witness_TcmReadsAndWordCode :
    (lab.injEcc (pgTriad 0) 0).left = 0 ∧ runner.tcm.synAt 0 = 0 ∧ runner.tcm.synAt 16383 = 0 := by decide +kernel

/-- Bytes lie lowest address lowest, and LDS sign-extends (R126, R217). -/
theorem test_load : gives (lab.setCopy 0 (withBytes runner 0x2080 [0x34, 0x92])) (.lds (xW .w2) 1 2 (.d8 0))
    (fun t => decide ((t.copy 0).gAt 1 = 0xFFFFFFFFFFFF9234)) = true := by decide +kernel

theorem witness_TcmLoadsComplete : ownTcm lab xA (.ld 1 2 (.d8 0)) 0x2080 8 = true ∧ ownTcm lab xA (.pop 15) 0x23C0 8 = true ∧
    ownTcm lab xA .ret 0x23C0 8 = true ∧ ownTcm lab xA (.ldrs 1 2) 0x2080 8 = true ∧ ownTcm lab xA (.ldpc 1 (-0x1006)) 0 8 = true ∧
    ownTcm lab (xW .w1) (.lds 1 2 (.d32 0)) 0x2080 1 = true ∧ ownTcm (labA fun c => c.setG 2 0x1FFF8) xA (.ld 1 2 (.d8 0)) 0x1FFF8 8 = true := by decide +kernel

/-- POP into g15: the register takes the value popped, not the new stack pointer (R133). -/
theorem test_pop_sp : gives (lab.setCopy 0 (withBytes runner 0x23C0 [0x10, 0x30])) (.pop xA 15)
    (fun t => decide ((t.copy 0).gAt 15 = 0x3010)) = true := by decide +kernel

theorem witness_TcmStoresComplete : ownTcm lab xA (.st 1 2 (.d8 0)) 0x2080 8 = true ∧
    ownTcm lab xA (.sti 2 (.d8 0) 7) 0x2080 8 = true ∧ ownTcm lab xA (.push 1) 0x23B8 8 = true ∧ ownTcm lab xA (.call 0) 0x23B8 8 = true ∧
    ownTcm lab xA (.callr 1) 0x23B8 8 = true ∧ ownTcm lab (xW .w1) (.st 1 2 (.d8 3)) 0x2083 1 = true := by decide +kernel

/-- CALL pushes the next address and branches (R138). -/
theorem test_call : gives lab (.call xA 0x100) (fun t => decide ((t.copy 0).pc = 0x1105) && decide ((t.copy 0).gAt 15 = 0x23B8) &&
    decide ((t.copy 0).tcm.byte 0x23B8 = 5) && decide ((t.copy 0).tcm.byte 0x23B9 = 0x10)) = true := by decide +kernel

theorem witness_TcmAtomicsComplete : ownTcm lab xA (.tas 1 2 (.d8 0)) 0x2080 1 = true ∧ ownTcm lab xA (.stc 1 2 3) 0x20C0 8 = true ∧
    (labA fun c => { c with localFlag := true, resv := some (0x20C0 / 64) }).heads xA (.stc 1 2 3) none = true ∧
    lab.heads xA .clrres none = true := by decide +kernel

/-- STC without a reservation stores nothing and writes its predicate 0 (R136). -/
theorem test_stc_fails : gives (labA fun c => { c with preds := 0xFF }) (.stc xA 1 2 3)
    (fun t => !(t.copy 0).p 1 && decide ((t.copy 0).tcm = runner.tcm)) = true := by decide +kernel

theorem witness_BlockElementsComplete : ownTcm lab xA .movs 0x2080 8 = true ∧ ownTcm lab xA .movs 0x20C0 8 = true ∧
    ownTcm lab xA .fills 0x20C0 8 = true ∧ ownTcm lab xA (.cmps 1) 0x2080 8 = true ∧ ownTcm lab xA (.scans 1 0) 0x2080 8 = true ∧
    (((lab.fetched xA (.cmps 1) none).tcmRead 0 0 0x2080 8).1.tcmRead 0 0 0x20C0 8).2 = some 0 := by decide +kernel

/-! FLA: control registers, synchronisation, repetition, entries. -/

theorem witness_ControlRegisterMoves : lab.heads xA (.mfc 1 0) none = true ∧ lab.heads xA (.mtc 1 0) none = true ∧
    lab.heads xA (.mtc 1 0x0C) none = true ∧ lab.heads xA (.mtc 1 0x0D) none = true ∧ lab.heads xA (.mtc 1 0x05) none = true := by decide +kernel

/-- An undefined control register is an illegal opcode, vector 1 (R148, R119). -/
theorem test_mtc_undefined : gives lab (.mtc xA 1 0x1FF) (fun t => decide (bitsOf ((t.copy 0).crv 3) 5 0 = 1)) = true := by decide +kernel

theorem witness_WindowsWaitsAndFences : lab.heads xA (.hold 4) none = true ∧ lab.heads xA .msync none = true ∧
    lab.heads xA .wait none = true ∧ lab.stampAbove 0 0 = false ∧
    (labT fun d => { d with stamps := [⟨20, 5, 0, none, 3⟩] }).heads xA .wait none = true ∧
    (labT fun d => { d with stamps := [⟨20, 5, 0, none, 3⟩] }).stampAbove 0 0 = true ∧
    lab.heads xA .fence none = true ∧ lab.fenceOpen 0 0 false = true ∧ lab.heads xA .fenceRule none = true ∧
    lab.fenceOpen 0 0 true = true := by decide +kernel

/-- Copy A at group 1 with an entry of group 0 at the output gate, or with a load of group 0 in the replay buffer. -/
def behind (gate : Bool) : State :=
  let s := if gate then labT fun d => { d with gate := [⟨0, 0, [], true, 0, [], none, 0, none, none, [], 0⟩] }
    else { labT fun d => { d with replay := [⟨0, 0, ⟨.load, 0x10000000, 8, false, 0, false⟩, 0, [0], [], [(0, 0)], 0, none, none, [], none, false, 0⟩] }
      with tags := [⟨0, 0, .tmi 0 0, none⟩] }
  s.setCopy 0 { runner with retcnt := 1 }

/-- An access of a lower index closes the fence (R151). -/
theorem witness_fence_closed : (behind true).heads xA .fence none = true ∧ (behind true).fenceOpen 0 0 false = false ∧
    (behind false).heads xA .fenceRule none = true ∧ (behind false).fenceOpen 0 0 true = false := by decide +kernel

theorem witness_ReteRestoresTheFrame : lab.heads xA .rete none = true ∧ runner.emerg = false ∧ runner.level.code ≤ 0 ∧
    ownTcm lab xA .rete 0x23C0 16 = true ∧
    (let s := labA fun c => { c with emerg := true }
     ownTcm s xA .rete 0x800 16 = true ∧
     ((((s.fetched xA .rete none).tcmRead 0 0 0x800 16).1.tcmRead 0 0 0x810 8).2 = some 0)) := by decide +kernel

theorem witness_RepeatedElements : lab.heads xA (.alu .add 2 2 (.reg 3)) (some .rep) = true ∧
    ownTcm lab xA .crcs 0x2080 8 = true := by decide +kernel

theorem witness_FlaCommandsRunGroups : (Instr.add xA 1 2 (.reg 3)).fla = some (xA, none, .alu .add 1 2 (.reg 3)) ∧
    (labA fun c => { c with st := .out }).ahead 0 = false ∧ lab.dueConflict 0 = none := by decide +kernel

theorem witness_GuardedFalseWritesNothing :
    lab.skips { xA with guard := some ⟨true, 1⟩ } (.alu .add 1 2 (.reg 3)) none = true := by decide +kernel

/-- The instruction is next and raises a fault at its decode (the check form of `State.faultsWith`). -/
def stops (s : State) (x : Ctx) (i : Fla) (rep : Option RepKind) : Bool :=
  let u := s.fetched x i rep
  let p := u.copy x.key
  s.ready x i rep && !p.takesB x rep i && !u.pauseHeld x.t x.c && !u.staggerHeld x.t x.c && !u.skewHeld x.t x.c &&
  decide (candidate (u.triad x.t) p x.c (flaKind rep i) (decodeFault p x i rep).isSome = .none) && (decodeFault p x i rep).isSome

/-- MTC to an undefined register at Machine level: vector 1, its stack in the TCM. -/
theorem witness_FaultsEnterTheirVector :
    (match decodeFault ((lab.fetched xA (.mtc 1 0x1FF) none).copy 0) xA (.mtc 1 0x1FF) none with
      | some f =>
        let p := ((lab.fetched xA (.mtc 1 0x1FF) none).copy 0).endShadows fun _ => false
        let tg := faultTarget p f.vec
        let sp := p.gAt (spBank tg)
        decide (1 ≤ f.vec ∧ f.vec ≤ 7 ∧ f.vec ≠ 6) && decide (classify (sp - 16).toNat = .tcm) &&
        decide (accFault p tg ⟨.frame, sp - 16, 16, false, .lit (p.crv 0 ++ p.pc : BitVec 128), true⟩ = none)
      | none => false) = true ∧ stops lab xA (.mtc 1 0x1FF) none = true ∧ runner.emerg = false := by
  decide +kernel

/-! Register pages (R4 to R8, R408, R423 to R425). -/

theorem witness_AccessTypes : ((regsHdr ++ PageKind.triad.rows).any fun row => row.fields.any fun f => decide (f.ty = .w1c ∨ f.ty = .rwl)) = true := by
  decide +kernel

/-- A plain register, a lock, a counter page. -/
theorem witness_PageWrites : hits lab 0 (pgCore 0) 0x118 8 5 .core 0 5 = true ∧ hits lab 0 (pgCore 0) 0x118 4 5 .core 0 5 = true ∧
    plainReg .core 0x118 = true ∧ hits lab 0x0201 pgImage 0x30 8 1 .image 0 1 = true ∧ clrcntBit .core 0x140 = some 0 ∧
    hits lab 0 (pgCore 0) 0x140 8 1 .core 0 0 = true := by decide +kernel

/-- A 32-bit write of the upper half leaves the lower half (R4). -/
theorem test_half_write : gives (setFlds lab [(pgTriad 0, 0x108, 15, 0, 0x1234)]) (.registerWrite 0x0201 pgImage 0x104 4 (-1))
    (fun t => decide (t.fld pgImage 0x100 0 0 = 0)) = true := by decide +kernel

def locked : State := setFlds lab [(pgImage, 0x30, 0, 0, 1)]

/-- A reserved bit of a safety page; a locked field; a table bank shut by WARDENONLY; a page that does not exist. -/
theorem witness_PageErrors :
    decide (lab.planWrite .image (wrAt 0x0201 pgImage 0x100 8 (-1)) = .reserved) = true ∧
    (match locked.planWrite .image (wrAt 0x0201 pgImage 0x100 8 1) with | .go _ _ _ hit => hit | _ => false) = true ∧
    plainReg .image 0x100 = true ∧
    (setFlds lab [(pgImage, 0x100, 0, 0, 1)]).pageFor 0 (regAddr pgTime 0x138) 8 .store =
      (setFlds lab [(pgImage, 0x100, 0, 0, 1)], some (.timebase, 0)) ∧
    wardenOnly .timebase 0x138 = true ∧ lab.pageFor 0 (regAddr 0xFFFF 0x100) 8 .store = (lab, none) := by decide +kernel

/-- A locked field stays, PGERR bit 1 is set and names the initiator and the offset (R7, R423). -/
theorem test_locked_field : gives locked (.registerWrite 0x0201 pgImage 0x100 8 1) (fun t => decide (t.reg pgImage 0x100 = 0) &&
    t.bit pgImage 0x20 1 && decide (t.fld pgImage 0x20 63 48 = 0x0201) && decide (t.fld pgImage 0x20 43 32 = 0x100)) = true := by
  decide +kernel

/-! The triads (R39 to R79). -/

/-- A running triad, and one that waits. -/
theorem witness_InterruptsAreStamped : vectorOk 20 = true ∧ lab.leader 0 = some 0 ∧ up lab 0 = true ∧
    vectorOk 63 = true ∧ (labAll fun c => { c with hold := .wait 2 }).leader 0 = some 0 ∧
    (labAll fun c => { c with st := .out }).leader 0 = none ∧
    hits lab 0 (pgTriad 0) 0x168 8 (BitVec.ofNat 64 (2 ^ 63)) .triad 0 0 = true := by decide +kernel

/-- A request is stamped for the leading copy's RETCNT + 4 (R62). -/
theorem test_stamp : gives (lab.setCopy 1 { runner with retcnt := 3 }) (.interruptRequest 0 20)
    (fun t => decide ((t.triad 0).stamps = [⟨20, 7, 0, none, 3⟩])) = true := by decide +kernel

/-- Machine level with MIE set, and a stamp that is due. -/
def due20 : State := (lab.setTriad 0 { lab.triad 0 with stamps := [⟨20, 0, 0, none, 3⟩] }).setCopy 0 (runner.setCr 0 0x04)

theorem witness_StampedRequestIsEntered : due20.takesGroups xA = true ∧ (due20.copy 0).pend = none ∧ (due20.copy 0).blocked = false ∧
    due20.ahead 0 = false ∧ (due20.fetchWindow 0 0 0x1000).2 = true ∧
    (match decodeFla 0 0 (fetchAt ((due20.fetchWindow 0 0 0x1000).1.copy 0)) with
      | .ok y rep i => ((due20.fetchWindow 0 0 0x1000).1.copy 0).takesB y rep i == false
      | _ => true) = true ∧
    (dueStamps (due20.triad 0) 0 0).any (fun f => f.vec == 6 || f.vec == 9) = false ∧
    classify ((due20.copy 0).gAt (spBank (stampTarget (due20.copy 0) 20)) - 16).toNat = .tcm ∧
    lowestStamp ((dueStamps (due20.triad 0) 0 0).filter fun f => decide (16 ≤ f.vec) && acceptable (due20.copy 0) f.vec)
      = some ⟨20, 0, 0, none, 3⟩ ∧
    (due20.fetchWindow 0 0 0x1000).1.staggerHeld 0 0 = false ∧ (due20.fetchWindow 0 0 0x1000).1.skewHeld 0 0 = false ∧
    accFault (due20.copy 0) (stampTarget (due20.copy 0) 20)
      ⟨.frame, (due20.copy 0).gAt (spBank (stampTarget (due20.copy 0) 20)) - 16, 16, false, .lit 0, true⟩ = none := by decide +kernel

theorem test_entry : gives due20 (.exceptionEntry 0 0) (fun t => decide (bitsOf ((t.copy 0).crv 3) 5 0 = 20) &&
    decide ((t.copy 0).retcnt = 1) && decide ((t.triad 0).stamps.map (·.taken) = [1])) = true := by decide +kernel

/-- The tint records of index 7 on their way from copy C, those of A and B at the voter. -/
def voting (x y : Word) : State :=
  (labT fun d => { d with voter := [(0, 7, x), (1, 7, y)] }).setCopy 2 { runner with tints := [⟨7, 0, 0xFF, 0xFF, 0, 1, 0, 0, 0xFFFF, 0, 0, 0, 0, 0⟩] }

def tint7 : Word := tintValue ⟨7, 0, 0xFF, 0xFF, 0, 1, 0, 0, 0xFFFF, 0, 0, 0, 0, 0⟩

theorem witness_VotingOnTints : (voting tint7 tint7).running 0 = [0, 1, 2] ∧ quiet (voting tint7 tint7) 0 = true ∧
    (voting tint7 tint7).injArmed (pgTriad 0) 3 2 = false ∧ ((voting tint7 tint7).copy 2).tintOpen 7 = false ∧
    ((voting tint7 tint7).triad 0).injTints = [] ∧ ((voting tint7 tint7).copy 0).tints = [] ∧ ((voting tint7 tint7).copy 1).tints = [] ∧
    tint7 ≠ 0 ∧ tint7 ≠ 1 ∧
    (let s := ((voting tint7 tint7).setTriad 0 { lab.triad 0 with voter := [(0, 7, 5)] }).setCopy 1 { runner with st := .ejected }
     s.running 0 = [0, 2] ∧ quiet s 0 = true ∧ (s.triad 0).voter = [(0, 7, 5)] ∧ (s.copy 1).tints = []) := by decide +kernel

/-- Copy C at index 8 may still take a slot B into the group of index 7, whose tint heads its list. -/
def openTint : State :=
  labAll fun c => { c with retcnt := 8, slotA := some ⟨0, 0, [], 0⟩, tints := [⟨7, 0, 0xFF, 0xFF, 0, 1, 0, 0, 0xFFFF, 0, 0, 0, 0, 0⟩] }

theorem witness_OpenTintStays : (openTint.copy 2).tintOpen 7 = true ∧ openTint.tintsDue 0 = [] ∧
    ((openTint.copy 2).tints.head?.map fun q => q.index) = some 7 ∧ quiet openTint 0 = true ∧
    gives openTint (.tintArrival 0 2) (fun t => decide (t = openTint)) = true := by decide +kernel

/-- The copy whose tint differs from two equal ones is ejected; three different ones stop the triad (R50, R71). -/
theorem test_voter : gives (voting 5 5) (.tintArrival 0 2) (fun t => decide ((t.copy 2).st = .ejected) && decide ((t.triad 0).mode = 2)) = true ∧
    gives (voting 5 6) (.tintArrival 0 2) (fun t => decide ((t.triad 0).mode = 5) && decide (t.fld (pgTriad 0) 0x110 19 17 = 1)) = true := by
  decide +kernel

/-- Copy A stands far ahead and waits by the skew limit for C. -/
def lagging : State := (lab.setCopy 0 { runner with retcnt := 2000 }).setCopy 1 { runner with retcnt := 2000 }

theorem witness_LaggingCopyIsEjected : quiet lagging 0 = true ∧ silent lagging 0 = true ∧ lagging.running 0 = [0, 1, 2] ∧
    (lagging.copy 2).st = .running ∧ (lagging.running 0).any (fun y => y != 2 && lagging.waitsFor 0 y 2) = true ∧
    (lab.running 0).any (fun y => y != 2 && lab.waitsFor 0 y 2) = false := by decide +kernel

/-- A load of region SRAM at address 0x1000_0000, a store there. -/
def farLoad : MemReq := ⟨.load, 0x10000000, 8, false, 0, false⟩
def farStore : MemReq := ⟨.store, 0x10000000, 8, false, 0x55, false⟩

/-- Every copy stands at the head with a request for a load of g1, or a store. -/
def atTmi (r : MemReq) : State :=
  labAll fun c => { c with hold := .mem r (.instr xA (.ld 1 2 (.d8 0)) none [] []) false }

theorem witness_FabricLoadsReplay : (labA fun c => c.setG 2 0x10000000).heads xA (.ld 1 2 (.d8 0)) none = true ∧
    (labA fun c => c.setG 2 0x10000000).heads xA (.st 1 2 (.d8 0)) none = true ∧ classify 0x10000000 ≠ .tcm ∧
    reqIsReplay farLoad = true ∧ calm (atTmi farLoad) = true ∧ ((atTmi farLoad).triad 0).gate = [] ∧ still (atTmi farLoad) 0 = true ∧
    silent (atTmi farLoad) 0 = true ∧ (atTmi farLoad).running 0 = [0, 1, 2] ∧ ((atTmi farLoad).triad 0).replay = [] := by decide +kernel

/-- Copies A and B have a load in the replay buffer; C presents the same load, or another one. -/
def inReplay (r : MemReq) : State :=
  let s := (atTmi farLoad).setTriad 0 { lab.triad 0 with replay := [⟨0, 0, farLoad, 0, [0, 1], [], [], 0, none, none, [], none, false, 0⟩] }
  s.setCopy 2 { runner with hold := .mem r (.instr xA (.ld 1 2 (.d8 0)) none [] []) false }

/-- C joins the entry; a C that differs from the two is ejected (R53, R71). -/
theorem witness_ReplayEntry : calm (inReplay farLoad) = true ∧ still (inReplay farLoad) 0 = true ∧ silent (inReplay farLoad) 0 = true ∧
    (inReplay farLoad).running 0 = [0, 1, 2] ∧ ((inReplay farLoad).triad 0).gate = [] ∧
    gives (inReplay farLoad) (.replayLoadRequest 0 2) (fun t => (t.triad 0).replay.all fun e => decide (e.same = [0, 1, 2])) = true ∧
    gives (inReplay { farLoad with addr := 0x10000008 }) (.replayLoadRequest 0 2) (fun t => decide ((t.copy 2).st = .ejected)) = true := by
  decide +kernel

/-- The first copy enters its load; the second joins it (R53). -/
theorem test_replay : gives (atTmi farLoad) (.replayLoadRequest 0 0) (fun t => decide ((t.triad 0).replay.map (·.same) = [[0]]) &&
    gives t (.replayLoadRequest 0 1) (fun u => (u.triad 0).replay.all fun e => decide (e.req = farLoad))) = true := by decide +kernel

/-- Region SRAM is filled and ready. -/
def ready (s : State) : State := (setFlds s [(pgRegion 0, 0x100, 0, 0, 1)]).setSram 0 (Ram.filled 0)

/-- Copy A's store stands in the gate; C presents it too. -/
def inGate : State :=
  (atTmi farStore).setTriad 0 { lab.triad 0 with gate := [⟨0, 0, [(0, farStore)], false, 0, [], none, 0, none, none, [], 0⟩] }

theorem witness_OutputGate : reqIsReplay farStore = false ∧ calm (atTmi farStore) = true ∧ classify farStore.addr = .sram 0 ∧
    lab.regionOn 0 = true ∧ lab.bridgeCuts 0 (.sram 0) = false ∧ lab.fwDenies 0 0 (fwNeed .store) 0x10000000 8 = none ∧
    lab.copyTag 0 0 = some 0 ∧ still (atTmi farStore) 0 = true ∧ ((atTmi farStore).triad 0).replay = [] ∧
    calm inGate = true ∧ still inGate 0 = true ∧ inGate.copyTag 0 0 = some 0 ∧ inGate.regionOn 0 = true ∧
    inGate.fwDenies 0 0 (fwNeed .store) 0x10000000 8 = none := by decide +kernel

/-- Nothing leaves the triad before a second copy presents the same store (R52). -/
theorem test_gate : gives (atTmi farStore) (.gatedRequest 0 0) (fun t => decide (t.port = []) && decide ((t.triad 0).gate.length = 1) &&
    gives t (.gatedRequest 0 2) (fun u => decide ((u.portOf 0).length = 1) && decide (u.tags.length = 1))) = true := by decide +kernel

/-- A load of a register page. -/
def devLoad : MemReq := ⟨.load, 0x40000000, 8, false, 0, false⟩

/-- The load that copies A and B agreed on, released under tag 3, its response on its way; copies B and C have gone on. -/
def answered : State :=
  let s := labA fun c => { c with hold := .mem devLoad (.instr xA (.ld 1 2 (.d8 0)) none [] []) true }
  { s.setTriad 0 { lab.triad 0 with gate := [⟨0, 0, [(0, devLoad), (1, devLoad)], true, 0, [], some (3, 0), 0, none, none, [], 0⟩] } with
    resps := [(.tmi 0 3, .ok 0x1122)], tags := [⟨3, 0, .tmi 0 3, none⟩] }

theorem witness_ResponsesAtTheTmi : reqIsReplay devLoad = false ∧ reqParts devLoad = [(0x40000000, 8, 0)] ∧
    calm answered = true ∧ answered.tintsDue 0 = [] ∧ answered.ahead 0 = false ∧ silent answered 0 = true ∧ answered.held 0 0 = false ∧
    answered.resps.find? (forTmi 0) = some (.tmi 0 3, .ok 0x1122) ∧ (answered.tags.any fun u => u.tag == 3 && u.origin == .tmi 0 3) = true ∧
    ((answered.triad 0).gate.all fun e => decide (e.agreed = some devLoad)) = true ∧
    (let s := { lab with resps := [(.tmi 0 3, .err)] }
     calm s = true ∧ quiet s 0 = true ∧ s.tintsDue 0 = [] ∧ s.resps.find? (forTmi 0) = some (.tmi 0 3, .err)) := by decide +kernel

/-- The response ends the wait of copy A (R56). -/
theorem test_response : gives answered (.tmiResponse 0) (fun t => decide ((t.copy 0).gAt 1 = 0x1122) && decide ((t.copy 0).retcnt = 1)) = true := by
  decide +kernel

/-- A runner whose TCM word 0 has a syndrome. -/
def withSyn (x : Byte) : Copy := { runner with tcm := { runner.tcm with syn := [(0, x)] } }

/-- Mordanting of copy C from copy A. -/
def mordant (p : MordPhase) : State :=
  (labT fun d => { d with mode := 2, mord := p, mordCopy := 2 }).setCopy 2 { runner with st := .mordanting }

theorem witness_MonitorAndScrub : runner.st = .running ∧ lab.tcmPowered 0 0 = true ∧ runner.tcm.readWord 0 0 = .good 0 ∧
    lab.powerState 0 = 2 ∧ lab.servicePort 0 0 = false ∧ silent lab 0 = true ∧ quiet lab 0 = true ∧
    (withSyn 0x80).tcm.readWord 0 0 = .fixed 0 ∧ (withSyn 0xFF).tcm.readWord 0 0 = .bad ∧ (mordant .rounds).servicePort 0 0 = true := by
  decide +kernel

/-- The scrubber has a corrected word written back; a word that cannot be corrected diverges its copy (R223). -/
theorem test_scrub : gives (lab.setCopy 0 (withSyn 0x80)) (.tcmScrub 0 0) (fun t => decide ((t.copy 0).writeBack = [0]) &&
      gives t (.tcmWriteBack 0 0) fun u => decide ((u.copy 0).tcm = runner.tcm)) = true ∧
    gives (lab.setCopy 0 (withSyn 0xFF)) (.tcmScrub 0 0) (fun t => decide ((t.copy 0).st = .ejected)) = true := by decide +kernel

/-- The highest average stays (R94). -/
theorem test_stepmon : gives (setFlds lab [(pgCore 0, 0x110, 63, 48, 9)]) (.stepBlockEnd 0 0 7)
    (fun t => decide (t.fld (pgCore 0) 0x110 63 48 = 9) && decide (t.fld (pgCore 0) 0x110 47 32 = 7)) = true := by decide +kernel

theorem witness_MordantingProceeds : (mordant .rounds).mordSource 0 = some 0 ∧ badTcm runner.tcm = none ∧
    (mordant .awaiting).running 0 = [0, 1] ∧ tintConflict ((mordant .awaiting).tintsOf 0 0) ((mordant .awaiting).tintsOf 0 1) = none ∧
    (setFlds (mordant .awaiting) [(pgTriad 0, 0x178, 16, 16, 1)]).pauseAt 0 = true ∧ ((mordant .pause).triad 0).stamps = [] ∧
    (mordant .pause).mordSource 0 = some 0 ∧ ((mordant .awaiting).copy 0).slotA = none ∧ ((mordant .awaiting).copy 1).slotA = none ∧
    ((mordant .awaiting).triad 0).boundary = 0 ∧ (mordant .awaiting).pauseAt 0 = false ∧
    (let s := ((mordant .awaiting).setCopy 0 { runner with hold := .wait 2 }).setCopy 1 { runner with hold := .wait 2 }
     s.running 0 = [0, 1] ∧ s.pauseAt 0 = false ∧ s.openRun 0 = false ∧ tintConflict (s.tintsOf 0 0) (s.tintsOf 0 1) = none) := by decide +kernel

/-- The end of mordanting leaves the triad in Triple with C the equal of A (R77). -/
theorem test_mordanting_complete : gives (mordant .pause) (.mordantingComplete 0 true) (fun t => decide ((t.triad 0).mode = 1) &&
    decide ((t.copy 2).st = .running) && decide ((t.copy 2).tcm = runner.tcm)) = true := by decide +kernel

theorem witness_ModeTransitions : hits lab 0x0201 (pgTriad 0) 0x100 8 5 .triad 0 5 = true ∧ (lab.triad 0).mordBusy = false ∧
    (labT fun d => { d with mode := 5 }).isRetired 0 2 = false ∧ lab.tableUses 0 = false ∧
    hits (labT fun d => { d with mode := 0 }) 0x0201 (pgTriad 0) 0x100 8 5 .triad 0 5 = true ∧
    (let s := (labT fun d => { d with mode := 2 }).setCopy 2 { runner with st := .out }
     s.mordOk 0 (thirdOf 2) = true ∧ hits s 0x0201 (pgTriad 0) 0x100 8 1 .triad 0 1 = true) ∧ AMap.find? lab.switching 0 = none ∧
    (lab.triad 0).voter = [] ∧ ((lab.triad 0).isolated || lab.bit (pgFwall 0) 0x108 0 || lab.bit pgBist 0x128 0) = false ∧
    hits lab 0x0201 (pgTriad 0) 0x100 8 7 .triad 0 7 = true ∧ hits lab 0x0201 (pgTriad 0) 0x100 8 2 .triad 0 2 = true ∧
    hits (setFlds lab [(pgBist, 0x128, 0, 0, 1)]) 0x0201 (pgTriad 0) 0x100 8 2 .triad 0 2 = true ∧
    (let s := setFlds (labT fun d => { d with mode := 0 }) [(pgPwr, 0x138, 0, 0, 0)]
     s.regionOn 0 = false ∧ calm s = true ∧ s.openSlot 0x0201 = true ∧ s.bridgeCuts 0x0201 (.page (pgTriad 0)) = false ∧
     gives s (.tmodeWrite 0x0201 0 5) (fun t => t.bit pgPwr 0x108 20 && t.bit pgPwr 0x150 2)) = true ∧
    hits (mordant .rounds) 0x0201 (pgTriad 0) 0x100 8 3 .triad 0 3 = true ∧ ((mordant .rounds).triad 0).mordBusy = true ∧
    hits (labT fun d => { d with mode := 5 }) 0x0201 (pgTriad 0) 0x100 8 0 .triad 0 0 = true ∧
    hits (labT fun d => { d with mode := 5 }) 0x0201 (pgTriad 0) 0x100 8 1 .triad 0 1 = true := by decide +kernel

/-- Off leads to Out only by power; Triple from Off is refused (R68). -/
theorem test_tmode_refused : gives (labT fun d => { d with mode := 0 }) (.tmodeWrite 0x0201 0 1)
    (fun t => t.bit (pgTriad 0) 0x110 16 && decide ((t.triad 0).mode = 0)) = true := by decide +kernel

theorem test_stop : gives lab (.tmodeWrite 0x0201 0 5) (fun t => decide ((t.triad 0).mode = 5) && decide ((t.copy 0).st = .out)) = true := by
  decide +kernel

theorem witness_TriadRegisterWrites : hits lab 0x0201 (pgTriad 0) 0x108 8 0x0000000100100004 .triad 0 0x0000000100100004 = true ∧
    hits lab 0x0201 (pgTriad 0) 0x180 8 86400 .triad 0 86400 = true ∧ hits lab 0 (pgCore 2) 0x140 8 2 .core 2 0 = true ∧
    hits lab 0x0201 (pgTriad 0) 0x108 8 0x0000000101000002 .triad 0 0x0000000101000002 = true ∧ lab.stagger 0 = 2 ∧ lab.skew 0 = 256 ∧
    hits (mordant .rounds) 0x0201 (pgTriad 0) 0x108 8 0x0000000101000002 .triad 0 0x0000000101000002 = true ∧
    hits lab 0x0201 (pgTriad 0) 0x180 8 0 .triad 0 0 = true := by decide +kernel

/-! Time, tables and the schedule engines (R179 to R214). -/

/-- A bank from fields: byte offset, bytes, value. -/
def bank (l : List (Nat × Nat × Nat)) : AMap Word :=
  let put (m : AMap Nat) (a b : Nat) : AMap Nat := AMap.set m (fun _ => 0) a b
  let bytes := l.foldl (fun m e => (List.range e.2.1).foldl (fun m j => put m (e.1 + j) (e.2.2 / 256 ^ j % 256)) m) []
  bytes.foldl (fun (m : AMap Word) e =>
    AMap.set m (fun _ => 0) (e.1 / 8) (AMap.get m (fun _ => 0) (e.1 / 8) ||| BitVec.ofNat 64 (e.2 * 256 ^ (e.1 % 8)))) []

/-- A device bank: generation, frames of `len` ticks, a cycle of one frame; AGREE with group 0, DEVMASK 1, QMIN 1, VC 0; TRIADS with
level 1 for triads 0 and 4; OPENRR with the service rings. -/
def device (gen len : Nat) : AMap Word :=
  bank [(8, 8, gen), (0x10, 4, len), (0x14, 2, 1), (0x1A, 2, 3), (0x40, 2, 4), (0x48, 4, 16), (0x50, 2, 1), (0x58, 4, 256),
    (0x60, 2, 3), (0x68, 4, 2), (0x71, 1, 1), (0x72, 1, 1), (0x80, 1, 1), (0x90, 1, 1), (0x180, 2, 0x201)]

/-- An engine's section: slots as TIME, ACTION, INDEX, DURATION; one job of triad 0 (number 9, spare triad 4, ENTRY 0x200, DEADLINE 50),
one move of 8 bytes from region SRAM 0x1000_0000 to 0x1000_0100, one commit of 8 fallback bytes to 0x1000_0200. -/
def secOf (copy : Nat) (l : List (Nat × Nat × Nat × Nat)) : AMap Word :=
  let j := 16 + 16 * l.length
  bank ([(0, 2, l.length), (2, 2, 1), (4, 2, 1), (6, 2, 1), (8, 4, 8)] ++
    (l.zipIdx.flatMap fun e => [(16 + 16 * e.2, 4, e.1.1), (20 + 16 * e.2, 1, e.1.2.1), (22 + 16 * e.2, 2, 1), (26 + 16 * e.2, 2, e.1.2.2.1),
      (28 + 16 * e.2, 4, e.1.2.2.2)]) ++
    [(j, 2, 9), (j + 3, 1, 4), (j + 4, 1, copy), (j + 5, 3, 0x200), (j + 0x20, 4, 50), (j + 0x24, 4, 60), (j + 0x28, 4, 80),
     (j + 64, 8, 0x10000000), (j + 72, 8, 0x10000100), (j + 80, 4, 8), (j + 84, 1, 8),
     (j + 96, 2, 9), (j + 100, 4, 0), (j + 104, 4, 8), (j + 112, 8, 0x10000200), (j + 120, 1, 8), (j + 128, 8, 0x1122334455667788)])

/-- Frame 5 of generation 3 runs; region 0's engine runs the section. -/
def sched (l : List (Nat × Nat × Nat × Nat)) : State :=
  let s := ready lab
  { s with
    timeB := { s.timeB with time := 1000000, frameNo := 5, frameStart := 1000000, actGen := 3, active := device 3 1000 }
    engines := [(0, { Engine.empty with active := secOf 0 l, state := 1, runs := [(0, newRun 5 10 false)] })] }

def slots4 : List (Nat × Nat × Nat × Nat) := [(10, 2, 0, 0), (20, 1, 0, 5), (30, 3, 0, 5), (40, 4, 0, 5)]

theorem witness_FramesAndSources : (sched slots4).timeB.actGen ≠ 0 ∧ (sched slots4).timeB.armed = false ∧ calm (sched slots4) = true ∧
    ((sched slots4).engine 0).state = 1 ∧ (jobs ((sched slots4).engine 0).active).length = 1 ∧ lab.timeB.actGen = 0 ∧
    (setFlds lab [(pgTime, 0x180, 0, 0, 1)]).bit pgTime 0x180 0 = true ∧ lab.wakeEnabled 2 0 = false ∧
    hits lab 0x0201 pgTime 0x100 8 1 .timebase 0 1 = true ∧ lab.xtal = true ∧
    hits { lab with xtal := false } 0x0201 pgTime 0x100 8 1 .timebase 0 1 = true ∧ (setFlds lab [(pgTime, 0x108, 1, 0, 2)]).fld pgTime 0x108 1 0 = 2 := by
  decide +kernel

/-- Without crystal and reference clock the sources 1 and 2, a UART and CAN FD stay off (R435). -/
theorem test_no_crystal :
    gives { lab with xtal := false } (.srcWrite 0x0201 1) (fun t => t.timeB.pendSrc == none && decide (t.reg pgTime 0x100 = 0)) = true ∧
    gives lab (.srcWrite 0x0201 1) (fun t => t.timeB.pendSrc == some 1) = true ∧
    gives { lab with xtal := false } (.registerWrite 0x0201 (pgUart 0) 0x100 8 0x10000D) (fun t => t.bit (pgUart 0) 0x100 0 == false) = true ∧
    gives lab (.registerWrite 0x0201 (pgUart 0) 0x100 8 0x10000D) (fun t => t.bit (pgUart 0) 0x100 0) = true := by decide +kernel

/-- A frame follows the one before by FRAMELEN, and the job it selects gets a run with inputs to come (R180, R189). -/
theorem test_frame : gives (sched slots4) .frameStart (fun t => decide (t.timeB.frameNo = 6) && decide (t.timeB.frameStart = 1010000) &&
    decide (((t.engine 0).run 0) = newRun 6 10 false)) = true := by decide +kernel

/-- An alarm with a period moves past TIME (R183). -/
theorem test_alarm : gives { setFlds lab [(pgTime, 0x180, 0, 0, 1), (pgTime, 0x180, 63, 32, 10), (pgTime, 0x160, 63, 0, 5)] with
      timeB := { lab.timeB with time := 27 } } (.alarmFire 0)
    (fun t => decide (t.reg pgTime 0x160 = 35) && (t.triad 0).stamps.any fun e => e.vec == 18) = true := by decide +kernel

/-- The switch to a checked generation is due at frame 6. -/
def switching' : State :=
  let s := sched slots4
  setFlds { s with timeB := { s.timeB with inactive := device 4 500, checked := some 4, armed := true } }
    [(pgTime, 0x148, 63, 0, 4), (pgTime, 0x150, 63, 0, 6), (pgTime, 0x158, 2, 0, 2)]

/-- A fold whose accumulator is evaluated at each element. -/
def strictFold (f : Nat → Nat → Nat) : List Nat → Nat → Nat
  | [], v => v
  | b :: bs, v => match f v b with
    | 0 => strictFold f bs 0
    | n + 1 => strictFold f bs (n + 1)

theorem strictFold_eq (f : Nat → Nat → Nat) (bs : List Nat) (v : Nat) : strictFold f bs v = bs.foldl f v := by
  induction bs generalizing v with
  | nil => rfl
  | cons b bs ih => simp only [strictFold, List.foldl_cons]; split <;> rename_i h <;> rw [ih, h]

theorem crcOf_strict (bs : List Nat) : crcOf 3 bs = strictFold (crcByte 3) bs 0 := by
  rw [strictFold_eq]; exact Nat.xor_zero _

/-- A device bank that passes every check: TRIADS with no triad used, OPENRR with the three initiators that it must hold, and CHECK. -/
def goodTable (check : Word) : State :=
  let b := bank [(0, 8, 0x14254535A), (8, 8, 4), (0x10, 4, 1000), (0x14, 2, 1), (0x16, 2, 64), (0x18, 1, lab.devid), (0x19, 1, lab.dies),
    (0x1A, 2, 2), (0x1C, 4, 0x166), (0x40, 2, 1), (0x44, 4, 0x60), (0x48, 4, 256), (0x50, 2, 3), (0x54, 4, 0x160), (0x58, 4, 6),
    (0x160, 2, 0x200), (0x162, 2, 0x201), (0x164, 2, 0x202)]
  { lab with timeB := { lab.timeB with inactive := AMap.put 7 check b } }

def goodCheck : Nat := 10611750533476524932

theorem goodTable_crc : crcOf 3 (goodTable (BitVec.ofNat 64 goodCheck)).tableSet.body = goodCheck := by
  rw [crcOf_strict]; decide +kernel

/-- The set passes the table check (R212), as it is and with the check's own results cleared. -/
theorem witness_TableSetPasses : (goodTable (BitVec.ofNat 64 goodCheck)).tableCheck = none ∧
    hits (goodTable (BitVec.ofNat 64 goodCheck)) 0 pgTime 0x140 8 1 .timebase 0 0 = true := by
  refine ⟨?_, by decide +kernel⟩
  unfold State.tableCheck TableSet.c01
  simp only []
  rw [goodTable_crc]
  decide +kernel

theorem witness_TablesAreLoadedAndSwitched : hits lab 0 (pgSched 0) 0x118 8 7 .sched 0 0 = true ∧
    hits lab 0 pgTime 0x138 8 7 .timebase 0 0 = true ∧ hits lab 0 pgTime 0x140 8 1 .timebase 0 0 = true ∧
    hits lab 0 pgTime 0x150 8 6 .timebase 0 6 = true ∧ switching'.checkedForGen = true ∧ switching'.precOk = true ∧
    switching'.frameEnds = switching' ∧ (sched slots4).frameEnds = sched slots4 ∧ lab.frameEnds = lab ∧
    calm switching' = true ∧ ((5 + 1 - 0) % hdrCycle switching'.timeB.active = 0) ∧
    ((lab.enginePages.foldl (fun s p => s.setChk p 0 0) lab).tableCheck).isSome = true ∧
    hits (sched slots4) 0x0201 pgTime 0x150 8 5 .timebase 0 5 = true ∧ hits (sched slots4) 0x0201 pgTime 0x150 8 6 .timebase 0 6 = true ∧
    (let t := { switching' with timeB := { switching'.timeB with checked := none } }
     t.checkedForGen = false ∧ t.frameEnds = t ∧ calm t = true) ∧
    hits (setFlds (sched slots4) [(pgSched 0, 0x100, 0, 0, 1)]) 0x0201 (pgSched 0) 0x100 8 0 .sched 0 0 = true ∧
    (let t := (sched slots4).setEngine 0 { (sched slots4).engine 0 with state := 3 }
     hits t 0x0201 (pgSched 0) 0x100 8 1 .sched 0 1 = true) := by decide +kernel

theorem test_switch : gives switching' .frameStart (fun t => decide (t.timeB.active = device 4 500) && decide (t.timeB.actGen = 4) &&
    decide (t.fld pgTime 0x158 2 0 = 3)) = true := by decide +kernel

/-- A write to a bank cancels the armed switch with REASON 4 (R211, R214). -/
theorem test_tbldata_cancels : gives switching' (.tbldataWrite 0x0201 (pgSched 0) 7) (fun t => decide (t.timeB.armed = false) &&
    decide (t.fld pgTime 0x158 2 0 = 4) && decide (t.fld pgTime 0x158 15 8 = 4) && decide (bankWord (t.engine 0).inactive 0 = 7)) = true := by
  decide +kernel

/-- A released run, an open run, a spare's run. -/
def released (copy : Nat) (st : Nat) : State :=
  let s := sched slots4
  let e := s.engine 0
  s.setEngine 0 { e with
    active := secOf copy slots4, runs := [(0, { newRun 5 10 (copy == 1) with state := st })]
    opens := [((if copy = 1 then 4 else 0), ⟨9, 0, 4, false⟩)] }

/-- The same with no slots, so that the end of the run is the engine's next event. -/
def ending (copy st : Nat) (lost : Bool) : State :=
  let s := (List.range 3).foldl (fun s c => s.setCopy (12 + c) runner) ((sched []).setTriad 4 { Triad.off with mode := 1 })
  s.setEngine 0 { s.engine 0 with
    active := secOf copy [], runs := [(0, { newRun 5 10 (copy == 1) with state := st })]
    opens := [((if copy = 1 then 4 else 0), ⟨9, 0, 4, lost⟩)] }

theorem witness_RunsAreReleasedAndEnd : (sched slots4).slotDue 0 0 2 = some ⟨10, 2, 0, 1, 0, 0, 0⟩ ∧
    (sched slots4).tickFirst 0 (.slot 2 0) = sched slots4 ∧ calm (sched slots4) = true ∧
    (sched slots4).releaseCause 0 0 9 = 0 ∧ (sched slots4).leader 0 = some 0 ∧
    (let s := (sched slots4).setTriad 0 { Triad.off with mode := 5 }
     s.slotDue 0 0 2 = some ⟨10, 2, 0, 1, 0, 0, 0⟩ ∧ s.tickFirst 0 (.slot 2 0) = s ∧ calm s = true ∧ s.releaseCause 0 0 9 ≠ 0) ∧
    (let s := ending 0 2 false
     s.engineRuns 0 = true ∧ s.tickFirst 0 (.deadline false 0) = s ∧ calm s = true ∧ s.leader 0 = some 0 ∧
     (s.engine 0).openOf 0 = some ⟨9, 0, 4, false⟩ ∧ s.now < s.tickTime 51) ∧
    (let s := ending 1 8 false
     s.engineRuns 0 = true ∧ s.tickFirst 0 (.deadline true 0) = s ∧ calm s = true ∧ s.leader 4 = some 0 ∧
     (s.engine 0).openOf 4 = some ⟨9, 0, 4, false⟩) ∧
    (jobRec (secOf 1 slots4) 0).isCopy = true ∧ ((sched slots4).engine 0).openOf 0 = none ∧
    hits (ending 0 2 false) 0 (pgSched 0) 0x120 8 (BitVec.ofNat 64 (9 * 2 ^ 32)) .sched 0 0 = true ∧
    hits (sched slots4) 0 (pgSched 0) 0x120 8 (BitVec.ofNat 64 (9 * 2 ^ 32)) .sched 0 0 = true ∧
    hits (ending 0 4 true) 0 (pgSched 0) 0x120 8 (BitVec.ofNat 64 (9 * 2 ^ 32 + 1)) .sched 0 0 = true := by decide +kernel

/-- The engine of region 0 with a move at tick 10 and a release at tick 20: the release has one event before it (R188). -/
def twoSlots : State := sched [(20, 2, 0, 0), (10, 1, 0, 5)]

theorem witness_EventBeforeTheRelease : firstEvent (twoSlots.tickEvents 0 true) = some (tickKey 10 4 1, .slot 1 1) ∧
    (twoSlots.tickEvents 0 true).filter (fun x => x.2 == .slot 2 0) = [(tickKey 20 4 0, .slot 2 0)] ∧
    firstEvent ((twoSlots.tickDo 0 (.slot 1 1)).tickEvents 0 true) = some (tickKey 20 4 0, .slot 2 0) := by decide +kernel

/-- A release opens the run, counts, and stamps vector 16 (R184, R185); a DONE store completes it (R186). -/
theorem test_release : gives (sched slots4) (.release 0 0) (fun t => decide (((t.engine 0).run 0).state = 2) &&
    decide (t.reg (pgSched 0) 0x140 = 1) && ((t.triad 0).stamps.any fun e => e.vec == 16) && decide (t.now = 1000100)) = true := by
  decide +kernel

theorem test_done : gives (released 0 2) (.doneComplete 0 0 9) (fun t => decide (((t.engine 0).run 0).state = 3) &&
    decide ((t.engine 0).openOf 0 = none) && decide (t.notices = [⟨.completion, 1, 9, 5⟩])) = true := by decide +kernel

theorem test_deadline : gives (released 0 2) (.deadlineEnd 0 0) (fun t => decide (((t.engine 0).run 0).state = 4) &&
    decide (t.now = 1000510) && (t.triad 0).stamps.any fun e => e.vec == 17) = true := by decide +kernel

/-- The spare's engine watches, a notice is on its way. -/
def watching' (k : NoticeKind) (copy st : Nat) : State :=
  let s := sched slots4
  { s.setEngine 0 { s.engine 0 with active := secOf copy slots4, runs := [(0, { newRun 5 10 (copy == 1) with state := st })] } with
    notices := [⟨k, 0, 9, 5⟩] }

/-- The spare engine's re-run move (as one that has ended well, or failed), its record REQUIRED, the job record with one input move. -/
def rerunning (st : Nat) : State :=
  let j := 16
  let sec := bank ([(2, 2, 1), (4, 2, 1), (j, 2, 9), (j + 3, 1, 4), (j + 4, 1, 1), (j + 5, 3, 0x200), (j + 0x20, 4, 50), (j + 0x24, 4, 60),
    (j + 0x28, 4, 80), (j + 0x2E, 2, 1), (j + 64, 8, 0x10000000), (j + 72, 8, 0x10000100), (j + 80, 4, 8), (j + 85, 1, 1)])
  let s := ending 1 7 false
  s.setEngine 0 { s.engine 0 with active := sec, opens := [], moves := [(0, ⟨5, st, 8, 1001000, 0x10000000, false, some 0, []⟩)] }

theorem witness_SpareEnginesTakeOver : ((watching' .completion 1 6).takeNotice .completion 0).isSome = true ∧
    (watching' .completion 1 6).watching 0 ⟨.completion, 0, 9, 5⟩ = some 0 ∧
    (watching' .completion 1 7).watching 0 ⟨.completion, 0, 9, 5⟩ = none ∧
    ((watching' .takeover 0 4).engine 0).recOf 9 false = some 0 ∧ calm (watching' .loss 1 6) = true ∧
    (jobRec (secOf 1 slots4) 0).moveCnt = 0 ∧ (watching' .loss 1 6).engineRuns 0 = true ∧
    ((watching' .loss 1 6).takeNotice .loss 0).isSome = true ∧ (watching' .takeover 0 4).engineRuns 0 = true ∧
    (let s := { ending 1 6 false with notices := [⟨.loss, 0, 9, 5⟩] }
     s.tickNow ≤ 60 ∧ s.leader 4 = some 0 ∧ s.tickFirst 0 (.watch 0) = s ∧ calm s = true ∧ s.engineRuns 0 = true) ∧
    (let s := { ending 1 6 false with engines := ((ending 1 6 false).setEngine 0 { (ending 1 6 false).engine 0 with opens := [] }).engines }
     s.releaseCause 0 4 9 = 0) ∧
    (let s := rerunning 1
     s.engineRuns 0 = true ∧ s.tickFirst 0 (.rerun 0) = s ∧ calm s = true ∧ (jobRec (s.engine 0).active 0).moveCnt = 1 ∧
     (jobRec (s.engine 0).active 0).isCopy = true ∧ ((s.engine 0).run 0).nextMove = 0 ∧ ((s.engine 0).run 0).state = 7 ∧
     s.tickNow < 80 ∧ s.releaseCause 0 4 9 = 0 ∧ s.leader 4 = some 0 ∧ ((s.engine 0).work false 0).isSome = true) ∧
    (let s := rerunning 2
     s.tickFirst 0 (.rerun 0) = s ∧ (moveRec (s.engine 0).active 0).required = true) := by decide +kernel

theorem test_takeover : gives (watching' .takeover 0 4) (.takeoverNotice 0) (fun t => decide (((t.engine 0).run 0).state = 5) &&
    ((t.engine 0).run 0).handed) = true := by decide +kernel

/-- An engine whose only slot is the one given. -/
def only (sl : Nat × Nat × Nat × Nat) : State := sched [sl]

/-- The same with a move, a commit and a ballot under way. -/
def working : State :=
  let s := sched []
  s.setEngine 0 { s.engine 0 with
    moves := [(0, ⟨5, 0, 0, 1000200, 0x10000000, false, none, []⟩)], commits := [(0, ⟨5, 0, 0, 1000200, 0, true, none, []⟩)]
    ballots := [(0, ⟨5, 7, 1000200, false, false, false⟩)], runs := [(0, { newRun 5 100 false with state := 1 })] }

theorem witness_MovesVotesAndCommits : (only (20, 1, 0, 5)).slotDue 0 0 1 = some ⟨20, 1, 0, 1, 0, 0, 5⟩ ∧
    (only (20, 1, 0, 5)).tickFirst 0 (.slot 1 0) = only (20, 1, 0, 5) ∧
    isPlain 0x10000000 = true ∧ (sched slots4).staleSource 0x10000000 8 = false ∧
    (let s := only (20, 1, 0, 5)
     let s2 := (s.slotTake 0 0 ⟨20, 1, 0, 1, 0, 0, 5⟩)
     (match s2.memRead 0x100 0x10000000 8 with
      | (s3, some bs) => (match s3.memWrite 0x100 0x10000100 bs with
        | (s4, true) => calm s4
        | _ => false)
      | _ => false) = true) ∧
    (only (30, 3, 0, 5)).slotDue 0 0 3 = some ⟨30, 3, 0, 1, 0, 0, 5⟩ ∧ (only (30, 3, 0, 5)).tickFirst 0 (.slot 3 0) = only (30, 3, 0, 5) ∧
    (only (40, 4, 0, 5)).slotDue 0 0 4 = some ⟨40, 4, 0, 1, 0, 0, 5⟩ ∧ (only (40, 4, 0, 5)).tickFirst 0 (.slot 4 0) = only (40, 4, 0, 5) ∧
    groupRec (device 3 1000) 0 = some (1, 1, 0) ∧
    (let s := only (40, 4, 0, 5)
     let s1 := s.slotTake 0 0 ⟨40, 4, 0, 1, 0, 0, 5⟩
     let c := commitRec (s.engine 0).active 0
     owns c (s1.governing 0 c 40) = true ∧ c.len = 8 ∧ c.voteOnly = false) ∧
    (let s := working
     s.engineRuns 0 = true ∧ calm s = true ∧ s.tickFirst 0 (.work false 0) = s ∧ ((s.engine 0).work false 0).isSome = true ∧
     ((s.engine 0).work true 0).isSome = true ∧ (AMap.find? (s.engine 0).ballots 0).isSome = true) ∧
    (let s := working.setEngine 0 { working.engine 0 with moves := [] }
     s.tickFirst 0 (.work true 0) = s ∧
     let t := s.setEngine 0 { s.engine 0 with commits := [] }
     t.tickFirst 0 (.ballot 0) = t ∧ calm t = true) := by decide +kernel

/-- A move copies its bytes within its slot (R190). -/
theorem test_move :
    gives ((sched slots4).setSram 0 ((Ram.filled 0).setByte 0x10000003 0x77)) (.move 0 1)
      (fun t => decide ((t.sramOf 0).byte 0x10000103 = 0x77) && decide (((t.engine 0).work false 0).map (·.st) = some 1)) = true := by
  decide +kernel

/-- A commit of a run that is not there writes its fallback (R193, R198). -/
theorem test_commit_fallback : gives (sched slots4) (.commit 0 3)
    (fun t => decide ((t.sramOf 0).byte 0x10000207 = 0x11) && decide (t.reg (pgSched 0) 0x158 = 1)) = true := by decide +kernel

/-- A link engine with one TX record of 8 bytes and one RXCHK slot. -/
def link0 : State :=
  let s := sched slots4
  { s with lengines := [(0, { LEngine.empty with state := 1, active := bank [(0, 2, 2), (16, 4, 10), (20, 1, 8), (22, 2, 1), (26, 2, 0), (28, 4, 5),
      (32, 4, 20), (36, 1, 9), (38, 2, 1), (42, 2, 1), (44, 4, 5), (48, 8, 0x10000000), (56, 4, 8), (64, 8, 0x10000100), (72, 4, 8)] })] }

/-- The same with the TX slot done and its window open until tick 15. -/
def sending : State :=
  let s := link0
  { s with lengines := [(0, { s.lengine 0 with acted := [0], tx := [(0, ⟨1000150⟩)] })] }

theorem witness_LinkEngineSlots : link0.lslotDue 0 0 8 = some ⟨10, 8, 0, 1, 0, 0, 5⟩ ∧ link0.lslotDue 0 1 9 = some ⟨20, 9, 0, 1, 0, 1, 5⟩ ∧
    calm link0 = true ∧ link0.vme.heldIn = [] ∧ link0.vmeOn = false ∧ (laneRec (link0.lengine 0).active 0).len = 8 ∧
    link0.ltickFirst 0 true 0 = link0 ∧ calm sending = true ∧ sending.ltickFirst 0 false 0 = sending ∧
    (let s := { link0 with lengines := [(0, { link0.lengine 0 with acted := [0] })] }
     s.ltickFirst 0 true 1 = s ∧ s.lslotDue 0 1 9 = some ⟨20, 9, 0, 1, 0, 1, 5⟩ ∧ calm s = true) ∧
    (laneRec (sending.lengine 0).active 0).vc ≠ 0xFF := by decide +kernel

/-- RXCHK without a frame marks the buffer stale (R200). -/
theorem test_rxchk : gives link0 (.rxchk 0 1) (fun t => decide ((t.lengine 0).stale = [1]) && decide (t.reg (pgLsched 0) 0x138 = 1)) = true := by
  decide +kernel

/-! Region SRAM, DDR4, guards (R217 to R263). -/

/-- A store and a load at region 0's port. -/
def atPort (k : ReqKind) : State :=
  { ready lab with port := [(0, [⟨0, k, 0x10000040, 8, 0x1122334455667788, false, .tmi 0 3, 3, lab.fwGen 0⟩])] }

theorem witness_RegionSramServes : (atPort .store).sramReady 0 = true ∧ calm (atPort .store) = true ∧
    partialBad ((atPort .store).sramOf 0) 0x10000040 8 = [] ∧ partialFixed ((atPort .store).sramOf 0) 0x10000040 8 = [] ∧
    (atPort .store).ctxOf 0 1 = [] ∧ ((atPort .load).injEcc (pgRegion 0) (sramBank 0x10000040)).left = 0 ∧
    (setFlds lab [(pgRegion 0, 0x100, 1, 1, 1)]).bit (pgRegion 0) 0x100 1 = true ∧ (lab.portOf 0) = [] ∧
    (atPort .store).bistHolds 0 ⟨0, .store, 0x10000040, 8, 0x1122334455667788, false, .tmi 0 3, 3, lab.fwGen 0⟩ = false ∧
    ((atPort .load).sramOf 0).synAt (0x10000040 / 8) = 0 ∧ lab.regionOn 0 = true ∧
    (let s := (ready lab).setSram 0 { Ram.filled 0 with syn := [(0x2000000, 0x80)] }
     (s.sramOf 0).readWord 0x2000000 0 = .fixed 0 ∧ gives { s with sramWb := [(0, [0x2000000])] } (.sramWriteBack 0)
       (fun t => decide (t.sramOf 0 = Ram.filled 0)) = true) := by decide +kernel

theorem test_sram_store : gives (atPort .store) (.sramAccess 0) (fun t => decide ((t.sramOf 0).byte 0x10000047 = 0x11) &&
    decide (t.resps = [(.tmi 0 3, .ok 0)]) && decide (t.portOf 0 = [])) = true := by decide +kernel

theorem test_zero_fill_fails : gives (setFlds lab [(pgRegion 0, 0x100, 1, 1, 1)]) (.zeroFillComplete 0 false)
    (fun t => !t.bit (pgRegion 0) 0x100 1 && t.fcol.waiting.any fun e => decide (e.src = 0x145)) = true := by decide +kernel


/-- A channel pair with power: states of channels 0 and 1, MIRROR; a store at channel 0. -/
def ddr (a b mirror : Nat) (r : List FabReq) : State :=
  let s := setFlds lab [(pgPwr, 0x138, 17, 16, 3), (pgDdrc 0, 0x100, 0, 0, 1), (pgDdrc 1, 0x100, 0, 0, 1), (pgDdrc 0, 0x108, 1, 1, mirror),
    (pgDdrc 0, 0x110, 3, 0, a), (pgDdrc 1, 0x110, 3, 0, b), (pgDdrc 0, 0x100, 39, 32, 1)]
  { ((s.setDdr 0 (Ram.filled 0)).setDdr 1 (Ram.filled 0)) with ddrQ := if r.isEmpty then [] else [(0, r)] }

def ddrReq (k : ReqKind) (a : Nat) : FabReq := ⟨0, k, a, 8, 0x1122334455667788, false, .tmi 0 3, 3, 0⟩

/-- The last bytes of the 16 GiB fit, one more does not. -/
theorem witness_Ddr4Requests :
    (let s := ddr 3 0 0 [ddrReq .store (ddrBase 0 + 0x3FFFFFFF8)]
     calm s = true ∧ s.ddrGiB 0 = 16 ∧ s.ddrServe 0 = .one 0 ∧ partialBad (s.ddrOf 0) 0x3FFFFFFF8 8 = [] ∧
       partialFixed (s.ddrOf 0) 0x3FFFFFFF8 8 = []) ∧
    (ddr 4 4 1 []).ddrServe 0 = .both 0 ∧ (ddr 2 0 0 []).ddrServe 0 = .none ∧ (ddr 3 0 0 []).ddrAwake 0 = true ∧
    (ddr 0 0 0 []).ddrAwake 0 = false ∧
    (let s := ddr 4 4 1 [ddrReq .store (ddrBase 0 + 16)]
     calm s = true ∧ s.ddrServe 0 = .both 0 ∧ partialBad (s.ddrOf 1) 16 8 = [] ∧ partialFixed (s.ddrOf 1) 16 8 = [] ∧ s.ddrOf 0 = s.ddrOf 1) ∧
    (let s := ddr 3 0 0 []
     s.fld (pgDdrc 0) 0x100 39 32 = 1 ∧ AMap.get s.ddrWb (fun _ => []) 0 = [] ∧ s.fld (pgDdrc 0) 0x128 29 0 = 0 ∧
     (List.range 8).all (fun j => decide ((s.ddrOf 0).readWord j 0 = .good 0)) = true) := by decide +kernel

theorem test_mirrored_store : gives (ddr 4 4 1 [ddrReq .store (ddrBase 0 + 16)]) (.ddr4Request 0)
    (fun t => decide (t.byteAt (.ddr 0) 16 = 0x88) && decide (t.byteAt (.ddr 1) 23 = 0x11) && decide (t.resps = [(.tmi 0 3, .ok 0)])) = true ∧
    gives (ddr 3 0 0 [ddrReq .store (ddrBase 0 + 0x3FFFFFFF9)]) (.ddr4Request 0) (fun t => decide (t.resps = [(.tmi 0 3, .err)])) = true := by
  decide +kernel

theorem test_maintenance : gives (ddr 3 0 0 []) (.maintenanceWindow 0) (fun t => decide (t.fld (pgDdrc 0) 0x128 29 0 = 1)) = true := by
  decide +kernel

theorem witness_Ddr4States : hits (ddr 1 0 0 []) 0x0201 (pgDdrc 0) 0x100 8 1 .ddrc 0 1 = true ∧
    hits (ddr 1 0 0 []) 0x0201 (pgDdrc 0) 0x100 8 (BitVec.ofNat 64 (33 * 2 ^ 32 + 1)) .ddrc 0 (BitVec.ofNat 64 (33 * 2 ^ 32 + 1)) = true ∧
    (ddr 1 0 0 []).reg (pgDdrc 0) 0x108 = 0 ∧
    [4, 8, 16, 32].all (fun v => hits (ddr 1 0 0 []) 0x0201 (pgDdrc 0) 0x108 8 v .ddrc 0 0) = true ∧
    (ddr 4 4 1 []).mirrored 0 = true ∧ (ddr 8 0 0 []).dstate 0 = 8 ∧ hits (ddr 3 3 0 []) 0x0201 (pgDdrc 0) 0x108 8 2 .ddrc 0 2 = true ∧
    hits (ddr 4 4 1 []) 0x0201 (pgDdrc 0) 0x108 8 0 .ddrc 0 0 = true ∧ (ddr 10 0 0 []).ddrOn 0 = true := by decide +kernel

theorem test_training : gives (ddr 2 0 0 []) (.trainingComplete 0 false 70000) (fun t => decide (t.dstate 0 = 7) &&
    decide (t.fld (pgDdrc 0) 0x138 31 16 = 65535)) = true ∧
    gives (ddr 5 3 1 []) (.trainingComplete 0 true 3) (fun t => decide (t.dstate 0 = 6)) = true := by decide +kernel

/-- A flit from triad 7 to region 0 under tag 3, and a CRC context of the unit of region 0 for slot 0 with CRC-32. -/
def flit (seq : Nat) (good endpoint : Bool) (load : FlitLoad := .message) : FlitIn :=
  ⟨0, some 0, endpoint, 7, 64, false, seq, false, 3, load, good⟩

def crcCtx (r : List FabReq) : State :=
  let s := setFlds (ready lab) [(pgCrcu 0, ctxAt 0 0, 0, 0, 1)]
  if r.isEmpty then s else { s with port := [(0, r)], tags := [⟨3, 0, .tmi 0 3, none⟩] }

def feed : FabReq := ⟨0, .crc, 0x10000000, 8, 0x3837363534333231, false, .tmi 0 3, 3, lab.fwGen 0⟩

theorem witness_Guards : hits lab 0x0201 (pgFwall 0) 0x100 8 2 .fwall 0 0 = true ∧ lab.locked (pgFwall 0) = false ∧
    hits lab 0x0201 (pgFwall 0) 0x100 8 (withBits (lab.reg (pgFwall 0) 0x100) 2 2 1) .fwall 0 0 = true ∧
    lab.flitInject (flit 0 true true) = none ∧ AMap.get lab.flitRx (fun _ => 0) (flit 0 true true).path = 0 ∧ quiet lab 0 = true ∧
    (crcCtx [feed]).tags.find? (fun t => t.tag == 3) = some ⟨3, 0, .tmi 0 3, none⟩ ∧ lab.tags.find? (fun t => t.tag == 3) = none ∧
    silent (crcCtx [feed]) 0 = true ∧ quiet (crcCtx [feed]) 0 = true ∧
    lab.tagFault (flit 0 true true) = false ∧ lab.tagFault (flit 0 true true .response) = true ∧
    lab.tagFault (flit 0 true true (.request 5)) = true ∧ lab.tagFault (flit 0 true true (.request 0)) = false ∧
    (let s := setFlds lab [(pgFwall 0, 0x100, 0, 0, 1)]
     hits s 0x0201 (pgFwall 0) 0x100 8 3 .fwall 0 1 = true) := by
  decide +kernel

/-- 2047 ahead is in sequence space ahead, 2048 behind (R255). -/
theorem test_flits : gives (setFlds lab []) (.flitArrival (flit 2047 true true)) (fun t => decide (AMap.get t.flitRx (fun _ => 0) (flit 0 true true).path = 2048) &&
    !t.fcol.waiting.isEmpty) = true ∧
    gives lab (.flitArrival (flit 2048 true true)) (fun t => decide (AMap.get t.flitRx (fun _ => 0) (flit 0 true true).path ≠ 2049)) = true ∧
    gives { lab with notices := [⟨.loss, 1, 9, 5⟩] } (.flitArrival (flit 0 false true (.notice .loss 1 9)))
      (fun t => decide (t.notices = []) && t.fcol.waiting.any fun w => decide (w.src = 0x1EE)) = true := by decide +kernel

theorem witness_CrcUnits : (crcCtx [feed]).portOf 0 = [feed] ∧ (crcCtx [feed]).bistHolds 0 feed = false ∧
    ((crcCtx [feed]).ctxOf 0 0).filter (fun j => (crcCtx [feed]).ccfg 0 j 13 12 == feed.iid % 4) = [0] ∧ (crcCtx [feed]).ccfg 0 0 63 32 = 0 ∧
    lab.ctxOf 0 0 = [] ∧ hits lab 0x0201 (pgCrcu 0) 0x100 8 (withBits (lab.reg (pgCrcu 0) 0x100) 7 0 255) .crcu 0 0 = true ∧
    hits lab 0x0201 (pgCrcu 0) (ctxAt 7 0) 8 1 .crcu 0 1 = true ∧ hits lab 0x0201 (pgCrcu 0) (ctxAt 7 0) 8 0x301 .crcu 0 0x301 = true ∧
    (crcCtx []).slotTaken 0 7 0 = true ∧ hits (crcCtx []) 0x0201 (pgCrcu 0) (ctxAt 0 0) 8 0 .crcu 0 0 = true ∧
    hits lab 0x0201 (pgCrcu 0) (ctxAt 0 0x18) 8 5 .crcu 0 5 = true ∧ hits lab 0x0201 (pgCrcu 0) (ctxAt 0 0x20) 8 5 .crcu 0 5 = true := by
  decide +kernel

/-- A context initialised by INIT and fed counts its bytes (R260). -/
theorem test_crc_feed : gives (crcCtx [feed]) (.crcFeed 0) (fun t => decide (t.reg (pgCrcu 0) (ctxAt 0 0x20) = 8) &&
    decide (t.resps = [(.tmi 0 3, .ok 0)])) = true := by decide +kernel

/-! FCOL (R264 to R289). Region 0's sources are 0x140 to 0x145, triad 0's 0 to 4. -/

def ev (src : Nat) : FaultEv := ⟨src, 1, 0xFF, 0x77, false, false, false⟩
def evs (l : List FaultEv) : State := { lab with fcol := { lab.fcol with waiting := l } }

/-- A generation is active whose entry of a source has this class, action and threshold. -/
def rtable (s : State) (src cls act thresh : Nat) : State :=
  let p := rentryAt 4 src
  setFlds { s with fcol := { s.fcol with gen := 1 } } [(p.1, p.2, 7, 0, cls), (p.1, p.2, 15, 8, act), (p.1, p.2, 47, 40, thresh)]

theorem witness_FaultSources : srcPresent lab.dies 0x1F1 = true ∧ lab.srcLive 0x1F1 = true ∧ lab.srcLive 0 = true ∧ lab.srcLive 5 = false ∧
    lab.leakMs = 0 ∧ (setFlds { lab with fcol := { lab.fcol with gen := 1 } } [(4, 0x910, 47, 32, 3)]).leakMs = 3 ∧
    (setFlds lab [(pgFcol, 0x100, 2, 2, 0)]).bit pgFcol 0x100 2 = false ∧ lab.bit pgFcol 0x100 2 = true ∧
    lab.copySource 0x1F1 = none ∧ lab.copySource 0 = some (0, 0) ∧ lab.running 0 = [0, 1, 2] ∧ isRunMode (lab.triad 0).mode = true := by
  decide +kernel

/-- A check error inside copy B diverges it (R51), one of the voter stops the triad with cause 7 (R68). -/
theorem test_inside_checks : gives lab (.faultEvent 1 4 0xFF 0) (fun t => decide ((t.copy 1).st = .ejected)) = true ∧
    gives lab (.railFault 2 0) (fun t => decide ((t.copy 2).st = .ejected)) = true ∧
    gives lab (.faultEvent 3 5 0xFF 0) (fun t => decide ((t.triad 0).mode = 5) && decide (t.fld (pgTriad 0) 0x110 19 17 = 7)) = true := by
  decide +kernel

theorem test_fault_merges : gives (evs [ev 0x1F1]) (.faultEvent 0x1F1 2 0xFF 5) (fun t => decide (t.fcol.waiting.length = 1) &&
    t.fcol.waiting.all fun w => w.merged) = true ∧
    gives lab (.railSweep [0x1F1]) (fun t => t.fcol.waiting.any fun w => w.rail) = true := by decide +kernel

/-- Plain events of every class the clauses of R270 need: SWAP of triad 0, REGION-SAFE of region 0, DEVICE-SAFE and RESET. -/
theorem witness_FaultsAreTaken :
    (let s := rtable (evs [ev 0]) 0 3 4 0
     (s.rentry 0).cls = 3 ∧ (s.rentry 0).action = 4 ∧ isRunMode (s.triad 0).mode = true ∧ calm s = true) ∧
    (let s := rtable (evs [ev 0x141]) 0x141 3 6 0
     (s.rentry 0x141).action = 6 ∧ s.regionOn 0 = true ∧ s.bit (pgFwall 0) 0x108 0 = false) ∧
    (rtable lab 0x1A0 4 7 0).starting = false ∧ (rtable lab 1 4 8 0).fcol.resetDue = none ∧ lab.fld pgWarden 0x108 3 0 ≠ 4 ∧
    (let s := rtable (evs [ev 0x140]) 0x140 1 1 3
     (s.rentry 0x140).cls ≤ 2 ∧ (s.rentry 0x140).thresh = 3 ∧ s.thrOf 0x140 + 1 < 3 ∧ bitAt (s.rentry 0x140).notify 2 = false) ∧
    (let s := rtable (evs [ev 0x140]) 0x140 1 1 1
     (s.rentry 0x140).action = 1 ∧ s.leader (s.rentry 0x140).ntriad = some 0 ∧ s.dsafe = false) := by decide +kernel

/-- SWAP stops the triad; an event below its threshold is only counted (R270, R273). -/
theorem test_swap : gives (rtable (evs [ev 0]) 0 3 4 0) .takeEvent (fun t => decide ((t.triad 0).mode = 5) && decide (t.fcol.head = 1)) = true ∧
    gives (rtable (evs [ev 0x140]) 0x140 1 1 3) .takeEvent (fun t => decide (t.thrOf 0x140 = 1) && decide ((t.triad 0).stamps = [])) = true ∧
    gives (rtable (evs [ev 0x141]) 0x141 3 6 0) .takeEvent (fun t => t.bit (pgFwall 0) 0x108 0 && decide ((t.engine 0).state = 2)) = true := by
  decide +kernel

/-- A device-wide reaction: DEVICE-SAFE stops every triad; RESET follows it after 1 ms (R270). -/
theorem test_device_safe : gives (rtable (evs [ev 1]) 1 4 8 0) .takeEvent (fun t => t.fcol.dsafe && decide (t.fcol.resetDue = some 1000000) &&
    decide ((t.triad 0).mode = 5)) = true := by decide +kernel

/-- A reaction table: the inactive pages equal to the active ones' reset contents. -/
theorem witness_ReactionTable : hits lab 0x0201 pgFcol 0x120 8 1 .fcol 0 0 = true ∧ lab.reactionCheck.isSome = true ∧
    hits lab 0x0201 pgFcol 0x110 8 7 .fcol 0 7 = true ∧
    (setFlds { lab with fcol := { lab.fcol with checked := some 7 } } [(pgFcol, 0x118, 2, 0, 2), (pgFcol, 0x110, 63, 0, 7)]).fld pgFcol 0x118 2 0 = 2 ∧
    lab.timeB.actGen = 0 ∧ AMap.wf lab.regs regReset = true ∧ hits lab 0 pgFcol 0x140 8 255 .fcol 0 255 = true ∧
    hits lab 0x0201 pgFcol 0x100 8 (withBits (lab.reg pgFcol 0x100) 4 4 1) .fcol 0 (lab.reg pgFcol 0x100) = true ∧
    hits lab 0x0201 pgFcol 0x100 8 (withBits (lab.reg pgFcol 0x100) 3 3 1) .fcol 0 (lab.reg pgFcol 0x100) = true ∧
    hits lab 0x0201 (pgTriad 0) 0x28 8 (0x20 ||| 1) .triad 0 0x21 = true ∧
    (setFlds lab [(pgFcol, 0x100, 0, 0, 1)]).bit pgFcol 0x100 0 = true ∧ bitAt (injKinds lab.dies (pgTriad 0)) 2 = true ∧
    bitAt (injKinds lab.dies (pgTriad 0)) 4 = false := by decide +kernel

theorem test_reaction_exchange : gives (setFlds { lab with fcol := { lab.fcol with checked := some 7 } }
      [(pgFcol, 0x118, 2, 0, 2), (pgFcol, 0x110, 63, 0, 7), (6, 0x908, 63, 0, 7)]) .reactionBankExchange
    (fun t => decide (t.fcol.gen = 7) && decide (t.reg 4 0x908 = 7) && decide (t.fld pgFcol 0x118 2 0 = 3)) = true := by decide +kernel

theorem test_arm_without_injen : gives lab (.arm 0x0201 (pgTriad 0) 0x20) (fun t => t.bit (pgTriad 0) 0x20 2) = true := by decide +kernel

/-! Lanes and links (R293 to R318). -/

/-- Quads 0 and 4 with power; lane `l` enabled, BVL, in a state. -/
def lane (l st : Nat) : State :=
  setFlds lab [(pgPwr, 0x138, 24, 24, 1), (pgPwr, 0x138, 28, 28, 1), (pgLane l, 0x100, 13, 12, 1), (pgLane l, 0x100, 16, 16, 1),
    (pgLane l, 0x108, 3, 0, st)]

def cap1 : Cap := ⟨6, 15, 4, 9, 0, 0, false, false, 0x55⟩

/-- What arrives of a frame that passes the checks of R301, on a lane with a header. -/
def framed (l : Nat) (h : BvlHdr) (b : BvlBody) : BvlRx :=
  { lane := l, type := frameCode b, len := (payload b).length, zeros := 0, crc := frameCrc h (frameCode b) (payload b).length 0 b,
    vcOk := true, hdr := h }

def hdr (seq : Nat) (ack : Option (Nat × Nat)) : BvlHdr := ⟨0, false, true, seq, ack, 9, 0, 5⟩

/-- Lane 0 hears a CAP. -/
def capRx (c : Cap) : BvlRx := framed 0 (hdr 0 none) (.cap c)

/-- The check forms of `State.hearsFrame` and `State.takesFrame`. -/
def hears (s : State) (x : BvlRx) (b : BvlBody) : Bool :=
  s.laneTakes x.lane x.hdr.vc b && decide (s.linkState (s.linkOfLane x.lane) ≠ 5) && !s.injArmed (pgLaneq (x.lane / 4)) 4 (x.lane % 4)
def takes (s : State) (x : BvlRx) (b : BvlBody) : Bool := hears s x b && frameGood x b

theorem takesFrame_of_takes (s : State) (x : BvlRx) (b : BvlBody) (h : takes s x b = true) : s.takesFrame x b := by
  simp only [takes, hears, Bool.and_eq_true, decide_eq_true_eq, Bool.not_eq_true'] at h
  exact ⟨⟨h.1.1.1, h.1.1.2, h.1.2⟩, h.2⟩

/-- Lane 0 in a state, with a CAP received `n` times. -/
def heard (st n : Nat) : State :=
  (lane 0 st).setLane 0 { LaneSt.idle with cap := some cap1, count := n, ready := true, partnerReady := true, rate := 1, version := 2, lanes := 1 }

/-- An Ethernet rack lane with signal in Detect. -/
def rack : State := setFlds lab [(pgPwr, 0x138, 28, 28, 1), (pgLane 16, 0x100, 13, 12, 2), (pgLane 16, 0x100, 16, 16, 1),
  (pgLane 16, 0x108, 3, 0, 1), (pgLane 16, 0x108, 8, 8, 1), (pgLane 16, 0x100, 8, 0, 0x1FF)]

theorem witness_LaneStatesUp :
    hits (setFlds (lane 0 0) [(pgLane 0, 0x100, 16, 16, 0)]) 0x0201 (pgLane 0) 0x100 8
      (withBits ((setFlds (lane 0 0) [(pgLane 0, 0x100, 16, 16, 0)]).reg (pgLane 0) 0x100) 16 16 1) .lane 0
      (withBits ((setFlds (lane 0 0) [(pgLane 0, 0x100, 16, 16, 0)]).reg (pgLane 0) 0x100) 16 16 1) = true ∧
    (lane 0 0).quadOn 0 = true ∧ (lane 0 0).quadIsolated 0 = false ∧
    hits (lane 31 5) 0x0201 (pgLane 31) 0x100 8 (withBits ((lane 31 5).reg (pgLane 31) 0x100) 16 16 0) .lane 31
      (withBits ((lane 31 5).reg (pgLane 31) 0x100) 16 16 0) = true ∧
    (lane 0 1).laneProto 0 = 1 ∧ (lane 31 10).laneState 31 = 10 ∧ (lane 0 8).bit (pgLane 0) 0x108 8 = false ∧
    bitAt (rack.fld (pgLane 16) 0x100 8 0) 8 = true ∧ rack.laneProto 16 = 2 ∧ (rack.lane 16).noAbility = false ∧
    sameCap cap1 { cap1 with ready := true } = true ∧ (heard 2 2).quarantineCode 0 cap1 = 0 ∧
    (heard 2 2).quarantineCode 0 { cap1 with vermask := 0 } = 1 ∧ 1 ≤ ((heard 2 2).ownCap 0).maxlanes ∧
    ((heard 4 3).lane 0).spareFor = none ∧ ((heard 4 3).lane 0).cap = some cap1 ∧
    frameGood (capRx cap1) (.cap cap1) = true ∧ frameGood { capRx cap1 with zeros := 1 } (.cap cap1) = false ∧
    frameGood (capRx { cap1 with vermask := 7 }) (.cap { cap1 with vermask := 7 }) = false ∧
    (heard 2 2).laneBvl 0 = true ∧ (heard 2 2).injArmed (pgLaneq 0) 4 0 = false ∧ calm (heard 4 3) = true ∧ (heard 2 2).links = [] ∧
    (lane 0 0).dsafe = false ∧ ((lane 0 1).lane 0).spareFor = none ∧ (lane 0 1).laneBvl 0 = true ∧ rack.laneBvl 16 = false ∧
    (setFlds rack [(pgLane 16, 0x108, 3, 0, 3)]).laneState 16 = 3 ∧ (lane 0 9).laneState 0 = 9 ∧ (heard 2 3).laneState 0 = 2 ∧
    sameCap { cap1 with state := 2 } { cap1 with state := 2 } = true ∧ sameCap { cap1 with state := 5 } { cap1 with state := 5, srcdev := 8 } = false ∧
    (heard 4 3).fld (pgLane (((heard 4 3).activeLanes 1).headD 1)) 0x110 47 40 ≠ cap1.srcdev := by decide +kernel

/-- Three equal CAP frames make READY; version and rate are the highest common ones (R295, R296); the wrong version is Quarantine. -/
theorem test_cap_exchange : gives (heard 2 2) (.cap (capRx cap1) 0 cap1) (fun t => (t.lane 0).ready && decide ((t.lane 0).version = 2) &&
    decide ((t.lane 0).rate ≠ 0)) = true ∧
    gives ((heard 2 2).setLane 0 { (heard 2 2).lane 0 with cap := some { cap1 with vermask := 8 } }) (.cap (capRx { cap1 with vermask := 8 }) 0 { cap1 with vermask := 8 })
      (fun t => decide (t.laneState 0 = 6) && decide (t.fld (pgLane 0) 0x110 55 52 = 1)) = true := by decide +kernel

theorem test_cap_flags : gives (heard 2 2) (.cap (capRx cap1) 1 cap1) (fun t => decide (t.lanes = (heard 2 2).lanes) &&
    decide (t.fld (pgLane 0) 0x120 63 48 = 1)) = true := by decide +kernel

theorem test_lane_joins : gives (heard 4 3) (.cap (capRx cap1) 0 cap1) (fun t => decide (t.laneState 0 = 5) && decide (t.linkState 0 = 2)) = true ∧
    gives rack (.autoNegotiation 16 0x1FF false 0) (fun t => decide (t.laneState 16 = 3)) = true := by decide +kernel

/-- Link 0 up on lane 0; a second lane 1. -/
def up1 : State := setFlds (lane 0 5) [(pgBvl 0, 0x108, 3, 0, 2), (pgBvl 0, 0x108, 48, 48, 1)]
def up2 : State := setFlds up1 [(pgBvl 0, 0x100, 47, 32, 3), (pgBvl 1, 0x108, 12, 8, 0), (pgBvl 1, 0x108, 3, 0, 6), (pgLane 1, 0x100, 13, 12, 1),
  (pgLane 1, 0x100, 16, 16, 1), (pgLane 1, 0x108, 3, 0, 5)]

theorem witness_LaneStatesDown : up1.linkOfLane 0 = 0 ∧ up1.activeLanes 0 = [0] ∧ up2.activeLanes 0 = [0, 1] ∧
    ((up1.linkLanes 0).any fun y => up1.laneState y == 7) = false ∧
    hits up1 0x0201 (pgLane 0) 0x100 8 (withBits (up1.reg (pgLane 0) 0x100) 18 18 1) .lane 0 (up1.reg (pgLane 0) 0x100) = true ∧
    hits (lane 31 6) 0x0201 (pgLane 31) 0x100 8 (withBits ((lane 31 6).reg (pgLane 31) 0x100) 17 17 1) .lane 31 ((lane 31 6).reg (pgLane 31) 0x100) = true ∧
    hits up1 0x0201 (pgLane 0) 0x100 8 (withBits (up1.reg (pgLane 0) 0x100) 24 24 1) .lane 0 (up1.reg (pgLane 0) 0x100) = true ∧
    up1.wakeEnabled 1 0 = false ∧ ((heard 3 0).setLane 0 { LaneSt.idle with spareFor := some 1 }).lane 0 = { LaneSt.idle with spareFor := some 1 } ∧
    (let s := setFlds (labT fun d => { d with entry := 7 }) [(pgPwr, 0x108, 1, 0, 1), (pgPwr, 0x118, 0, 0, 1), (pgLane 0, 0x100, 21, 20, 1)]
     s.wakeEnabled 1 0 = true ∧ s.asleep = false ∧ s.fld pgPwr 0x108 1 0 = 1 ∧ s.fld pgPwr 0x108 37 32 = 0 ∧ s.pastAbort 0 = true ∧
     s.wakeLatch = none ∧ calm s = true) ∧
    (setFlds up1 [(pgBvl 0, 0x108, 3, 0, 5)]).linkState 0 = 5 ∧ 0 ∈ up1.linkLanes 0 ∧ up1.laneBvl 0 = true ∧
    (setFlds rack [(pgLane 16, 0x108, 3, 0, 5)]).laneBvl 16 = false ∧
    hits (setFlds rack [(pgLane 16, 0x108, 3, 0, 5)]) 0x0201 (pgLane 16) 0x100 8 (withBits (rack.reg (pgLane 16) 0x100) 18 18 1) .lane 16
      (rack.reg (pgLane 16) 0x100) = true ∧
    hits up2 0x0201 (pgLane 0) 0x100 8 (withBits (up2.reg (pgLane 0) 0x100) 18 18 1) .lane 0 (up2.reg (pgLane 0) 0x100) = true ∧
    (setFlds up1 [(pgPwr, 0x108, 1, 0, 1)]).asleep = false ∧ calm up1 = true ∧ up1.links = [] := by decide +kernel

/-- The last lane fails: the link goes Down (R306, R311); one of two fails: Degraded (R312). -/
theorem test_lane_failure : gives up1 (.laneFailure 0 1) (fun t => decide (t.laneState 0 = 8) && decide (t.linkState 0 = 5)) = true ∧
    gives (up2.setLink 0 { Link.empty with full := 2 }) (.laneFailure 1 4) (fun t => decide (t.linkState 0 = 3)) = true := by decide +kernel

def rx (seq : Nat) (b : BvlBody) (ack : Option (Nat × Nat) := none) : BvlRx := framed 0 (hdr seq ack) b
def eight (x : Byte) : List Byte := x :: List.replicate 7 0
def kept (tries : Nat) : State := up1.setLink 0 { Link.empty with retry := [⟨hdr 3 none, .data [1], 0, tries⟩] }

/-- A link without queued frames, whose retry buffer and reorder buffer hold VC 1. -/
def kept1 (dsafe : Bool) : State :=
  let s := up1.setLink 0 { Link.empty with retry := [⟨{ hdr 3 none with vc := 1 }, .data (eight 1), 0, 0⟩], held := [⟨{ hdr 4 none with vc := 1 }, .data (eight 1), 0⟩] }
  { s with fcol := { s.fcol with dsafe := dsafe } }

theorem witness_LinkFramesAreOrdered : takes up1 (rx 1 (.data (eight 7))) (.data (eight 7)) = true ∧
    takes up1 (rx 65535 (.req 0x10000000 1 3 [])) (.req 0x10000000 1 3 []) = true ∧ takes up1 (rx 1 (.rsp 1 [])) (.rsp 1 []) = true ∧
    takes up1 (rx 1 (.vote ⟨9, 0, 0, 0, 3, 5, 1⟩)) (.vote ⟨9, 0, 0, 0, 3, 5, 1⟩) = true ∧ takes up1 (rx 1 (.svc 1 1 [])) (.svc 1 1 []) = true ∧
    hears up1 (rx 1 (.data (eight 7))) (.data [7]) = true ∧ frameGood (rx 1 (.data (eight 7))) (.data [7]) = false ∧
    takes up1 (rx 0 .ack (some (0, 3))) .ack = true ∧ takes (kept 0) (rx 3 .nak) .nak = true ∧
    (up1.link 0).expect 0 = 0 ∧ (up1.link 0).held = [] ∧ seqLe 0 1 = true ∧ seqLe 0 32767 = true ∧ seqLe 0 32768 = false ∧ seqLe 0 65535 = false ∧
    ((up1.link 0).wait = [] ∧ (up1.link 0).again = [] ∧ (up1.link 0).ctl = []) ∧ (kept 0).vcOpen 0 0 = true ∧
    ((kept 0).link 0).retry.any (fun x => x.hdr.vc == 0 && seqLe 3 x.hdr.seq) = true ∧ 1 ≤ up1.lfld 0 0x100 31 24 ∧ up1.lfld 0 0x100 31 24 ≤ 255 ∧
    calm (kept1 true) = true ∧ (kept1 true).linkState 0 = 2 ∧ (kept1 true).vcOpen 0 1 = false ∧ (kept1 false).vcOpen 0 1 = true ∧
    ((kept1 true).link 0).retry.find? (fun x => x.hdr.vc == 1) = some ⟨{ hdr 3 none with vc := 1 }, .data (eight 1), 0, 0⟩ ∧
    ((kept1 true).link 0).held.find? (fun x => x.hdr.vc == 1) = some ⟨{ hdr 4 none with vc := 1 }, .data (eight 1), 0⟩ := by
  decide +kernel

/-- A frame that is ahead waits; an old one is acknowledged again; a tired NAK takes the link Down (R304, R305). -/
theorem test_frame_order : gives up1 (.data (rx 1 (.data (eight 7))) (eight 7)) (fun t => decide ((t.link 0).held.length = 1)) = true ∧
    gives up1 (.data (rx 65535 (.data (eight 7))) (eight 7))
      (fun t => t.out.any fun o => match o with | .bvl 0 _ h .ack => h.ack == some (0, 65535) | _ => false) = true ∧
    gives (kept 255) (.nak (rx 3 .nak)) (fun t => decide (t.linkState 0 = 5)) = true ∧
    gives (kept 0) (.nak (rx 3 .nak)) (fun t => t.out.any fun o => match o with | .bvl 0 0 h (.data _) => h.retry && decide (h.seq = 3) | _ => false)
      = true := by decide +kernel

/-- A link engine with one RX record of 8 bytes at 0x1000_0000 for VC 0 of lane 0. -/
def rxLab : State :=
  { (ready up1) with
    lengines := [(0, { LEngine.empty with state := 1, active := bank [(0, 2, 0), (2, 2, 1), (16, 8, 0x10000000), (24, 4, 8), (30, 1, 1)] })] }

/-- The commit of the section asks for agreement (flag bit 0). -/
def agreed : State :=
  let s := sched slots4
  let b := (s.engine 0).active
  s.setEngine 0 { s.engine 0 with active := AMap.set b (fun _ => 0) 22 (AMap.get b (fun _ => 0) 22 ||| 0x10000) }

/-- The link leads TIME, or follows it: its partner is a master. -/
def timing (role : Nat) : State :=
  (setFlds up1 [(pgBvl 0, 0x118, 1, 0, role), (pgTime, 0x100, 1, 0, if role = 2 then 3 else 0)]).setLane 0
    { LaneSt.idle with cap := some { cap1 with master := true } }

/-- Link 0 is up besides. -/
def agreedUp : State :=
  setFlds agreed [(pgPwr, 0x138, 24, 24, 1), (pgLane 0, 0x100, 13, 12, 1), (pgLane 0, 0x100, 16, 16, 1), (pgLane 0, 0x108, 3, 0, 5),
    (pgBvl 0, 0x108, 3, 0, 2)]

theorem witness_LinkFramesAreDelivered : rxLab.linkOfLane 0 = 0 ∧ (rxLab.link 0).expect 0 = 0 ∧ rxLab.rxRecord 0 0 = some (0, 0) ∧
    takes rxLab (rx 0 (.data (eight 1))) (.data (eight 1)) = true ∧ takes up1 (rx 0 (.req 0x10000000 2 3 (eight 1))) (.req 0x10000000 2 3 (eight 1)) = true ∧
    takes up1 (rx 0 (.rsp 0 [])) (.rsp 0 []) = true ∧ takes agreed (rx 0 (.vote ⟨9, 0, 0, 0, 3, 5, 1⟩)) (.vote ⟨9, 0, 0, 0, 3, 5, 1⟩) = false ∧
    takes agreedUp (rx 0 (.vote ⟨9, 0, 0, 0, 3, 5, 1⟩)) (.vote ⟨9, 0, 0, 0, 3, 5, 1⟩) = true ∧
    agreedUp.voteHolders ⟨9, 0, 0, 0, 3, 5, 1⟩ = [(0, 0)] ∧ agreedUp.engineRuns 0 = true ∧ agreedUp.timeB.frameNo = 5 ∧ calm agreedUp = true ∧
    takes up1 (rx 0 (.time 100 0 0)) (.time 100 0 0) = true ∧ takes (timing 2) (rx 0 (.time 100 0 0)) (.time 100 0 0) = true ∧
    (timing 2).fld pgTime 0x100 1 0 = 3 ∧ (timing 2).timeB.pendSrc = none ∧
    ((timing 2).lfld 0 0x108 27 24 ≠ 1) ∧ calm (timing 2) = true ∧
    (let s := up1.setLink 0 { Link.empty with peerOut := [⟨5, .tmi 0 3, 8, true, 0⟩] }
     takes s (rx 0 (.rsp 0 (eight 1))) (.rsp 0 (eight 1)) = true ∧ (s.link 0).peerOut.find? (fun z => z.tag == 5) = some ⟨5, .tmi 0 3, 8, true, 0⟩) ∧
    takes up2 (rx 0 (.svc 1 1 [])) (.svc 1 1 []) = true ∧
    ((rxLab.accepted 0 (hdr 0 none)).laneWrite 0 (laneRec (rxLab.lengine 0).active 0) (pieces 9 0x10000000 8) (eight 1) 0).2 = 8 ∧
    (laneRec (rxLab.lengine 0).active 0).len = 8 ∧ (up1.accepted 0 (hdr 0 none)).rxRecord 0 0 = none ∧
    ((rxLab.accepted 0 (hdr 0 none)).memWrite 0x120 0x10000000 [1, 2]).2 = true ∧
    peerRange 0x10000000 = true ∧ (up1.accepted 0 (hdr 0 none)).freeTag 0x8000 1024 = some 0x8000 ∧ up1.voteHolders ⟨9, 0, 0, 0, 3, 5, 1⟩ = [] ∧
    agreed.voteHolders ⟨9, 0, 0, 0, 3, 5, 1⟩ = [(0, 0)] ∧ agreed.engineRuns 0 = true ∧ up2.linkUp 0 = true ∧
    (up2.linkLanes 0)[1]? = some 1 ∧ up1.lfld 0 0x108 27 24 ≠ 1 ∧ (timing 2).followLink = some 0 ∧
    up1.followLink = none := by decide +kernel

/-- DATA lands in its buffer; a request off the windows is answered with an error (R307, R310). -/
theorem test_data : gives rxLab (.data (rx 0 (.data (eight 0x22))) (eight 0x22)) (fun t => decide (t.byteAt (.sram 0) 0x10000000 = 0x22) &&
    decide (AMap.get (t.lengine 0).rxPtr (fun _ => 0) 0 = 8)) = true ∧
    gives up1 (.req (rx 0 (.req 0x80000000000 1 3 [])) 0x80000000000 1 3 [])
      (fun t => t.out.any fun o => match o with | .bvl 0 _ _ (.rsp 1 []) => true | _ => false) = true := by
  decide +kernel

theorem test_lane_down_message : gives up2 (.svc (rx 0 (.svc 1 1 [])) 1 1 []) (fun t => decide (t.activeLanes 0 = [0])) = true := by decide +kernel

theorem witness_LinkTimersAndRegisters : (timing 1).vcOpen 0 0 = true ∧ (timing 1).partnerMaster 0 = true ∧ (timing 2).followLink = some 0 ∧
    (setFlds (timing 2) [(pgBvl 0, 0x118, 2, 2, 1), (pgTime, 0x108, 1, 0, 3)]).bit (linkPage 0) (linkOff 0 0x118) 2 = true ∧
    (setFlds (timing 2) [(pgTime, 0x108, 4, 4, 1)]).bit pgTime 0x108 4 = true ∧
    (setFlds (timing 2) [(pgTime, 0x108, 1, 0, 3)]).fld pgTime 0x108 1 0 ≠ 0 ∧
    (let k : Link := { Link.empty with peerIn := [⟨9, 5, true, true, 0x10000000, 8, 0, [], 0⟩] }
     k.serving 9 5 = some ⟨9, 5, true, true, 0x10000000, 8, 0, [], 0⟩) ∧
    (let s := setFlds lab [(pgPwr, 0x138, 27, 24, 15)]
     let v := withBits (s.reg (pgBvl 0) 0x100) 47 32 0x8001
     hits s 0x0201 (pgBvl 0) 0x100 8 v .bvl 0 v = true ∧ s.ownLink 15 = false ∧ s.linkState 0 = 0) ∧ up1.linkState 0 = 2 ∧
    (let s := setFlds up1 [(pgFcol, 0x1C0, 0, 0, 1)]
     s.quadIsolated 0 = true ∧ hits s 0x0201 (pgLaneq 0) 0x100 8 1 .laneq 0 0 = true ∧ calm s = true) ∧
    ((timing 1).link 0).wait = [] ∧ ((timing 1).link 0).again = [] ∧ ((timing 1).link 0).ctl = [] ∧ calm (timing 1) = true ∧
    (timing 1).lfld 0 0x118 1 0 = 1 ∧ (timing 1).fld pgTime 0x100 1 0 ≠ 3 ∧ (timing 1).lfld 0 0x108 27 24 ≠ 1 ∧
    (let s := (setFlds (timing 2) [(pgBvl 0, 0x118, 2, 2, 1), (pgTime, 0x108, 1, 0, 3)]).setLink 0 { Link.empty with timeLast := some (5, 3) }
     s.followLink = some 0 ∧ (s.link 0).timeLast = some (5, 3) ∧ s.bit (linkPage 0) (linkOff 0 0x118) 2 = true ∧
     s.fld pgTime 0x108 1 0 = 3 ∧ s.bit pgTime 0x108 4 = false ∧ calm s = true ∧
     let t := setFlds s [(pgTime, 0x108, 4, 4, 1)]
     t.bit pgTime 0x108 4 = true ∧ t.followLink = some 0 ∧ calm t = true) ∧
    (let s := up1.setLink 0 { Link.empty with peerOut := [⟨5, .tmi 0 3, 8, true, 0⟩] }
     calm s = true ∧ (s.link 0).peerOut.find? (fun y => y.tag == 5) = some ⟨5, .tmi 0 3, 8, true, 0⟩) ∧
    hits up1 0x0201 (linkPage 0) (linkOff 0 0x100) 8 (up1.reg (pgBvl 0) 0x100) .bvl 0 (up1.reg (pgBvl 0) 0x100) = true ∧
    up1.locked (linkPage 0) = false := by decide +kernel

theorem test_blcfg : 
    (let s := setFlds lab [(pgPwr, 0x138, 27, 24, 15)]
     gives s (.blcfgWrite 0x0201 0 (withBits (s.reg (pgBvl 0) 0x100) 47 32 0x8001)) fun t =>
       decide (t.linkState 15 = 6) && decide (t.linkOfLane 15 = 0)) = true ∧
    gives up1 (.blcfgWrite 0x0201 0 (up1.reg (pgBvl 0) 0x100)) (fun t => decide (t.lfld 0 0x108 16 16 = 1)) = true := by decide +kernel

/-! Ports (R319 to R347). -/

/-- MAC 16 (MGMT0) enabled with rings of 16 descriptors in region SRAM 0: transmit at 0x1000_1000, receive at 0x1000_2000; the first of each
belongs to the port, with a buffer of 64 bytes. -/
def mac (owned : Bool) : State :=
  let p := macPage 16
  let s := setFlds (ready lab) [(p, 0x100, 0, 0, 1), (p, 0x118, 47, 5, 0x10001000 / 32), (p, 0x118, 63, 60, 4), (p, 0x120, 47, 5, 0x10002000 / 32),
    (p, 0x120, 63, 60, 4), (p, 0x128, 11, 0, 1), (p, 0x130, 11, 0, 1)]
  let put (r : Ram) (a v : Nat) : Ram := (toBytes v 8).zipIdx.foldl (fun r e => r.setByte (a + e.2) e.1) r
  let d := 64 + (if owned then 65536 else 0)
  s.setSram 0 (put (put (put (put (Ram.filled 0) 0x10001000 0x10003000) 0x10001008 d) 0x10002000 0x10004000) 0x10002008 d)

/-- A frame of 60 bytes behind its FCS. -/
def frame (type : Nat) : EthFrame :=
  let bs : List Byte := List.replicate 12 0xFF ++ [BitVec.ofNat 8 (type / 256), BitVec.ofNat 8 type, 0x77] ++ List.replicate 45 0
  ⟨bs, ethFcs bs⟩

theorem witness_EthernetFrames : (mac true).macOn 16 = true ∧ (mac true).macTakes 16 (frame 0x900).bytes = true ∧ lab.macOn 16 = false ∧
    frameType (frame 0x8808).bytes = 0x8808 ∧ frameType (frame 0x900).bytes ≠ (mac true).fld pgSvc 0x110 15 0 ∧
    (mac true).fld (macPage 16) 0x130 43 32 = 0 ∧ (mac true).descAt 16 0x120 0 = 0x10002000 ∧
    (match (mac true).memRead (macIid 16) 0x10002000 32 with
      | (s, some d) => calm s && bitAt (ofBytes ((d.drop 10).take 2)) 0 && decide (ofBytes ((d.drop 8).take 2) = 64) &&
        ((s.setFld (macPage 16) 0x138 2 2 0).memWrite (macIid 16) 0x10004000 (frame 0x900).bytes).2
      | _ => false) = true ∧
    ethStatus (frame 0x900) = 0 ∧ ethStatus { frame 0x900 with fcs := 1 } = 1 ∧ (frame 0x900).bytes.length = 60 ∧ calm (mac true) = true ∧
    (mac true).fld (macPage 16) 0x120 63 60 = 4 ∧ (mac true).fld (macPage 16) 0x118 63 60 = 4 ∧ ethLength 64 = true ∧ ethLength 59 = false ∧
    (match (mac false).memRead (macIid 16) 0x10002000 32 with
      | (s, some d) => calm s && !bitAt (ofBytes ((d.drop 10).take 2)) 0
      | _ => false) = true ∧
    (match (mac false).memRead (macIid 16) 0x10001000 32 with
      | (s, some d) => calm s && !bitAt (ofBytes ((d.drop 10).take 2)) 0
      | _ => false) = true ∧
    hits (mac true) 0 (macPage 16) 0x128 8 5 .mgmt 0 5 = true := by decide +kernel

/-- A frame fills its buffer and its descriptor returns; one to a full ring is dropped (R321). -/
theorem test_ethernet_rx : gives (mac true) (.ethernetFrame 16 (frame 0x900)) (fun t => decide (t.byteAt (.sram 0) 0x1000400E = 0x77) &&
    decide (t.byteAt (.sram 0) 0x10002008 = 60) && decide (t.fld (macPage 16) 0x130 43 32 = 1)) = true ∧
    gives (setFlds (mac true) [(macPage 16, 0x130, 11, 0, 0)]) (.ethernetFrame 16 (frame 0x900))
      (fun t => decide (t.reg (macPage 16) 0x158 = 1)) = true := by decide +kernel

theorem test_ethernet_tx : gives (mac true) (.transmitDescriptorReturned 16) (fun t => decide (t.fld (macPage 16) 0x128 43 32 = 1) &&
    t.out.any fun o => match o with | .eth 16 b _ => decide (b.length = 68) | _ => false) = true := by decide +kernel

/-- CAN 0 enabled on the legacy domain: mailbox 0 queued, filter 0 takes identifier 5, a ring of 16 records. -/
def can (q : List Nat) : State :=
  let s := setFlds (ready lab) [(pgPwr, 0x138, 32, 32, 1), (pgCan 0, 0x108, 0, 0, 1), (pgCan 0, 0x110, 1, 0, 0), (pgCan 0, 0x200, 31, 31, 1),
    (pgCan 0, 0x200, 28, 0, 5), (pgCan 0, 0x208, 28, 0, 0x1FFFFFFF), (pgCan 0, 0x300, 47, 5, 0x10001000 / 32), (pgCan 0, 0x300, 63, 60, 4),
    (pgCan 0, 0x308, 11, 0, 1)]
  s.setCan 0 { s.can 0 with queue := q }

theorem witness_CanFrames : (can []).canOn 0 = true ∧ (can []).canMatch 0 5 = true ∧ (can []).canMatch 0 4 = false ∧
    hits (can []) 0 (pgCan 0) (mbHead 15) 8 5 .canfd 0 5 = true ∧ (can []).fld (pgCan 0) (mbState 15) 1 0 ≠ 1 ∧
    (setFlds (can []) [(pgCan 0, mbState 0, 1, 0, 1)]).fld (pgCan 0) (mbState 0) 1 0 = 1 ∧ ((can [0]).can 0).queue = [0] ∧
    (can []).fld (pgCan 0) 0x308 43 32 ≠ (can []).fld (pgCan 0) 0x308 11 0 ∧
    ((can []).memWrite 0x0240 0x10001000 (List.replicate 128 0)).2 = true ∧
    hits (can []) 0 (pgCan 0) 0x108 8 ((can []).reg (pgCan 0) 0x108 ||| 8) .canfd 0 ((can []).reg (pgCan 0) 0x108) = true := by decide +kernel

/-- The transmit counter of 248 or more ends in bus-off (assumption 21: plus 8 for an error). -/
theorem test_can_bus_off : gives (setFlds (can [0]) [(pgCan 0, 0x110, 15, 8, 248)]) (.canFrameSent 0 2)
      (fun t => decide (t.fld (pgCan 0) 0x110 1 0 = 2)) = true ∧
    gives (can [0]) (.canFrameSent 0 0) (fun t => decide (t.fld (pgCan 0) (mbState 0) 1 0 = 2) && decide ((t.can 0).queue = [])) = true := by
  decide +kernel

/-! The VME port (R323 to R339). -/

/-- The port on; outbound window 0 maps 0x8000_0000 to 0x8000_FFFF on A32 of partner 0; inbound image 0 maps A32 0 to 0xFFFF to SRAM. -/
def vme : State :=
  setFlds (ready lab) [(pgPwr, 0x138, 32, 32, 1), (pgVme, 0x100, 0, 0, 1), (pgVmemap, owReg 0 0, 63, 0, 0x80000000),
    (pgVmemap, owReg 0 8, 63, 0, 0x80000000), (pgVmemap, owReg 0 0x18, 15, 15, 1), (pgVmemap, owReg 0 0x18, 5, 4, 2),
    (pgVmepart, 0x110, 6, 4, 5), (pgVmepart, 0x110, 11, 8, 15), (pgVmemap, iwReg 0 0x10, 63, 0, 0x10000000), (pgVmemap, iwReg 0 0x18, 15, 15, 1),
    (pgVmemap, iwReg 0 0x18, 5, 4, 2), (pgVmemap, iwReg 0 0x18, 2, 1, 3)]

def vreq (k : ReqKind) : FabReq := ⟨0, k, 0x80000010, 4, 0x11223344, false, .tmi 0 3, 3, 0⟩
def vent (r : FabReq) (posted : Bool) : VmeEntry := ⟨.access r, 0x20010, 2, 0, false, false, posted, 0, false⟩
def vq (l : List VmeEntry) : State := { vme with vme := { vme.vme with queue := l } }
def cyc (a : Nat) (write sup : Bool) : VmeCycle := ⟨2, a, if sup then 0x0D else 0x09, sup, write, false, false, false, 4, 0x11223344⟩

/-- The slot-1 functions run (R332). -/
def slot1 (s : State) : State := { s with vme := { s.vme with slot1 := true } }

theorem witness_VmeOutbound : vme.vmeOn = true ∧ vme.owFind 0x8000FFFF = some 0 ∧ vme.owFind 0x80010000 = none ∧ vme.dbusy 0 = false ∧
    vme.pres 0 6 4 ≠ 0 ∧ bitAt (vme.pres 0 11 8) 2 = true ∧ (setFlds vme [(pgVmepart, 0x110, 6, 4, 0)]).pres 0 6 4 = 0 ∧
    vme.postedCount < 16 ∧ (vq [vent (vreq .load) false]).ownCycle (vent (vreq .load) false) = false ∧ calm (vq [vent (vreq .load) false]) = true ∧
    lab.vmeOn = false ∧ (vreq .store).iid < 64 ∧ vme.vme.lines = [] ∧ vme.bit pgVme 0x118 16 = false ∧ vme.vme.disc = none ∧
    (List.range 32).all (fun p => !vme.dbusy p) = true ∧ vme.vme.heldIn = [] ∧ vme.vme.slot1 = false ∧
    (slot1 (vq [vent (vreq .load) false])).vme.slot1 = true ∧ (vq [vent (vreq .load) false]).entryCycles (vent (vreq .load) false) ≠ [] ∧
    (let s := slot1 { vme with vme := { vme.vme with heldIn := [(0, cyc 0x10 true false)] } }
     calm s = true ∧ s.vmeOn = true) ∧
    (let s := { vme with vme := { vme.vme with lines := [5], queue := [⟨.iack 5, 0, 0, 0, false, false, false, 0, false⟩] } }
     calm s = true ∧ s.vmeOn = true ∧ s.bit pgVme 0x118 16 = false) ∧
    (let s := { vme with vmeIn := [vreq .load], vme := { vme.vme with queue := List.replicate 24 (vent (vreq .load) false) } }
     calm s = true ∧ 24 ≤ s.vme.queue.length) := by decide +kernel

/-- Partner 3 under discovery at a step, its entry in front; the CR view of a VME64 board with A32, D32 and single cycles. -/
def finding (d : DiscStep) (cfg : Nat) : State :=
  let s := setFlds vme [(pgVmepart, 0x100 + 0x20 * 3, 63, 0, cfg), (pgVmepart, 0x508, 31, 0, 8)]
  { s with vme := { s.vme with queue := [⟨.discover 3, 5 * 0x80000 + 0x1F, 4, 3, true, false, false, 0, false⟩]
                               disc := some ⟨3, d, view 1, 2, 0⟩ } }
where view (protos : Nat) : CrView := ⟨true, 0x123456, 1, 4, 4, protos⟩

theorem witness_Discovery : (finding .c 0x501).vmeOn = true ∧ calm (finding .c 0x501) = true ∧
    (finding .c 0x501).ownCycle ⟨.discover 3, 5 * 0x80000 + 0x1F, 4, 3, true, false, false, 0, false⟩ = false ∧
    crBad (finding.view 1) = false ∧ crBad { finding.view 1 with spaces := 0 } = true ∧ (finding .cr 0x501).pcfg 3 1 1 = 0 ∧
    topBit (finding.view 3).protos (1 - 1) = 0 ∧
    gives (finding .c 0x501) (.queueEntry (.ok 0x44)) (fun t => !t.dbusy 3 && decide (t.pres 3 6 4 = 3)) = true ∧
    gives (finding (.block 1) 0x501) (.queueEntry (.err 0)) (fun t => decide (t.pres 3 6 4 = 2)) = true ∧
    gives (finding (.single 0 []) 0x501) (.queueEntry (.bytes [])) (fun t => !t.dbusy 3) = true := by decide +kernel

/-- A load waits in the queue; a triad's store is posted and answered (R324). -/
theorem test_vme_outbound : gives { vme with vmeIn := [vreq .load] } .outboundAccess (fun t => decide (t.vme.queue.length = 1) && decide (t.resps = [])) = true ∧
    gives { vme with vmeIn := [vreq .store] } .outboundAccess (fun t => (t.vme.queue.all fun e => e.posted) && decide (t.resps = [(.tmi 0 3, .ok 0)])) = true ∧
    gives (slot1 (vq [vent (vreq .load) false])) (.busTimer 0) (fun t => decide (t.resps = [(.tmi 0 3, .err)]) && decide (t.fld pgVme 0x138 7 4 = 1)) = true := by
  decide +kernel

theorem witness_VmeInbound : vme.iwFind 2 0xFFFF = some 0 ∧ vme.iwFind 2 0x10000 = none ∧ vme.tandemIn 0 = none ∧
    (vme.memWrite 0x0241 0x10000010 (toBytes 0x11223344 4)).2 = true ∧ (setFlds vme [(pgVmemap, iwReg 0 0x18, 3, 3, 1)]).iwFind 2 0 = some 0 ∧
    (let v := withBits (vme.reg pgVme 0x100) 1 1 1
     hits vme 0 pgVme 0x100 8 v .vme 0 v = true) ∧ hits vme 0 pgVme 0x118 8 5 .vme 0 5 = true ∧
    (setFlds vme [(pgVme, 0x118, 16, 16, 1), (pgVme, 0x118, 2, 0, 5)]).fld pgVme 0x118 2 0 = 5 ∧ vme.fld pgVme 0x118 2 0 ≠ 5 ∧
    (setFlds vme [(pgVme, 0x120, 7, 7, 1)]).bit pgVme 0x120 7 = true ∧ vme.bit pgVme 0x120 7 = false ∧
    vme.pageFor 0 (regAddr pgVme 0x128) 8 .load = (vme, some (.vme, 0)) ∧ hits vme 0 pgVmemap 0x110 8 0x10000 .vmemap 0 0x10000 = true ∧
    hits vme 0 pgVmepart (0x100 + 0x20 * 31) 8 1 .vmepart 0 1 = true ∧ hits vme 0 pgVmepart 0x500 8 1 .vmepart 0 0 = true ∧
    vme.fld pgVmepart 0x508 31 0 = 0 ∧ vme.slaveIgnores (cyc 0x10 true false) = false ∧ vme.vme.disc = none ∧ vme.legacyOn = true ∧
    vme.vmeOn = true ∧ vme.vme.stopped = false ∧ vme.vme.queue = [] ∧ vme.vme.lines = [] ∧
    (setFlds vme [(pgVmepart, 0x100, 63, 0, 0x505)]).pcfg 0 2 2 = 1 ∧ (setFlds vme [(pgVmepart, 0x100, 63, 0, 0x501)]).pcfg 0 12 8 = 5 ∧
    hits (setFlds vme [(pgVmepart, 0x100, 63, 0, 0x501)]) 0 pgVmepart 0x500 8 1 .vmepart 0 0 = true ∧
    hits (setFlds vme [(pgVmepart, 0x508, 31, 0, 1)]) 0 pgVmepart 0x500 8 1 .vmepart 0 0 = true ∧
    hits vme 0 pgVmepart 0x100 8 0x600000000 .vmepart 0 0x600000000 = true ∧
    (let s := { vme with slot := some 5 }
     s.vmeSlot = some 5 ∧ s.slaveIgnores ⟨4, 5 * 0x80000 + 0x1F, 0x2F, true, false, false, false, false, 1, 0⟩ = false ∧
     gives s (.inboundCycle ⟨4, 5 * 0x80000 + 0x1F, 0x2F, true, false, false, false, false, 1, 0⟩)
       (fun t => decide (t.out = [.vmeAnswer true 0x43])) = true) ∧
    (let s := { vme with vme := { vme.vme with fifo := [7] } }
     s.pageFor 0 (regAddr pgVme 0x128) 8 .load = (s, some (.vme, 0))) ∧
    (let v := withBits (vme.reg pgVme 0x100) 27 24 6
     hits vme 0 pgVme 0x100 8 v .vme 0 v = true) := by decide +kernel

theorem test_vme_inbound : gives vme (.inboundCycle (cyc 0x10 true false)) (fun t => decide (t.byteAt (.sram 0) 0x10000010 = 0x44) &&
    decide (t.out = [.vmeAnswer true 0])) = true ∧
    gives (setFlds vme [(pgVmemap, iwReg 0 0x18, 3, 3, 1)]) (.inboundCycle (cyc 0x10 true false)) (fun t => decide (t.out = [.vmeAnswer false 0])) = true := by
  decide +kernel

/-- An IACK cycle of level 5 answers STATID; a level asserted on the bus queues one (R331, R332). -/
theorem test_vme_irq : gives (setFlds vme [(pgVme, 0x118, 16, 16, 1), (pgVme, 0x118, 2, 0, 5), (pgVme, 0x118, 15, 8, 0xAB)]) (.iack 5)
      (fun t => decide (t.out = [.vmeAnswer true 0xAB]) && !t.bit pgVme 0x118 16) = true ∧
    gives (setFlds vme [(pgVme, 0x120, 7, 7, 1)]) (.irqAsserted 7) (fun t => decide (t.vme.queue.map (·.work) = [.iack 7])) = true := by decide +kernel

/-! The fieldbus ports. -/

def uart : State := (setFlds lab [(pgUart 0, 0x100, 0, 0, 1)]).setUart 0 { lab.uart 0 with rx := [0x41], tx := [0x42] }

theorem witness_LowSpeedPorts : hits uart 0 (pgUart 0) 0x108 8 0x41 .uart 0 0x41 = true ∧ uart.uartOn 0 = true ∧ lab.uartOn 0 = false ∧
    uart.pageFor 0 (regAddr (pgUart 0) 0x108) 8 .load = (uart, some (.uart, 0)) ∧ (uart.uart 0).rx = [0x41] ∧ uart.chanOn 2 = false ∧
    (setFlds uart [(pgUart 0, 0x100, 7, 7, 1), (pgUart 0, 0x118, 8, 8, 1)]).bit (pgUart 0) 0x118 8 = true ∧
    (setFlds uart [(pgSvc, 0x100, 2, 2, 1)]).chanOn 2 = true ∧
    hits lab 0 (pgI2c 1) 0x108 8 0x1FF .i2c 1 0 = true ∧ (lab.i2c 1).stopped = false ∧
    lab.pageFor 0 (regAddr (pgI2c 1) 0x110) 8 .load = (lab, some (.i2c, 1)) ∧ (setFlds lab [(pgI2c 1, 0x100, 4, 4, 1)]).bit (pgI2c 1) 0x100 4 = true ∧
    hits lab 0 pgGpio 0x110 8 0x80000001 .gpio 0 0x80000001 = true ∧ hits lab 0 pgGpio 0x118 8 1 .gpio 0 (lab.reg pgGpio 0x118) = true ∧
    hits lab 0 (pgMgmt 1) 0x178 8 0x80000000 .mgmt 1 0x80000000 = true ∧
    (setFlds lab [(pgMgmt 1, 0x178, 31, 31, 1)]).bit (pgMgmt 1) 0x178 31 = true := by decide +kernel

theorem test_uart : gives uart (.uartCharacterSent 0) (fun t => decide (t.out = [.uart 0 0x42]) && decide ((t.uart 0).tx = [])) = true ∧
    gives (setFlds uart [(pgSvc, 0x100, 2, 2, 1)]) (.uartCharacter 0 0x99 0) (fun t => decide (t.svc.slip = [0x99])) = true := by decide +kernel

/-- A rising edge that is enabled sets its GEDGE bit (R347); GSET and GCLR change GOUT (R347). -/
theorem witness_gpio_isolated : (setFlds lab [(pgFcol, 0x1C0, 29, 29, 1)]).bit pgFcol 0x1C0 29 = true := by decide +kernel

theorem test_gpio : gives (setFlds lab [(pgGpio, 0x130, 31, 31, 1)]) (.gpioInputChange 0x80000001) (fun t => t.bit pgGpio 0x128 31 && !t.bit pgGpio 0x128 0) = true ∧
    gives (setFlds lab [(pgGpio, 0x108, 1, 0, 3)]) (.gclrWrite 0 1) (fun t => decide (t.fld pgGpio 0x108 1 0 = 2)) = true := by decide +kernel

/-! Power, start, resets, self-test (R349 to R394). -/

theorem witness_DomainsSwitch :
    hits lab 0 pgPwr 0x128 8 3 .pwr 0 3 = true ∧ changedBits (lab.reg pgPwr 0x128) 3 16 = [1] ∧ lab.nRegions = 16 ∧
    hits lab 0 pgPwr 0x128 8 0 .pwr 0 0 = true ∧ lab.regionIdle 0 = false ∧ (setFlds lab [(pgPwr, tpwr 0, 19, 16, 0)]).regionIdle 0 = true ∧
    hits lab 0 pgPwr 0x130 8 (BitVec.ofNat 64 (2 ^ 16)) .pwr 0 (BitVec.ofNat 64 (2 ^ 16)) = true ∧
    (setFlds (ddr 2 0 0 []) [(pgPwr, 0x130, 0, 0, 1)]).channelHeld 0 = true ∧ calm lab = true ∧ lab.heldSwitch = [] ∧ lab.bist.run = none ∧
    lab.bist.queue = [] ∧ lab.port = [] ∧ lab.ddrQ = [] ∧ (lab.triad 0).entry = 0 := by decide +kernel

theorem witness_DomainsSwitch_io : lab.ioQuiet := ioQuiet_of_bare lab (by decide +kernel) (by decide +kernel)

/-- Region 1 comes on with its zero fill due (R225, R349); triad 4 then comes on in mode Off with its copies Out (R68). -/
theorem test_domain_switch : gives { lab with switching := [(65, true)] } (.domainSwitchComplete 65 false)
      (fun t => t.bit pgPwr 0x138 1 && t.bit (pgRegion 1) 0x100 1 && t.bit pgPwr 0x150 0) = true ∧
    gives { lab with switching := [(4, true)] } (.domainSwitchComplete 4 false) (fun t => decide (t.powerState 4 = 2) &&
      decide ((t.copy 12).st = .out)) = true := by decide +kernel

/-- An entry of triad 0 in progress, for the triad or for the device. -/
def enters (n pl device : Nat) : State :=
  setFlds (labT fun d => { d with entry := n }) [(pgPwr, tpwr 0, 9, 8, pl), (pgPwr, 0x108, 1, 0, device)]

theorem witness_PowerLevelsAndSleep :
    (let v := withBits (lab.reg pgPwr (tpwr 0)) 2 0 1
     hits lab 0 pgPwr (tpwr 0) 8 v .pwr 0 v = true ∧ bitsOf v 9 8 ≠ 3 ∧ lab.powerState 0 = 2 ∧ lab.tableUses 0 = false) ∧
    (let v := withBits (lab.reg pgPwr (tpwr 63)) 2 0 0
     hits lab 0 pgPwr (tpwr 63) 8 v .pwr 0 v = true) ∧ (lab.setPowerState 0 3).powerState 0 = 3 ∧
    ((enters 2 1 0).triad 0).gate = [] ∧ ((enters 3 2 0).triad 0).entry = 3 ∧ (enters 2 1 0).tagsIn 0 24 = [] ∧ (enters 2 1 0).fld pgPwr (tpwr 0) 9 8 = 1 ∧
    (enters 2 2 0).fld pgPwr (tpwr 0) 9 8 ≠ 1 ∧ ((enters 4 2 0).running 0).all (fun c => !(enters 4 2 0).stampAbove 0 c) = true ∧
    (setFlds (enters 4 2 1) [(pgPwr, 0x100, 1, 0, 1)]).deviceMaySleep 0 = true ∧ (enters 4 2 1).deviceMaySleep 0 = false ∧
    (enters 8 2 1).wakeLatch = none ∧ vectorOk 26 = true ∧ (lab.setPowerState 0 5).leader 0 = some 0 ∧
    (setFlds lab [(pgPwr, 0x118, 2, 2, 1), (pgPwr, 0x118, 11, 8, 8)]).wakeEnabled 3 3 = true ∧
    (setFlds { lab with fabio := false } [(pgPwr, 0x108, 1, 0, 1)]).asleep = true ∧ (enters 6 2 1).pastAbort 0 = false := by decide +kernel

/-- Doze at once, Nap by stages, a wake that abandons the device's entry (R359 to R365). -/
theorem test_low_power : gives (enters 2 1 0) (.entryStageComplete 0) (fun t => decide (t.powerState 0 = 5)) = true ∧
    gives (enters 4 2 0) (.entryStageComplete 0) (fun t => decide (t.powerState 0 = 6)) = true ∧
    gives (setFlds (enters 6 2 1) [(pgPwr, 0x118, 1, 1, 1)]) (.wakeSource 2 0) (fun t => decide ((t.triad 0).entry = 0) &&
      decide (t.fld pgPwr 0x108 19 16 = 1)) = true := by decide +kernel

theorem witness_Temperatures : lab.aoc = true ∧ ({ lab with aoc := false } : State).aoc = false ∧ lab.fld pgPwr 0x140 7 0 < 200 ∧ lab.warned.contains 0 = false ∧ lab.dies ≠ 1 ∧ 0 < lab.nTriads ∧ lab.nTriads ≤ 64 ∧
    hits lab 0 pgPwr 0x100 8 2 .pwr 0 2 = true ∧ hits lab 0 pgPwr 0x100 8 (lab.reg pgPwr 0x100 ||| 4) .pwr 0 (lab.reg pgPwr 0x100) = true := by
  decide +kernel

theorem test_thermal : gives lab (.thermalSample 200 10 10) (fun t => (t.fcol.waiting.any fun e => decide (e.src = 0x1A2)) &&
    t.fcol.waiting.any fun e => decide (e.src = 0x1A3)) = true := by decide +kernel

/-- A start at a step, with a result. -/
def start (n : Nat) : State := setFlds State.reset [(pgWarden, 0x108, 11, 8, n)]
def found (pass : Bool) (copies : List (Nat × Nat)) : StartResult := ⟨pass, 0, copies, [], [], false, []⟩

/-- A configuration image whose body's one record waits for bit 0 of TIMEBASE 0x100. -/
def waiting : State :=
  let s := start 8
  { s with
    warden := { s.warden with images := [⟨0, 0, 2, 0, 0, false, 0, false, 0⟩], part := 1 }
    flash := ([1, 0, 0, 0].zipIdx.map fun e => (0x208 + e.2, BitVec.ofNat 8 e.1)) ++
      ((toBytes 2 2 ++ toBytes 9 2 ++ toBytes 0x100 2 ++ toBytes 8 2 ++ toBytes 1 8 ++ toBytes 1 8).zipIdx.map fun e => (0x220 + e.2, e.1)) }

theorem witness_StartSequence : (start 0).starting = true ∧ (start 9).stepNo = 9 ∧ calm (start 2) = true ∧ (start 7).heldNeeded = none ∧
    (start 4).chooseSet = .fail 2 0xFF 0 0 ∧ (List.range 64).all (fun n => decide ((start 7).retiredOf n < 2)) = true ∧
    (setFlds State.reset [(pgWarden, 0x108, 3, 0, 2)]).fld pgWarden 0x108 3 0 = 2 ∧
    hits (setFlds lab [(pgWarden, 0x108, 3, 0, 2)]) 0x3F pgWarden 0x100 8 1 .warden 0 (lab.reg pgWarden 0x100) = true ∧
    waiting.bodyOfKind 2 = some 0x200 ∧
    waiting.cfgBad (waiting.cfgRec 0x200 0) = false ∧ (waiting.cfgRec 0x200 0).kind = 2 ∧ waiting.flashNum 0x208 4 = 1 ∧
    waiting.busRead 0x0200 (regAddr pgTime 0x100) 8 = (waiting, some 0) := by decide +kernel

theorem witness_StartSequence_io : (start 2).ioQuiet := ioQuiet_of_bare _ (by decide +kernel) (by decide +kernel)

/-- Step 2 begins the I/O complex; step 3 that fails holds the device in code 1; step 4 without a directory fails with code 2; step 6
brings the fabric up (R375 to R391). -/
theorem test_start : gives (start 2) (.startStepComplete (found true [])) (fun t => t.fabio && decide (t.fld pgWarden 0x108 11 8 = 3)) = true ∧
    gives (start 3) (.startStepComplete (found false [])) (fun t => decide (t.fld pgWarden 0x110 7 0 = 1) && decide (t.fld pgWarden 0x108 3 0 = 5)) = true ∧
    gives (start 4) (.startStepComplete (found true [])) (fun t => decide (t.fld pgWarden 0x110 7 0 = 2) && decide (t.fld pgWarden 0x108 17 16 = 1)) = true ∧
    gives { start 6 with fabio := true } (.startStepComplete (found true [])) (fun t => t.fab && t.bit pgPwr 0x138 15) = true := by decide +kernel

/-- A flash page that fails its double reads is reported and fails its image with check 1 (R345, R378). -/
theorem test_unread_page : gives { start 4 with fabio := true } (.startStepComplete { found true [] with unread := [2] })
    (fun t => (t.fcol.waiting.any fun e => decide (e.src = 0x1EC)) && decide (t.verifyAt ⟨0, 1, 0, 0, 0x200, 0x10000⟩ 0 = 1)) = true := by decide +kernel

theorem test_retired_copy : gives { start 7 with fabio := true, fab := true } (.startStepComplete (found true [(63, 2)]))
    (fun t => t.bit (pgTriad 63) 0x180 50) = true := by decide +kernel

def rstVal (kind n : Nat) : Word := BitVec.ofNat 64 (0x5A3C * 2 ^ 48 + n * 256 + kind)

theorem witness_ResetsAct : hits lab 0x3F pgDevice 0x100 8 (rstVal 1 0) .device 0 (lab.reg pgDevice 0x100) = true ∧ lab.fld pgWarden 0x108 3 0 = 3 ∧
    hits lab 0x0201 pgDevice 0x100 8 (rstVal 4 0) .device 0 (lab.reg pgDevice 0x100) = true ∧ lab.resetOk 4 0 = true ∧ lab.resetOk 4 63 = true ∧
    lab.resetOk 3 0 = true ∧ lab.resetOk 2 1 = true ∧ (sched slots4).resetOk 4 0 = false ∧ lab.port = [] ∧
    lab.regionOn 0 = true ∧ lab.bit (pgFwall 0) 0x108 0 = false ∧ ({ lab with resets := [(3, 0)] } : State).resets.contains (3, 0) = true ∧ lab.fcol.resetDue = none ∧
    hits lab 0x0201 pgDevice 0x100 8 (BitVec.ofNat 64 1) .device 0 (lab.reg pgDevice 0x100) = true := by decide +kernel

/-- A triad reset turns the triad off; a device reset leaves cause 4 and step 2; a request without the key changes nothing (R371 to R374). -/
theorem test_resets : gives lab (.triadReset 0x0201 0x5A3C 0) (fun t => decide (t.resets = [(4, 0)]) && decide ((t.triad 0).mode = 0)) = true ∧
    gives lab (.deviceReset 0x0201 0x5A3C) (fun t => decide (t.fld pgDevice 0x108 15 8 = 4) && decide (t.copies = [])) = true ∧
    gives lab (.deviceReset 0x0201 0x5A3D) (fun t => t.bit pgDevice 0x20 3 && decide (t.reg pgDevice 0x108 = lab.reg pgDevice 0x108)) = true := by decide +kernel

theorem witness_SelfTestRuns : hits lab 0x0201 pgBist 0x100 8 1 .bist 0 (lab.reg pgBist 0x100) = true ∧ lab.wardenRuns = true ∧
    lab.bist.run = none ∧ lab.bist.queue = [] ∧ lab.bistPre ⟨0, 0, 0, 0, false⟩ = false ∧ (labAll fun c => { c with st := .out }).bistPre ⟨0, 0, 2, 0, false⟩ = true := by decide +kernel

theorem test_bist : gives (labAll fun c => { c with st := .out }) (.go 0x0201 0x02000000)
    (fun t => decide (t.bist.run = some ⟨0, 0, 2, 0, false⟩) && decide (t.reg pgBist 0x120 = 1)) = true ∧
    gives lab (.go 0x0201 0) (fun t => decide (t.bist.run = none) && t.bit pgBist 0x108 16) = true := by decide +kernel

/-! The service channels (R395 to R417). Channel 0 is on and permitted every group; the host's next request is number 1. -/

def host : State := setFlds lab [(pgSvc, 0x100, 3, 0, 15), (pgSvc, 0x108, 39, 0, 2 ^ 40 - 1)]

/-- One request stands at its turn. -/
def asked (ch h cmd : Nat) (pl : List Byte) : State :=
  { host with svc := { host.svc with chans := [(ch, { Chan.empty with lastAcc := h, reqs := [⟨h, cmd, pl⟩] })] } }

/-- The check form of `State.atTurn`. -/
def turnAt (s : State) (ch h cmd : Nat) (pl : List Byte) : Bool :=
  decide (s.svc.op = none) && allChans.contains ch &&
  (allChans.all fun k => decide ((s.chan k).reqs = if k = ch then [⟨h, cmd, pl⟩] else [])) && s.svcMay ch (cmd / 16) && !s.umber

theorem atTurn_of_turnAt (s : State) (ch h cmd : Nat) (pl : List Byte) (e : turnAt s ch h cmd pl = true) : s.atTurn ch h cmd pl := by
  simp only [turnAt, Bool.and_eq_true, decide_eq_true_eq, List.all_eq_true, List.contains_iff_mem, Bool.not_eq_true'] at e
  obtain ⟨⟨⟨⟨h1, h2⟩, h3⟩, h4⟩, h5⟩ := e
  exact ⟨h1, h2, h3, h4, fun hu => by rw [h5] at hu; cases hu⟩

/-- A request message of command `cmd` with number `h`. -/
def request (h cmd dev : Nat) (pl : List Byte) : List Byte :=
  let bs := toBytes 1 1 ++ toBytes dev 1 ++ toBytes cmd 2 ++ toBytes pl.length 2 ++ toBytes 0 2 ++ toBytes h 4 ++ List.replicate 20 0 ++ pl
  bs.take 0x1C ++ toBytes (msgCheck bs) 4 ++ bs.drop 0x20

def got (l : Nat) : State := { host with svc := { host.svc with chans := [(0, { Chan.empty with lastAcc := l, wseq := 7, held := [(7, l, [1])] })] } }

theorem witness_ServiceMessages : host.chanOn 0 = true ∧ host.chanOn 4 = false ∧ msgOk (request 1 1 0 []) = true ∧
    msgOk (0 :: request 1 1 0 []) = false ∧ msgNum (request 1 1 0 []) 8 4 = 1 ∧ msgNum (request 1 1 0 []) 1 1 = host.devid ∧
    msgOk (request 1 0xFF 0 []) = true ∧ payloadLen 0xFF [] = none ∧ host.svcMay 0 0 = true ∧ host.umber = false ∧
    (setFlds host [(pgSvc, 0x108, 31, 0, 0)]).svcMay 0 1 = false ∧ payloadLen 0x10 [] ≠ none ∧
    ((got 1).chan 0).held.find? (fun e => e.2.1 == 1) = some (7, 1, [1]) ∧ ((got 1).chan 0).hack < 7 ∧ host.linkTo 9 = none ∧
    (setFlds up1 [(pgBvl 0, 0x108, 39, 32, 9), (pgSvc, 0x100, 0, 0, 1)]).linkTo 9 = some 0 := by decide +kernel

/-- The next number is accepted; the last one has its answer sent again; any other is told the one expected (R397, R398). -/
theorem test_messages : gives host (.serviceMessage 0 5 (request 1 0x10 0 [0, 0, 0, 0, 1, 0, 0, 0])) (fun t => decide ((t.chan 0).reqs.length = 1)) = true ∧
    gives (got 1) (.serviceMessage 0 5 (request 1 1 0 [])) (fun t => decide (t.out = [.svc 0 0 [1]])) = true ∧
    gives (got 1) (.serviceMessage 0 5 (request 3 1 0 [])) (fun t => decide ((t.chan 0).lastAcc = 1) && decide (t.out.length = 1)) = true := by
  decide +kernel

def readStat : List Byte := [0, 0, 8, 1, 1, 0, 0, 0]

theorem witness_ServiceReadsAndWrites : turnAt (asked 0 1 0x01 []) 0 1 0x01 [] = true ∧ turnAt (asked 15 1 0x02 (toBytes 3 8)) 15 1 0x02 (toBytes 3 8) = true ∧
    turnAt (asked 0 1 0x10 readStat) 0 1 0x10 readStat = true ∧ (asked 0 1 0x10 readStat).busRead 0x0201 (regAddr 0 0x108) 8 =
      (asked 0 1 0x10 readStat, some ((asked 0 1 0x10 readStat).reg 0 0x108)) ∧
    (asked 0 1 0x10 readStat).busRead 0x0201 (regAddr 0xFFFF 8) 8 = (asked 0 1 0x10 readStat, none) ∧
    ((asked 0 1 0x20 []).busWrite 0x0201 (regAddr (pgCore 0) 0x118) 8 5).2 = some .accepted ∧
    turnAt (asked 0 1 0x11 (List.replicate 4 0 ++ [31, 0, 0, 0])) 0 1 0x11 (List.replicate 4 0 ++ [31, 0, 0, 0]) = true ∧
    turnAt (asked 0 1 0x21 (List.replicate 72 0)) 0 1 0x21 (List.replicate 72 0) = true ∧ (asked 0 1 0x21 []).bit pgSvc 0x140 8 = false ∧
    up (asked 0 1 0x21 []) 0 = true ∧ (asked 0 1 0x21 []).leader 0 ≠ none ∧ hits host 0 pgSvc 0x140 8 1 .svc 0 (host.reg pgSvc 0x140) = true ∧
    host.pageFor 0 (regAddr pgSvc 0x1B8) 8 .load = (host, some (.svc, 0)) ∧ lab.chanOn 3 = false ∧ host.chanOn 3 = true := by decide +kernel

/-- The mailbox's flag in region SRAM. -/
def box : State := setFlds (ready host) [(pgSvc, 0x118, 47, 13, 0x10000000 / 8192)]

theorem witness_Mailbox : box.memRead 0x0201 0x10000000 8 = (box, some (toBytes 0 8)) ∧ box.memRead 0x0201 0x10001000 8 = (box, some (toBytes 0 8)) ∧
    (box.memWrite 0x0201 0x10001008 [1, 2]).2 = true := by decide +kernel

theorem test_service : gives (asked 0 1 0x10 readStat) (.readreg 0) (fun t => (t.chan 0).held.any fun e => decide (e.2.2.length = 48)) = true ∧
    gives { box with svc := { box.svc with mail := [[0x5A]] } } .mailboxPoll (fun t => decide (t.byteAt (.sram 0) 0x10001008 = 0x5A) &&
      decide (t.byteAt (.sram 0) 0x10001000 = 1) && decide (t.svc.mail = [])) = true := by decide +kernel

/-- The flash's directory after DIRSET of entry 0: kind 5 with slots of 512 bytes at 0x20000 and 0x20200. -/
def entry0 : List Byte := toBytes 5 4 ++ toBytes 512 4 ++ toBytes 0x20000 8 ++ toBytes 0x20200 8 ++ toBytes 0 8

def withDir (s : State) : State :=
  { s with flash := ((asked 0 1 0x34 (toBytes 0 8 ++ entry0)).svcDirset 0 (toBytes 0 8 ++ entry0)).flash }

def ent : FlashEnt := ⟨0, 5, 0, 512, 0x20000, 0x20200⟩
def wr1 : List Byte := toBytes 0x010000 4 ++ toBytes 256 4 ++ List.replicate 256 0x33

/-- SPIF isolated (assumption 64). -/
def spifOff : State := setFlds host [(pgFcol, 0x1C0, 26, 26, 1)]

theorem witness_FlashAndImages : turnAt (withDir (asked 0 1 0x30 wr1)) 0 1 0x30 wr1 = true ∧ (withDir host).dirEnt? 0 = some ent ∧
    (withDir host).dirEnt? 1 = none ∧ msgNum wr1 2 1 = 1 ∧ msgNum wr1 4 4 = 256 ∧ wr1.length = 8 + 256 ∧ host.warden.images = [] ∧
    turnAt (asked 0 1 0x34 (toBytes 31 8 ++ entry0)) 0 1 0x34 (toBytes 31 8 ++ entry0) = true ∧ turnAt (asked 0 1 0x70 []) 0 1 0x70 [] = true ∧
    (withDir host).verifyAt ent 0 = 2 ∧ (withDir host).spifOn = true ∧ spifOff.spifOn = false ∧
    ([0x31, 0x32, 0x33, 0x40, 0x41, 0x43, 0x50, 0x61].all fun c => turnAt (withDir (asked 0 1 c (toBytes 0 8))) 0 1 c (toBytes 0 8)) = true ∧ (withDir host).manifest ((withDir host).prefWith 0 1) = some 1 := by decide +kernel

/-- DIRSET makes the directory; FLASHWRITE's last byte lies at the slot's end (R401, R403). -/
theorem test_flash : gives (withDir (asked 0 1 0x30 wr1)) (.flashwrite 0) (fun t => decide (t.flashByte 0x201FF = 0x33) &&
    decide (t.flashByte 0x20200 = 0xFF) && decide (t.flashByte 0x200FF = 0xFF)) = true := by decide +kernel

/-- An image passes R378 where the digest, the key and the signature do: the three are constants without a value here (assumption 22). -/
theorem witness_verified (s : State) (e : FlashEnt) (a : Nat) (h0 : e.at' 0 = a) (hr : s.imgUnread a = false) (h : s.headerOk e a = true)
    (h1 : Config.sha384 (s.flashBytes (bodyAt a) (s.imgLen a)) = s.flashNum (a + 0x20) 48) (h2 : (s.keySlot a).isNone = false)
    (h3 : Config.ecdsaOk (s.imgPub a) (s.flashBytes (a + 0x1A0) 96) (s.flashBytes a 0x1A0) = true) (h4 : s.arcOf e.kind ≤ s.imgSecver a) :
    s.verifyAt e 0 = 0 := by
  simp only [State.verifyAt, h0, hr, h, h1, h2, h3]
  simp [Nat.not_lt.mpr h4]

theorem witness_LiveLoads : turnAt (asked 0 1 0x42 (toBytes 0 8)) 0 1 0x42 (toBytes 0 8) = true ∧ (withDir host).dirEnt? 0 = some ent ∧
    lab.loadOk 0 1 = true ∧ lab.loadOk 63 1 = false ∧ ((lab.bringOut 0).triad 0).mode = 5 ∧ (lab.bringOut 0).loadOk 0 1 = true ∧
    (lab.bringOut 0).powerState 0 = 2 ∧ (lab.bringOut 0).svc = lab.svc ∧ up1.bvlOk 1 [0] = true ∧ up1.bvlOk 6 [0] = false := by decide +kernel

def handing : State :=
  { asked 0 1 0x50 [] with svc := { (asked 0 1 0x50 []).svc with op := some (0, ⟨1, 0x50, []⟩, .swap 0 0 0) } }

theorem witness_HandoverAndReset : handing.svc.parked = [] ∧ (handing.chan 0).reqs = [⟨1, 0x50, []⟩] ∧
    turnAt (asked 0 1 0x60 (toBytes 4 8)) 0 1 0x60 (toBytes 4 8) = true ∧ (asked 0 1 0x60 []).resetOk 4 0 = true ∧
    turnAt (asked 0 1 0x61 []) 0 1 0x61 [] = true ∧ (withDir host).prefBad = some 2 ∧ host.prefBad = none ∧ host.manifest host.prefSet = some 1 := by
  decide +kernel

theorem test_handover : gives handing .handoverTimeout (fun t => decide (t.svc.op = none) && decide (t.now = 500000000) &&
    decide ((t.chan 0).lastExec = 1)) = true ∧
    gives (asked 0 1 0x60 (toBytes 4 8)) (.reset 0) (fun t => decide (t.resets = [(4, 0)])) = true := by decide +kernel

/-! Reset, and every step. -/

theorem witness_StepsKeepTheCanonicalForm : lab.canonical = true ∧ (withDir lab).canonical = true ∧ State.reset.canonical = true := by decide +kernel

/-- An empty queue: a tick of 10 ns; a command at the front runs with the rest behind it (assumptions 1, 6). -/
theorem test_step : (match step State.reset with | .next t => decide (t.now = 10) | _ => false) = true ∧
    (match step { lab with pending := [.interruptRequest 0 20, .nop xA] } with | .next t => decide (t.pending = [.nop xA]) | _ => false) = true := by
  decide +kernel

/-! Well-formedness: for each check a command that fails it alone is refused; the same commands with every number in range pass. -/

/-- One number of each is just past its range (R2, R9, R249, R395). -/
theorem test_ill_formed_1 : (([
    .exceptionEntry 64 0, .exceptionEntry 0 3, .interruptRequest 64 20, .interruptRequest 0 64, .tintArrival 64 0, .tintArrival 0 3,
    .replayLoadRequest 64 0, .replayLoadRequest 0 3, .gatedRequest 64 0, .gatedRequest 0 3, .tmiResponse 64, .lagLimit 64 0,
    .lagLimit 0 3, .stepBlockEnd 64 0 0, .stepBlockEnd 0 3 0, .tcmScrub 64 0, .tcmScrub 0 3, .tcmWriteBack 64 0, .tcmWriteBack 0 3,
    .mordantingRoundEnd 64 false, .mordantingPause 64, .mordantingComplete 64 false, .mordtmoExpiry 64, .tmodeWrite 65536 0 0,
    .tmodeWrite 0 64 0, .tcfgWrite 65536 0 0, .tcfgWrite 0 64 0, .irqsetWrite 65536 0 0, .irqsetWrite 0 64 0, .radmwinWrite 65536 0 0,
    .radmwinWrite 0 64 0, .clrmon 65536 0, .clrmon 0 192, .clrcnt 65536 0 0, .clrcnt 0 65536 0, .clrcnt 0 0 4096, .move 16 0,
    .moveWindowEnd 16 0 false, .release 16 0, .deadlineEnd 16 0, .doneComplete 65536 0 0, .doneComplete 0 16 0, .doneComplete 0 0 4096,
    .doneStopAck 65536 0 0, .doneStopAck 0 16 0, .doneStopAck 0 0 4096, .lossNotice 16, .completionNotice 16, .takeoverNotice 16,
    .noticeTimeout 16 0, .rerunMoveEnd 16 0, .sparedlEnd 16 0, .vote 16 0, .voteWindowEnd 16 0, .commit 16 0, .tx 8 0, .rxchk 8 0,
    .tbldataWrite 65536 0 0, .tbldataWrite 0 65536 0, .tblchk 65536] : List Instr).all fun i => !i.wf) = true := by decide +kernel

/-- One number of each is just past its range (R2, R9, R249, R395). -/
theorem test_ill_formed_2 : (([
    .swframeWrite 65536 0, .sctlEnWrite 65536 0 false, .sctlEnWrite 0 16 false, .alarmFire 4, .srcWrite 65536 0, .srcWrite 0 4,
    .txHandoverComplete 8 0, .txWindowEnd 8 0, .sramAccess 16, .sramWriteBack 16, .zeroFillComplete 16 false, .ddr4Request 8,
    .maintenanceWindow 8, .dcfgWrite 65536 0 0, .dcfgWrite 0 8 0, .start 65536 0, .start 0 8, .trainingComplete 8 false 0,
    .trainingTimeout 8, .init 65536 0, .init 0 8, .initComplete 8, .mirror 65536 0 false, .mirror 0 8 false, .retrain 65536 0,
    .retrain 0 8, .retire 65536 0, .retire 0 8, .selfRefreshExitComplete 8, .commitFwall 65536 0 0, .commitFwall 0 16 0,
    .clrdeny 65536 0, .clrdeny 0 16, .crcFeed 16, .crctlInit 65536 0 0, .crctlInit 0 16 0, .crctlInit 0 0 256, .ccfgWrite 65536 0 0 0,
    .ccfgWrite 0 16 0 0, .ccfgWrite 0 0 8 0, .cvalueWrite 65536 0 0 false 0, .cvalueWrite 0 16 0 false 0, .cvalueWrite 0 0 8 false 0,
    .faultEvent 498 0 0 0, .railFault 498 0, .railFault 0 4, .rtblchk 65536, .rswgenWrite 65536 0, .flogselWrite 65536 0,
    .clrfirst 65536, .clrlog 65536, .arm 65536 0 0, .arm 0 65536 0, .lctlEnWrite 65536 0 false, .lctlEnWrite 0 32 false,
    .signalDetect 32, .autoNegotiation 32 0 false 0, .capSend 32, .cap { capRx cap1 with lane := 32 } 0 cap1, .cap (capRx cap1) 64 cap1, .rateChange 32] : List Instr).all fun i => !i.wf) = true := by decide +kernel

/-- One number of each is just past its range (R2, R9, R249, R395). -/
theorem test_ill_formed_3 : (([
    .equaliserConverged 32, .trainingLimit 32, .confirmTimeout 32, .laneFailure 32 1, .laneFailure 0 0, .laneFailure 0 5,
    .spareTimeout 32, .downExpiry 32, .retune 65536 0, .retune 0 32, .reneg 65536 0, .reneg 0 32, .sendindigo 65536 0, .sendindigo 0 32,
    .indigoDetect 32, .data ({ rx 0 .ack with lane := 32 }) [], .req ({ rx 0 .ack with lane := 32 }) 0 0 0 [],
    .rsp ({ rx 0 .ack with lane := 32 }) 0 [], .voteFrame ({ rx 0 .ack with lane := 32 }) ⟨0, 0, 0, 0, 0, 0, 0⟩,
    .time ({ rx 0 .ack with lane := 32 }) 0 0 0, .svc ({ rx 0 .ack with lane := 32 }) 0 0 [], .ack ({ rx 0 .ack with lane := 32 }),
    .nak ({ rx 0 .ack with lane := 32 }), .reorderTimeout 32 0, .reorderTimeout 0 8, .retryTimeout 32 0, .retryTimeout 0 8,
    .timeSend 32, .peerHoldTimeout 32 0 false 0, .blcfgWrite 65536 0 0, .blcfgWrite 0 32 0, .restart 65536 0, .restart 0 8,
    .ethernetFrame 18 (frame 0), .tailWrite 65536 0 false 0, .tailWrite 0 18 false 0, .transmitDescriptorReturned 18,
    .vcfgWrite 65536 0, .virqWrite 65536 0, .iack 0, .iack 8, .irqAsserted 0, .irqAsserted 8, .vintpopRead 65536,
    .vmemapWrite 65536 0 0, .vmemapWrite 0 4096 0, .pcfgWrite 65536 0 0, .pcfgWrite 0 32 0, .discWrite 65536 0,
    .mailboxHeaderWrite 65536 0 0 0, .mailboxHeaderWrite 0 4 0 0, .mailboxHeaderWrite 0 0 16 0, .canFrameReceived 4 0 [],
    .canFrameReceived 0 0 (List.replicate 65 0), .recover 65536 0, .recover 0 4, .udataWrite 65536 0 0, .udataWrite 0 8 0,
    .udataRead 65536 0, .udataRead 0 8] : List Instr).all fun i => !i.wf) = true := by decide +kernel

/-- One number of each is just past its range (R2, R9, R249, R395). -/
theorem test_ill_formed_4 : (([
    .uartCharacter 8 0 0, .uartCharacter 0 512 0, .uartCharacter 0 0 4, .mdioGo 65536 0 0, .mdioGo 0 2 0, .icmdStart 65536 0,
    .icmdStart 0 2, .icmdWrite 65536 0 0, .icmdWrite 0 2 0, .icmdWrite 0 0 256, .icmdReadAck 65536 0, .icmdReadAck 0 2,
    .icmdReadNack 65536 0, .icmdReadNack 0 2, .icmdStop 65536 0, .icmdStop 0 2, .iresRead 65536 0, .iresRead 0 2, .gsetWrite 65536 0,
    .gclrWrite 65536 0, .canFrameSent 4 0, .canFrameSent 0 3, .recoverySequenceComplete 4, .uartCharacterSent 8, .mdioFrameDone 2 0,
    .mdioFrameDone 0 65536, .i2cCommandComplete 2 0 false, .i2cCommandComplete 0 256 false, .i2cSlaveAddressed 2, .mgmtLinkDown 2,
    .domainRequest 65536 false 0, .domainSwitchComplete 97 false, .plWrite 65536 0 0, .plWrite 0 64 0, .levelChangeComplete 64,
    .entryStageComplete 64, .wake 64 20, .wake 0 64, .wakeSource 0 0, .wakeSource 5 0, .wakeSource 1 32, .thermalSample 256 0 0,
    .thermalSample 0 256 0, .thermalSample 0 0 256, .regulatorOutOfRegulation 64, .dmodeWrite 65536 0, .dmodeWrite 0 4, .clrabort 65536,
    .powerOnReset 0 0, .powerOnReset 4 0, .powerOnReset 1 8, .deviceReset 65536 0, .dieReset 65536 0 0, .dieReset 0 0 2,
    .regionReset 65536 0 0, .regionReset 0 0 16, .triadReset 65536 0 0, .triadReset 0 0 64, .startok 65536, .go 65536 0,
    .resetComplete 1 0] : List Instr).all fun i => !i.wf) = true := by decide +kernel

/-- One number of each is just past its range (R2, R9, R249, R395). -/
theorem test_ill_formed_5 : (([
    .resetComplete 5 0, .serviceMessage 4 0 [], .serviceMessage 16 0 [], .getseq 4, .getseq 16, .resend 4, .resend 16, .readreg 4,
    .readreg 16, .logread 4, .logread 16, .writereg 4, .writereg 16, .msg 4, .msg 16, .flashwrite 4, .flashwrite 16, .flasherase 4,
    .flasherase 16, .verify 4, .verify 16, .setpref 4, .setpref 16, .dirset 4, .dirset 16, .loadtable 4, .loadtable 16, .loadreact 4,
    .loadreact 16, .loadtriad 4, .loadtriad 16, .loadmcode 4, .loadmcode 16, .wardenswap 4 false, .wardenswap 16 false, .reset 4,
    .reset 16, .installset 4, .installset 16, .revokekey 4, .revokekey 16, .send 65536, .msgin7Read 65536, .pglockWrite 65536 0,
    .pglockWrite 0 65536, .registerWrite 65536 0 0 8 0, .registerWrite 0 65536 0 8 0, .registerWrite 0 0 4096 8 0,
    .registerWrite 0 0 0 2 0] : List Instr).all fun i => !i.wf) = true := by decide +kernel

/-- Every number is in range. -/
theorem test_in_range_1 : (([
    .exceptionEntry 0 0, .interruptRequest 0 20, .tintArrival 0 0, .replayLoadRequest 0 0, .gatedRequest 0 0, .tmiResponse 0,
    .lagLimit 0 0, .stepBlockEnd 0 0 0, .tcmScrub 0 0, .tcmWriteBack 0 0, .mordantingRoundEnd 0 false, .mordantingPause 0,
    .mordantingComplete 0 false, .mordtmoExpiry 0, .tmodeWrite 0 0 0, .tcfgWrite 0 0 0, .irqsetWrite 0 0 0, .radmwinWrite 0 0 0,
    .clrmon 0 0, .clrcnt 0 0 0, .move 0 0, .moveWindowEnd 0 0 false, .release 0 0, .deadlineEnd 0 0, .doneComplete 0 0 0,
    .doneStopAck 0 0 0, .lossNotice 0, .completionNotice 0, .takeoverNotice 0, .noticeTimeout 0 0, .rerunMoveEnd 0 0, .sparedlEnd 0 0,
    .vote 0 0, .voteWindowEnd 0 0, .commit 0 0, .tx 0 0, .rxchk 0 0, .tbldataWrite 0 0 0, .tblchk 0, .swframeWrite 0 0,
    .sctlEnWrite 0 0 false, .alarmFire 0, .srcWrite 0 0, .txHandoverComplete 0 0, .txWindowEnd 0 0, .sramAccess 0, .sramWriteBack 0,
    .zeroFillComplete 0 false, .ddr4Request 0, .maintenanceWindow 0, .dcfgWrite 0 0 0, .start 0 0, .trainingComplete 0 false 0,
    .trainingTimeout 0, .init 0 0, .initComplete 0, .mirror 0 0 false, .retrain 0 0, .retire 0 0, .selfRefreshExitComplete 0] : List Instr).all fun i => i.wf) = true := by decide +kernel

/-- Every number is in range. -/
theorem test_in_range_2 : (([
    .commitFwall 0 0 0, .clrdeny 0 0, .crcFeed 0, .crctlInit 0 0 0, .ccfgWrite 0 0 0 0, .cvalueWrite 0 0 0 false 0, .faultEvent 0 0 0 0,
    .railFault 0 0, .rtblchk 0, .rswgenWrite 0 0, .flogselWrite 0 0, .clrfirst 0, .clrlog 0, .arm 0 0 0, .lctlEnWrite 0 0 false,
    .signalDetect 0, .autoNegotiation 0 0 false 0, .capSend 0, .cap (capRx cap1) 0 cap1, .rateChange 0, .equaliserConverged 0,
    .trainingLimit 0, .confirmTimeout 0, .laneFailure 0 1, .spareTimeout 0, .downExpiry 0, .retune 0 0, .reneg 0 0, .sendindigo 0 0,
    .indigoDetect 0, .data (rx 0 .ack) [], .req (rx 0 .ack) 0 0 0 [], .rsp (rx 0 .ack) 0 [],
    .voteFrame (rx 0 .ack) ⟨0, 0, 0, 0, 0, 0, 0⟩, .time (rx 0 .ack) 0 0 0, .svc (rx 0 .ack) 0 0 [], .ack (rx 0 .ack), .nak (rx 0 .ack),
    .reorderTimeout 0 0, .retryTimeout 0 0, .timeSend 0, .peerHoldTimeout 0 0 false 0, .blcfgWrite 0 0 0, .restart 0 0,
    .ethernetFrame 0 (frame 0), .tailWrite 0 0 false 0, .transmitDescriptorReturned 0, .vcfgWrite 0 0, .virqWrite 0 0, .iack 1,
    .irqAsserted 1, .vintpopRead 0, .vmemapWrite 0 0 0, .pcfgWrite 0 0 0, .discWrite 0 0, .mailboxHeaderWrite 0 0 0 0,
    .canFrameReceived 0 0 [], .recover 0 0, .udataWrite 0 0 0, .udataRead 0 0] : List Instr).all fun i => i.wf) = true := by decide +kernel

/-- Every number is in range. -/
theorem test_in_range_3 : (([
    .uartCharacter 0 0 0, .mdioGo 0 0 0, .icmdStart 0 0, .icmdWrite 0 0 0, .icmdReadAck 0 0, .icmdReadNack 0 0, .icmdStop 0 0,
    .iresRead 0 0, .gsetWrite 0 0, .gclrWrite 0 0, .canFrameSent 0 2, .recoverySequenceComplete 0, .uartCharacterSent 0,
    .mdioFrameDone 0 0, .i2cCommandComplete 0 0 false, .i2cSlaveAddressed 0, .mgmtLinkDown 0, .domainRequest 0 false 0,
    .domainSwitchComplete 0 false, .plWrite 0 0 0, .levelChangeComplete 0, .entryStageComplete 0, .wake 0 20, .wakeSource 1 0,
    .thermalSample 0 0 0, .regulatorOutOfRegulation 0, .dmodeWrite 0 0, .clrabort 0, .powerOnReset 1 0, .deviceReset 0 0,
    .dieReset 0 0 0, .regionReset 0 0 0, .triadReset 0 0 0, .startok 0, .go 0 0, .resetComplete 2 0, .serviceMessage 0 0 [], .getseq 0,
    .resend 0, .readreg 0, .logread 0, .writereg 0, .msg 0, .flashwrite 0, .flasherase 0, .verify 0, .setpref 0, .dirset 0,
    .loadtable 0, .loadreact 0, .loadtriad 0, .loadmcode 0, .wardenswap 0 false, .reset 0, .installset 0, .revokekey 0, .send 0,
    .msgin7Read 0, .pglockWrite 0 0, .registerWrite 0 0 0 8 0] : List Instr).all fun i => i.wf) = true := by decide +kernel

/-- The checks of an FLA command: triad, copy, the place of the repeat prefix, and a condition of R119: an undefined control
register, a repeat prefix on a branch. -/
theorem test_ill_formed_fla : ([.nop { t := 64, c := 0 }, .nop { t := 0, c := 3 }, .nop { t := 0, c := 0, repAt := 1 },
    .repeatElement { t := 0, c := 0, repAt := 1 } .rep .nop, .mtc xA 1 0x1FF, .repeatElement xA .rep (.br (.d8 0))] : List Instr).all
      (fun i => !i.wf) = true ∧ (Instr.nop xA).wf = true ∧ (Instr.repeatElement xA .rep .movs).wf = true := by decide +kernel

/-! FLA encodings, written out from the maps of R113 to R118. -/

/-- What the bytes decode to. -/
def dec (bs : List Nat) : FlaDecode := decodeFla 0 0 fun k => bs[k]?

/-- Arithmetic: ADD g1, g2, g3; SHL g1, g2, 63; SAR of a reserved count; MULHU g15, g0, -2 (imm32); MOVI at width 16; MOVPG; SXW. -/
theorem test_decode_arithmetic : dec [0x01, 0x12, 0x03] = .ok xA none (.alu .add 1 2 (.reg 3)) ∧
    dec [0x17, 0x12, 0x3F] = .ok xA none (.alu .shl 1 2 (.imm8 0x3F)) ∧ dec [0x19, 0x12, 0x40] = .illegal 7 2 ∧
    dec [0x2E, 0xF0, 0xFE, 0xFF, 0xFF, 0xFF] = .ok xA none (.alu .mulhu 15 0 (.imm32 0xFFFFFFFE)) ∧
    dec [0xD3, 0x31, 0x40, 0x34, 0x12] = .ok (xW .w2) none (.movi 4 0x1234) ∧ dec [0x3F, 0x50] = .ok xA none (.movpg 5) ∧
    dec [0x37, 0x12] = .ok xA none (.un .sxw 1 2) ∧ dec [0xE0, 0x03, 0x12, 0x03] = .ok xA none (.alu .remu 1 2 (.reg 3)) := by decide +kernel

/-- Memory: LD g1, [g2 - 1]; LDS needs a width; ST with SPLIT; STI of 8 bytes at disp32; LEAPC; TAS p3; STC p5; PUSH. -/
theorem test_decode_memory : dec [0x40, 0x12, 0xFF] = .ok xA none (.ld 1 2 (.d8 0xFF)) ∧ dec [0x42, 0x12, 0xFF] = .illegal 6 0 ∧
    dec [0xD2, 0x42, 0x12, 0xFF] = .ok (xW .w1) none (.lds 1 2 (.d8 0xFF)) ∧
    dec [0xD5, 0x44, 0x12, 0x08] = .ok { t := 0, c := 0, split := true } none (.st 1 2 (.d8 8)) ∧
    dec [0x47, 0x02, 0, 0, 1, 0, 8, 7, 6, 5, 4, 3, 2, 1] = .ok xA none (.sti 2 (.d32 0x10000) 0x0102030405060708) ∧
    dec [0x4B, 0x10, 0, 0, 0, 0x80] = .ok xA none (.leapc 1 0x80000000) ∧ dec [0x60, 0x32, 0x00] = .ok xA none (.tas 3 2 (.d8 0)) ∧
    dec [0x63, 0x12, 0x05] = .ok xA none (.stc 5 1 2) ∧ dec [0x4C, 0x01] = .ok xA none (.push 1) := by decide +kernel

/-- Control: BR -2; DBNZ g1; MFC g1 from RETCNT; MTC to RETCNT, which no level writes; HOLD 4096 and 4097; FENCE.RULE. -/
theorem test_decode_control : dec [0x50, 0xFE] = .ok xA none (.br (.d8 0xFE)) ∧ dec [0x55, 0x10, 0xF0] = .ok xA none (.dbnz 1 (.d8 0xF0)) ∧
    dec [0x64, 0x10, 0x02, 0x00] = .ok xA none (.mfc 1 2) ∧ dec [0x65, 0x01, 0x02, 0x00] = .illegal 9 2 ∧
    dec [0x66, 0x00, 0x10] = .ok xA none (.hold 4096) ∧ dec [0x66, 0x01, 0x10] = .illegal 7 1 ∧ dec [0xE3, 0x00] = .ok xA none .fenceRule ∧
    dec [0xF2] = .ok xA none .rete ∧ dec [0xFF] = .illegal 0xB 0 := by decide +kernel

/-- Predicates: GT p2, g6, g9 is E1 22 69 (R115); TSTI; PANDN p7, p1; MOVGP; a predicate destination p0; NOP guarded by p3 false. -/
theorem test_decode_predicates : dec [0xE1, 0x22, 0x69] = .ok xA none (.cmp .gt 2 6 (.reg 9)) ∧
    dec [0xE1, 0xF9, 0x10, 1, 0, 0, 0] = .ok xA none (.tsti 1 1 1) ∧ dec [0xE2, 0x03, 0x71] = .ok xA none (.plog .pandn 7 1) ∧
    dec [0xE2, 0x09, 0x02] = .ok xA none (.movgp 2) ∧ dec [0xE2, 0x06, 0x00] = .illegal 7 2 ∧ dec [0xE1, 0x20, 0x69] = .illegal 2 1 ∧
    dec [0xCB, 0xF0] = .ok { t := 0, c := 0, guard := some ⟨false, 3⟩ } none .nop := by decide +kernel

/-- Blocks and repetition: REP MOVS; REPU with SPLIT; two widths; a destination g1 under REP; bytes that stop short (R120). -/
theorem test_decode_blocks : dec [0xD0, 0x70] = .ok xA (some .rep) .movs ∧ dec [0xC1, 0xD1, 0x73, 0x24] =
      .ok { t := 0, c := 0, guard := some ⟨true, 1⟩, repAt := 1 } (some .repu) (.scans 2 4) ∧
    dec [0xD1, 0xD5, 0x40, 0x22, 0x00] = .illegal 6 2 ∧ dec [0xD2, 0xD3, 0x70] = .illegal 5 1 ∧ dec [0xD0, 0x01, 0x12, 0x03] = .illegal 6 1 ∧
    dec [0xD6, 0xF0] = .illegal 4 0 ∧ dec [0x01, 0x12] = .fetch 2 ∧ dec [0x74] = .ok xA none .crcs := by decide +kernel

/-- Pins (R276, R281, R352, R436): ERROUT shows error at reset and every other output floats; a pin with a SAFE record that drives
high; VME floats with its domain off. -/
theorem test_pins : State.reset.pinShows .errout = .error ∧ State.reset.pinShows (.uartTx 3) = .float ∧ State.reset.pinShows .vme = .float ∧
    { lab with pins := [(5, 2)] }.pinShows (.gpio 5) = .high ∧ { lab with pins := [(5, 2)], fabio := false }.pinShows (.gpio 5) = .float := by
  decide +kernel
end Sys2Proof.Tests
end

section
/-! SUPPORT. Results narrowed to 8w bits (R124), seen as integers modulo 2^(8w): what the operations of R113 to R115 answer,
in the terms of the spec. -/

namespace Sys2Proof

theorem Width.bits_pos (w : Width) : 0 < w.bits := by cases w <;> decide

theorem Width.two_pow_bits_dvd (w : Width) : (2 : Int) ^ w.bits ∣ 2 ^ 64 := by cases w <;> decide

end Sys2Proof

namespace Sys2Proof.Machine

/-! Numbers and powers of two, from the naturals to the integers. -/

theorem natCast_two_pow (n : Nat) : ((2 ^ n : Nat) : Int) = 2 ^ n := Int.natCast_pow 2 n

theorem natCast_mul_two_pow (u n : Nat) : ((u * 2 ^ n : Nat) : Int) = u * 2 ^ n := by
  rw [Int.natCast_mul, natCast_two_pow]

theorem natCast_div_two_pow (u n : Nat) : ((u / 2 ^ n : Nat) : Int) = u / 2 ^ n := by
  rw [Int.natCast_ediv, natCast_two_pow]

theorem natCast_mod_two_pow (u n : Nat) : ((u % 2 ^ n : Nat) : Int) = u % 2 ^ n := by
  rw [Int.natCast_emod, natCast_two_pow]

/-! Integers in registers. -/

/-- The register value of an integer depends on it modulo 2^(8w) alone. -/
theorem intWord_congr {w : Width} {u v : Int} (h : u % 2 ^ w.bits = v % 2 ^ w.bits) : intWord w u = intWord w v := by
  unfold intWord
  rw [h]

theorem intWord_natCast (w : Width) (n : Nat) : intWord w n = BitVec.ofNat 64 (n % 2 ^ w.bits) := by
  rw [intWord, ← natCast_mod_two_pow, Int.toNat_natCast]

/-- A number that fits in 8w bits stands as it is. -/
theorem intWord_of_lt {w : Width} {n : Nat} (h : n < 2 ^ w.bits) : intWord w n = BitVec.ofNat 64 n := by
  rw [intWord_natCast, Nat.mod_eq_of_lt h]

theorem uval_lt (w : Width) (a : Word) : uval w a < 2 ^ w.bits := Nat.mod_lt _ (Nat.two_pow_pos _)

/-- Numbers that agree modulo 2^64 agree modulo 2^(8w). -/
theorem emod_bits_congr {u v : Int} (w : Width) (h : u % 2 ^ 64 = v % 2 ^ 64) : u % 2 ^ w.bits = v % 2 ^ w.bits := by
  rw [← Int.emod_emod_of_dvd u w.two_pow_bits_dvd, h, Int.emod_emod_of_dvd v w.two_pow_bits_dvd]

theorem toNat_emod_bits (w : Width) (a : Word) : (a.toNat : Int) % 2 ^ w.bits = uval w a := by
  rw [uval, natCast_mod_two_pow]

theorem lo_eq_intWord (w : Width) (a : Word) : lo w a = intWord w a.toNat := (intWord_natCast w a.toNat).symm

theorem lo_eq_intWord_uval (w : Width) (a : Word) : lo w a = intWord w (uval w a) := (intWord_of_lt (uval_lt w a)).symm

theorem narrow_eq_intWord (w : Width) (v : Int) : narrow w v = intWord w v := by
  have h : ((BitVec.ofInt 64 v).toNat : Int) % 2 ^ 64 = v % 2 ^ 64 := by
    rw [BitVec.toNat_ofInt]
    omega
  rw [narrow, lo_eq_intWord]
  exact intWord_congr (emod_bits_congr w h)

theorem allOnes_eq_intWord (w : Width) : allOnes w = intWord w (-1) := by cases w <;> decide

/-! Sums and differences wrap modulo 2^64, so modulo 2^(8w) too. -/

theorem lo_add (w : Width) (a b : Word) : lo w (a + b) = intWord w (uval w a + uval w b) := by
  have h : ((a + b).toNat : Int) % 2 ^ 64 = (a.toNat + b.toNat : Int) % 2 ^ 64 := by
    rw [BitVec.toNat_add]
    omega
  rw [lo_eq_intWord, intWord_congr (emod_bits_congr w h)]
  refine intWord_congr ?_
  rw [Int.add_emod, toNat_emod_bits, toNat_emod_bits]

theorem lo_sub (w : Width) (a b : Word) : lo w (a - b) = intWord w (uval w a - uval w b) := by
  have h : ((a - b).toNat : Int) % 2 ^ 64 = (a.toNat - b.toNat : Int) % 2 ^ 64 := by
    rw [BitVec.toNat_sub]
    omega
  rw [lo_eq_intWord, intWord_congr (emod_bits_congr w h)]
  refine intWord_congr ?_
  rw [Int.sub_emod, toNat_emod_bits, toNat_emod_bits]

/-! The bitwise operations act on the low 8w bits alone. -/

theorem uval_and (w : Width) (a b : Word) : uval w (a &&& b) = uval w a &&& uval w b := by
  unfold uval
  rw [BitVec.toNat_and, Nat.and_mod_two_pow]

theorem uval_or (w : Width) (a b : Word) : uval w (a ||| b) = uval w a ||| uval w b := by
  unfold uval
  rw [BitVec.toNat_or, Nat.or_mod_two_pow]

theorem uval_xor (w : Width) (a b : Word) : uval w (a ^^^ b) = uval w a ^^^ uval w b := by
  unfold uval
  rw [BitVec.toNat_xor, Nat.xor_mod_two_pow]

theorem uval_not (w : Width) (a : Word) : uval w (~~~ a) = 2 ^ w.bits - 1 - uval w a := by
  unfold uval
  rw [BitVec.toNat_not]
  cases w <;> simp only [Width.bits] <;> omega

/-! Products, within 8w bits. -/

theorem mul_mod_eq_intWord (w : Width) (a b : Word) :
    BitVec.ofNat 64 (uval w a * uval w b % 2 ^ w.bits) = intWord w (uval w a * uval w b) := by
  rw [← intWord_natCast, Int.natCast_mul]

/-! Rotations: the two parts of a value turned by `k` of 8w places do not overlap. -/

theorem rotate_lt {n k u : Nat} (hk : k ≤ n) (hu : u < 2 ^ n) : u * 2 ^ k % 2 ^ n + u / 2 ^ (n - k) < 2 ^ n := by
  have hn : 2 ^ n = 2 ^ (n - k) * 2 ^ k := by rw [← Nat.pow_add, Nat.sub_add_cancel hk]
  have hlow : u % 2 ^ (n - k) + 1 ≤ 2 ^ (n - k) := Nat.mod_lt _ (Nat.two_pow_pos _)
  have hhigh : u / 2 ^ (n - k) < 2 ^ k := Nat.div_lt_of_lt_mul (hn ▸ hu)
  rw [hn, Nat.mul_mod_mul_right]
  calc u % 2 ^ (n - k) * 2 ^ k + u / 2 ^ (n - k)
      < u % 2 ^ (n - k) * 2 ^ k + 2 ^ k := by omega
    _ = (u % 2 ^ (n - k) + 1) * 2 ^ k := (Nat.succ_mul _ _).symm
    _ ≤ 2 ^ (n - k) * 2 ^ k := Nat.mul_le_mul_right _ hlow

theorem rotate_eq_intWord {w : Width} {k u : Nat} (hk : k ≤ w.bits) (hu : u < 2 ^ w.bits) :
    BitVec.ofNat 64 (u * 2 ^ k % 2 ^ w.bits + u / 2 ^ (w.bits - k)) = intWord w (u * 2 ^ k + u / 2 ^ (w.bits - k)) := by
  rw [← intWord_of_lt (rotate_lt hk hu), Int.natCast_add, natCast_mod_two_pow, natCast_mul_two_pow, natCast_div_two_pow]
  exact intWord_congr (Int.emod_add_emod _ _ _)

/-! The shift count (R127). -/

theorem toNat_uval_emod_bits (w : Width) (b : Word) : ((uval w b : Int) % w.bits).toNat = shiftCount w b := by
  unfold shiftCount
  rw [← Int.natCast_emod, Int.toNat_natCast]

theorem shiftCount_le (w : Width) (b : Word) : shiftCount w b ≤ w.bits := Nat.le_of_lt (Nat.mod_lt _ w.bits_pos)

/-! The results of R113 and R127. -/

theorem resAdd_eq (w : Width) (a b : Word) : resAdd w a b = (intWord w (uval w a + uval w b), none) := by
  rw [resAdd, lo_add]

theorem resSub_eq (w : Width) (a b : Word) : resSub w a b = (intWord w (uval w a - uval w b), none) := by
  rw [resSub, lo_sub]

theorem resAnd_eq (w : Width) (a b : Word) : resAnd w a b = (BitVec.ofNat 64 (Nat.land (uval w a) (uval w b)), none) :=
  congrArg (fun n => (BitVec.ofNat 64 n, none)) (uval_and w a b)

theorem resOr_eq (w : Width) (a b : Word) : resOr w a b = (BitVec.ofNat 64 (Nat.lor (uval w a) (uval w b)), none) :=
  congrArg (fun n => (BitVec.ofNat 64 n, none)) (uval_or w a b)

theorem resXor_eq (w : Width) (a b : Word) : resXor w a b = (BitVec.ofNat 64 (Nat.xor (uval w a) (uval w b)), none) :=
  congrArg (fun n => (BitVec.ofNat 64 n, none)) (uval_xor w a b)

theorem resAndn_eq (w : Width) (a b : Word) :
    resAndn w a b = (BitVec.ofNat 64 (Nat.land (uval w a) (2 ^ w.bits - 1 - uval w b)), none) := by
  rw [← uval_not]
  exact resAnd_eq w a (~~~ b)

theorem resShl_eq (w : Width) (a b : Word) :
    resShl w a b = (intWord w (uval w a * 2 ^ ((uval w b : Int) % w.bits).toNat), none) := by
  rw [resShl, ← intWord_natCast, toNat_uval_emod_bits, natCast_mul_two_pow]

theorem resShr_eq (w : Width) (a b : Word) :
    resShr w a b = (intWord w (uval w a / 2 ^ ((uval w b : Int) % w.bits).toNat), none) := by
  have h : uval w a / 2 ^ shiftCount w b < 2 ^ w.bits := Nat.lt_of_le_of_lt (Nat.div_le_self _ _) (uval_lt w a)
  rw [resShr, ← intWord_of_lt h, toNat_uval_emod_bits, natCast_div_two_pow]

/-- SAR is a division of the signed number, rounded down. -/
theorem resSar_eq (w : Width) (a b : Word) :
    resSar w a b = (intWord w (sval w a / 2 ^ ((uval w b : Int) % w.bits).toNat), none) := by
  have h : ((sx w a).sshiftRight (shiftCount w b)).toInt = sval w a / 2 ^ shiftCount w b := by
    rw [BitVec.toInt_sshiftRight, Int.shiftRight_eq_div_pow, natCast_two_pow, sval]
  rw [resSar, toNat_uval_emod_bits, ← narrow_eq_intWord, narrow, ← h, BitVec.ofInt_toInt]

theorem resRol_eq (w : Width) (a b : Word) :
    resRol w a b = (intWord w (uval w a * 2 ^ ((uval w b : Int) % w.bits).toNat +
      uval w a / 2 ^ (w.bits - ((uval w b : Int) % w.bits).toNat)), none) := by
  rw [resRol, rotate_eq_intWord (shiftCount_le w b) (uval_lt w a), toNat_uval_emod_bits]

/-- A turn to the right by n places is a turn to the left by 8w - n. -/
theorem resRor_eq (w : Width) (a b : Word) :
    resRor w a b = (intWord w (uval w a / 2 ^ ((uval w b : Int) % w.bits).toNat +
      uval w a * 2 ^ (w.bits - ((uval w b : Int) % w.bits).toNat)), none) := by
  have h := rotate_eq_intWord (Nat.sub_le w.bits (shiftCount w b)) (uval_lt w a)
  rw [Nat.sub_sub_self (shiftCount_le w b)] at h
  rw [resRor, Nat.add_comm, h, toNat_uval_emod_bits, Int.add_comm]

/-! Products (R128). -/

theorem resMul_eq (w : Width) (a b : Word) : resMul w a b = (intWord w (uval w a * uval w b), none) := by
  rw [resMul, mul_mod_eq_intWord]

theorem resMulh_eq (w : Width) (a b : Word) :
    resMulh w a b = (intWord w (sval w a * sval w b / 2 ^ w.bits), none) := by
  rw [resMulh, narrow_eq_intWord]

theorem resMulhu_eq (w : Width) (a b : Word) :
    resMulhu w a b = (intWord w (uval w a * uval w b / 2 ^ w.bits), none) := by
  have h : uval w a * uval w b / 2 ^ w.bits < 2 ^ w.bits :=
    Nat.div_lt_of_lt_mul (Nat.mul_lt_mul'' (uval_lt w a) (uval_lt w b))
  rw [resMulhu, ← intWord_of_lt h, natCast_div_two_pow, Int.natCast_mul]

/-! The trapping operations and division (R128 to R130). -/

/-- The cause that a signed result raises. -/
theorem fitsS_cause (w : Width) (v : Int) : (if fitsS w v then none else some 2 : ArithCause) =
    if -(2 : Int) ^ (w.bits - 1) ≤ v ∧ v < (2 : Int) ^ (w.bits - 1) then none else some 2 := by
  simp only [fitsS, Bool.and_eq_true, decide_eq_true_eq]

theorem resAddt_eq (w : Width) (a b : Word) : resAddt w a b = (intWord w (uval w a + uval w b),
    if -(2 : Int) ^ (w.bits - 1) ≤ sval w a + sval w b ∧ sval w a + sval w b < (2 : Int) ^ (w.bits - 1) then none
    else some 2) := by
  rw [resAddt, lo_add, fitsS_cause]

theorem resSubt_eq (w : Width) (a b : Word) : resSubt w a b = (intWord w (uval w a - uval w b),
    if -(2 : Int) ^ (w.bits - 1) ≤ sval w a - sval w b ∧ sval w a - sval w b < (2 : Int) ^ (w.bits - 1) then none
    else some 2) := by
  rw [resSubt, lo_sub, fitsS_cause]

theorem resMult_eq (w : Width) (a b : Word) : resMult w a b = (intWord w (uval w a * uval w b),
    if -(2 : Int) ^ (w.bits - 1) ≤ sval w a * sval w b ∧ sval w a * sval w b < (2 : Int) ^ (w.bits - 1) then none
    else some 2) := by
  rw [resMult, mul_mod_eq_intWord, fitsS_cause]

theorem resDiv_eq (w : Width) (a b : Word) : resDiv w a b =
    (intWord w (if (uval w b : Int) = 0 then -1 else (sval w a).tdiv (sval w b)),
      if (uval w b : Int) = 0 then some 1 else none) := by
  simp only [resDiv, Int.natCast_eq_zero]
  split
  · rw [allOnes_eq_intWord]
  · rw [narrow_eq_intWord]

theorem resDivu_eq (w : Width) (a b : Word) : resDivu w a b =
    (intWord w (if (uval w b : Int) = 0 then -1 else uval w a / uval w b),
      if (uval w b : Int) = 0 then some 1 else none) := by
  have h : uval w a / uval w b < 2 ^ w.bits := Nat.lt_of_le_of_lt (Nat.div_le_self _ _) (uval_lt w a)
  simp only [resDivu, Int.natCast_eq_zero]
  split
  · rw [allOnes_eq_intWord]
  · rw [← intWord_of_lt h, Int.natCast_ediv]

theorem resRem_eq (w : Width) (a b : Word) : resRem w a b =
    (intWord w (if (uval w b : Int) = 0 then uval w a else (sval w a).tmod (sval w b)),
      if (uval w b : Int) = 0 then some 1 else none) := by
  simp only [resRem, Int.natCast_eq_zero]
  split
  · rw [lo_eq_intWord_uval]
  · rw [narrow_eq_intWord]

theorem resRemu_eq (w : Width) (a b : Word) : resRemu w a b =
    (intWord w (if (uval w b : Int) = 0 then uval w a else uval w a % uval w b),
      if (uval w b : Int) = 0 then some 1 else none) := by
  have h : uval w a % uval w b < 2 ^ w.bits := Nat.lt_of_le_of_lt (Nat.mod_le _ _) (uval_lt w a)
  simp only [resRemu, Int.natCast_eq_zero]
  split
  · rw [lo_eq_intWord_uval]
  · rw [← intWord_of_lt h, Int.natCast_emod]

/-! The conditions of R115. -/

theorem condEq_eq (w : Width) (a b : Word) : condEq w a b = decide ((uval w a : Int) = uval w b) :=
  decide_eq_decide.2 Int.ofNat_inj.symm

theorem condNe_eq (w : Width) (a b : Word) : condNe w a b = decide ((uval w a : Int) ≠ uval w b) := by
  rw [Bool.eq_iff_iff, condNe, bne_iff_ne, decide_eq_true_iff]
  exact not_congr Int.ofNat_inj.symm

theorem condLtu_eq (w : Width) (a b : Word) : condLtu w a b = decide ((uval w a : Int) < uval w b) :=
  decide_eq_decide.2 Int.ofNat_lt.symm

theorem condLeu_eq (w : Width) (a b : Word) : condLeu w a b = decide ((uval w a : Int) ≤ uval w b) :=
  decide_eq_decide.2 Int.ofNat_le.symm

theorem tstRes_eq (w : Width) (a b : Word) : tstRes w a b = decide (Nat.land (uval w a) (uval w b) ≠ 0) := by
  rw [Bool.eq_iff_iff, tstRes, uval_and, bne_iff_ne, decide_eq_true_iff]
  rfl

end Sys2Proof.Machine
end

section
/-! Integer arithmetic, division, compares and predicate logic as one group of their copy (R113 to R116, R124, R127 to R131). -/

namespace Sys2Proof.Machine

/-- An instruction that executes as a group of its copy runs on, and the state of `State.runs` is the one its group left. -/
theorem State.runs_of_runGroup {s : State} {c : Instr} {x : Ctx} {i : Fla} {P : State → Prop}
    (hc : exec c s = .next (s.runGroup x i none)) (hP : P (s.moveGroup x i none)) : s.runs c x P :=
  ⟨s.moveGroup x i none, hc, hP⟩

/-- An arithmetic instruction yields its operation's result and cause. -/
theorem State.yields_alu {s : State} {c : Instr} {x : Ctx} {op : AluOp} {d a : Reg} {b : Src2} {v : Word} {z : ArithCause}
    (hc : exec c s = .next (s.runGroup x (.alu op d a b) none))
    (hr : aluRes op x.w ((s.copy x.key).rd a) (srcVal (s.copy x.key) b) = (v, z)) :
    s.yields c x (.alu op d a b) d v z := by
  intro he
  refine State.runs_of_runGroup hc (State.moveGroup_writesReg s x _ d v z he (fun _ _ => rfl) ⟨nofun, nofun, nofun⟩ ?_ ?_)
  · exact ⟨congrArg (fun r : AluRes => some (d, r.1)) hr, rfl, rfl, rfl, rfl, rfl⟩
  · exact congrArg Prod.snd hr

/-- Settles O3: each result of `aluRes` is the spec's integer, taken modulo 2^(8w). -/
theorem integerResults : Obligations.IntegerResults := by
  refine ⟨fun s x d a b => ⟨?_, ?_, ?_, ?_, ?_, ?_⟩, fun s x d a b => ⟨?_, ?_, ?_, ?_, ?_⟩,
    fun s x d a b => ⟨?_, ?_, ?_⟩⟩
  · exact State.yields_alu rfl (resAdd_eq _ _ _)
  · exact State.yields_alu rfl (resSub_eq _ _ _)
  · exact State.yields_alu rfl (resAnd_eq _ _ _)
  · exact State.yields_alu rfl (resOr_eq _ _ _)
  · exact State.yields_alu rfl (resXor_eq _ _ _)
  · exact State.yields_alu rfl (resAndn_eq _ _ _)
  · exact State.yields_alu rfl (resShl_eq _ _ _)
  · exact State.yields_alu rfl (resShr_eq _ _ _)
  · exact State.yields_alu rfl (resSar_eq _ _ _)
  · exact State.yields_alu rfl (resRol_eq _ _ _)
  · exact State.yields_alu rfl (resRor_eq _ _ _)
  · exact State.yields_alu rfl (resMul_eq _ _ _)
  · exact State.yields_alu rfl (resMulh_eq _ _ _)
  · exact State.yields_alu rfl (resMulhu_eq _ _ _)

/-- Settles O4: the results are the spec's integers modulo 2^(8w), and the causes those of the signed result's range and of a zero
divisor. -/
theorem arithmeticExceptions : Obligations.ArithmeticExceptions := by
  refine ⟨fun s x d a b c => ⟨?_, ?_, ?_⟩, fun s x d a b => ⟨?_, ?_, ?_, ?_⟩⟩
  · exact State.yields_alu rfl (resAddt_eq _ _ _)
  · exact State.yields_alu rfl (resSubt_eq _ _ _)
  · exact State.yields_alu rfl (resMult_eq _ _ _)
  · exact State.yields_alu rfl (resDiv_eq _ _ _)
  · exact State.yields_alu rfl (resDivu_eq _ _ _)
  · exact State.yields_alu rfl (resRem_eq _ _ _)
  · exact State.yields_alu rfl (resRemu_eq _ _ _)

/-- An instruction that makes no access, and whose whole effect is one predicate write, decides that predicate. -/
theorem State.decides_of_predWrite {s : State} {c : Instr} {x : Ctx} {i : Fla} {p : Pred} {u v : Bool}
    (hc : exec c s = .next (s.runGroup x i none))
    (he : flaEff x (s.copy x.key) (s.nextPc x none i) [] i = { pmask := (predWrite p u).1, pvals := (predWrite p u).2 })
    (hv : u = v) (ha : ∀ d n, flaAcc x d n i = [] := by intros; rfl)
    (hw : i ≠ .wait ∧ i ≠ .fence ∧ i ≠ .fenceRule := by exact ⟨nofun, nofun, nofun⟩) : s.decides c x i p v := by
  subst hv
  exact fun h => State.runs_of_runGroup hc (State.moveGroup_writesPred s x i p u h ha hw he)

/-- A compare decides its predicate by its condition. -/
theorem State.decides_cmp {s : State} {c : Instr} {x : Ctx} {op : CmpOp} {p : Pred} {d : Reg} {b : Src2} {v : Bool}
    (hc : exec c s = .next (s.runGroup x (.cmp op p d b) none))
    (hr : cmpRes op x.w ((s.copy x.key).rd d) (srcVal (s.copy x.key) b) = v) : s.decides c x (.cmp op p d b) p v :=
  State.decides_of_predWrite hc rfl hr

/-- Predicate logic decides its predicate by the predicates that stand before its group. -/
theorem State.decides_plog {s : State} {c : Instr} {x : Ctx} {op : PredOp} {p q : Pred} {v : Bool}
    (hc : exec c s = .next (s.runGroup x (.plog op p q) none))
    (hr : predRes op ((s.copy x.key).p p) ((s.copy x.key).p q) = v) : s.decides c x (.plog op p q) p v :=
  State.decides_of_predWrite hc rfl hr

/-- The predicates behind MOVGP: p1 to p7 from bits 1 to 7, p0 true (R100, R116). -/
theorem Copy.p_setPreds_all (c : Copy) (v : Word) (r : Pred) :
    (c.setPreds 0xFE (v.toNat % 256)).p r = if r.val = 0 then true else v.getLsbD r.val := by
  have hv : (BitVec.ofNat 8 (v.toNat % 256)).getLsbD r.val = v.getLsbD r.val := by
    rw [BitVec.getLsbD_ofNat, decide_eq_true r.isLt, Bool.true_and, show 256 = 2 ^ 8 from rfl, Nat.testBit_mod_two_pow,
      decide_eq_true r.isLt, Bool.true_and]
    rfl
  have hm : ∀ q : Pred, q.val ≠ 0 → (BitVec.ofNat 8 (0xFE / 2 * 2)).getLsbD q.val = true := by decide
  unfold Copy.p Copy.setPreds
  split
  · rfl
  · next h0 =>
    simp only [BitVec.getLsbD_or, BitVec.getLsbD_and, BitVec.getLsbD_not, hm r h0, hv, Bool.not_true, Bool.and_false,
      Bool.false_or, Bool.and_true]

/-- MOVGP writes the seven predicates and nothing else, in either slot. -/
theorem State.moveGroup_movgp (s : State) (x : Ctx) (a : Reg) (h : s.executes x (.movgp a) = true) :
    let t := s.moveGroup x (.movgp a) none
    (∀ r : Pred, (t.copy x.key).p r = if r.val = 0 then true else ((s.copy x.key).rd a).getLsbD r.val) ∧
    (∀ n, (t.copy x.key).gAt n = (s.copy x.key).gAt n) ∧ s.storesNothing t x ∧
    s.passes t x (.movgp a) (s.nextPc x none (.movgp a)) none := by
  obtain ⟨⟨hregs, hpreds, hpass⟩, hmem⟩ := State.moveGroup_plain s x (.movgp a) h (fun _ _ => rfl) ⟨nofun, nofun, nofun⟩ rfl
  refine ⟨fun r => ?_, fun n => (hregs n).trans (Copy.writes_none _ _ rfl rfl rfl n), hmem, hpass⟩
  calc ((s.moveGroup x (.movgp a) none).copy x.key).p r
      = ((s.copy x.key).writes (flaEff x (s.copy x.key) (s.nextPc x none (.movgp a)) [] (.movgp a))).p r := by
        unfold Copy.p; rw [hpreds]
    _ = _ := (Copy.p_writes _ _ r).trans (Copy.p_setPreds_all _ _ r)

/-- Settles O6: every compare, test and predicate operation has one predicate write as its effect; MOVGP has seven. -/
theorem predicateResults : Obligations.PredicateResults := by
  refine ⟨fun s x p d a b m => ⟨?_, ?_, ?_, ?_, ?_, ?_, ?_, ?_, ?_, ?_, ?_, ?_⟩,
    fun s x p q a => ⟨?_, ?_, ?_, ?_, ?_, ?_, ?_, ?_, ?_, ?_⟩⟩
  · exact State.decides_cmp rfl (condEq_eq _ _ _)
  · exact State.decides_cmp rfl (condNe_eq _ _ _)
  · exact State.decides_cmp rfl rfl
  · exact State.decides_cmp rfl rfl
  · exact State.decides_cmp rfl rfl
  · exact State.decides_cmp rfl rfl
  · exact State.decides_cmp rfl (condLtu_eq _ _ _)
  · exact State.decides_cmp rfl (condLeu_eq _ _ _)
  · exact State.decides_cmp rfl (condLtu_eq _ _ _)
  · exact State.decides_cmp rfl (condLeu_eq _ _ _)
  · exact State.decides_of_predWrite rfl rfl (tstRes_eq _ _ _)
  · exact State.decides_of_predWrite rfl rfl (tstRes_eq _ _ _)
  · exact State.decides_plog rfl rfl
  · exact State.decides_plog rfl rfl
  · exact State.decides_plog rfl rfl
  · exact State.decides_plog rfl rfl
  · exact State.decides_plog rfl rfl
  · exact State.decides_plog rfl rfl
  · exact State.decides_of_predWrite rfl rfl rfl
  · exact State.decides_of_predWrite rfl rfl rfl
  · exact State.decides_of_predWrite rfl rfl (by rw [Bool.eq_iff_iff, bne_iff_ne, decide_eq_true_iff])
  · exact fun h => State.runs_of_runGroup rfl (State.moveGroup_movgp s x a h)

end Sys2Proof.Machine
end

section
/-! Fields of a register: what a field reads after it, or another one, is written. -/

namespace Sys2Proof.Machine

theorem bitMask_getLsbD (hi lo j : Nat) (h : hi < 64) : (bitMask hi lo).getLsbD j = (decide (lo ≤ j) && decide (j ≤ hi)) := by
  rw [bitMask, BitVec.getLsbD_ofNat, Nat.testBit_mul_two_pow, Nat.testBit_two_pow_sub_one, Bool.eq_iff_iff]
  simp only [Bool.and_eq_true, decide_eq_true_eq]
  omega

theorem bitsOf_testBit (w : Word) (hi lo i : Nat) : (bitsOf w hi lo).testBit i = (decide (i < hi + 1 - lo) && w.getLsbD (lo + i)) := by
  rw [bitsOf, Nat.testBit_mod_two_pow, Nat.testBit_div_two_pow, Nat.add_comm i lo]
  rfl

theorem withBits_getLsbD (w : Word) (hi lo v j : Nat) (h : hi < 64) :
    (withBits w hi lo v).getLsbD j = if lo ≤ j ∧ j ≤ hi then v.testBit (j - lo) else w.getLsbD j := by
  rw [withBits, BitVec.getLsbD_or, BitVec.getLsbD_and, BitVec.getLsbD_and, BitVec.getLsbD_not, BitVec.getLsbD_ofNat,
    bitMask_getLsbD hi lo j h, Nat.testBit_mul_two_pow]
  by_cases hj : j < 64
  · by_cases h1 : lo ≤ j <;> by_cases h2 : j ≤ hi <;> simp [hj, h1, h2]
  · simp [hj, show ¬ j ≤ hi by omega, BitVec.getLsbD_of_ge w j (by omega)]

/-- A field just written reads as written. -/
theorem bitsOf_withBits_self (w : Word) (hi lo v : Nat) (h : hi < 64) (hv : v < 2 ^ (hi + 1 - lo)) :
    bitsOf (withBits w hi lo v) hi lo = v := by
  refine Nat.eq_of_testBit_eq fun i => ?_
  rw [bitsOf_testBit, withBits_getLsbD w hi lo v _ h]
  by_cases hi' : i < hi + 1 - lo
  · rw [if_pos (by omega), decide_eq_true hi', Bool.true_and, Nat.add_sub_cancel_left]
  · rw [decide_eq_false hi', Bool.false_and]
    exact (Nat.testBit_lt_two_pow (Nat.lt_of_lt_of_le hv (Nat.pow_le_pow_right (by decide) (by omega)))).symm

/-- A field that does not overlap the one written reads as before. -/
theorem bitsOf_withBits_disjoint (w : Word) (hi lo v hi' lo' : Nat) (h : hi < 64) (hd : hi' < lo ∨ hi < lo') :
    bitsOf (withBits w hi lo v) hi' lo' = bitsOf w hi' lo' := by
  refine Nat.eq_of_testBit_eq fun i => ?_
  rw [bitsOf_testBit, bitsOf_testBit, withBits_getLsbD w hi lo v _ h]
  by_cases hi2 : i < hi' + 1 - lo'
  · rw [if_neg (by omega)]
  · rw [decide_eq_false hi2, Bool.false_and, Bool.false_and]

theorem State.fld_lt (s : State) (p o hi lo : Nat) : s.fld p o hi lo < 2 ^ (hi + 1 - lo) := Nat.mod_lt _ (Nat.two_pow_pos _)

theorem State.fld_setFld_self (s : State) (p o hi lo v : Nat) (h : hi < 64) (hv : v < 2 ^ (hi + 1 - lo)) :
    (s.setFld p o hi lo v).fld p o hi lo = v := by
  rw [State.fld, State.setFld, State.reg_setReg_self]
  exact bitsOf_withBits_self _ hi lo v h hv

theorem State.fld_setFld_disjoint (s : State) (p o hi lo v hi' lo' : Nat) (h : hi < 64) (hd : hi' < lo ∨ hi < lo') :
    (s.setFld p o hi lo v).fld p o hi' lo' = s.fld p o hi' lo' := by
  rw [State.fld, State.setFld, State.reg_setReg_self]
  exact bitsOf_withBits_disjoint _ hi lo v hi' lo' h hd

theorem State.reg_setFld_ne (s : State) (p o hi lo v p' o' : Nat) (h : regKey p' o' ≠ regKey p o) :
    (s.setFld p o hi lo v).reg p' o' = s.reg p' o' := State.reg_setReg_ne s p o p' o' _ h

end Sys2Proof.Machine
end

section
/-! Frames and service messages that leave the device (R303 to R305, R395): sending changes the links, FCOL, what has left, the counters
of the link blocks and the mailbox's queue, and nothing else. -/

namespace Sys2Proof.Machine

theorem le_linkPage (i : Nat) : 0x530 ≤ linkPage i := by
  unfold linkPage pgBvl pgEth
  split <;> omega

section
variable {α : Type} (f : State → α) (hlink : ∀ (s : State) (i : Nat) (k : Link), f (s.setLink i k) = f s)
  (hreg : ∀ (s : State) (p o : Nat) (v : Word), 0x530 ≤ p → f (s.setReg p o v) = f s)
  (hout : ∀ (s : State) (l : List Out), f { s with out := l } = f s)
include hlink hreg hout

theorem State.handOver_keeps (s : State) (i : Nat) (h : BvlHdr) (b : BvlBody) : f (s.handOver i h b) = f s := by
  unfold State.handOver
  dsimp only
  rw [State.emit, hout, State.lcount, State.count, hreg _ _ _ _ (le_linkPage i)]
  split
  · rfl
  · exact hlink _ _ _

theorem State.launch_keeps (s : State) (i : Nat) (h : BvlHdr) (b : BvlBody) : f (s.launch i h b) = f s :=
  (State.handOver_keeps f hlink hreg hout _ _ _ _).trans (hlink _ _ _)

theorem State.sendGap_keeps (s : State) (i : Nat) : f (s.sendGap i) = f s := by
  unfold State.sendGap
  dsimp only
  split
  · rw [State.handOver_keeps f hlink hreg hout]
    split
    · rw [State.lcount, State.count, hreg _ _ _ _ (le_linkPage i), hlink]
    · exact hlink _ _ _
  · rfl

variable (hfcol : ∀ (s : State) (c : Fcol), f { s with fcol := c } = f s)
include hfcol

theorem State.sendAgain_keeps (s : State) (i vc n : Nat) : f (s.sendAgain i vc n) = f s := by
  unfold State.sendAgain
  dsimp only
  split
  · rw [State.handOver_keeps f hlink hreg hout, State.report_keeps f hfcol, State.lcount, State.count,
      hreg _ _ _ _ (le_linkPage i), hlink]
  · exact hlink _ _ _

theorem State.sendFrom_keeps (s : State) (i j : Nat) : f (s.sendFrom i j) = f s := by
  unfold State.sendFrom
  dsimp only
  split
  · split
    · exact (State.sendAgain_keeps f hlink hreg hout hfcol _ _ _ _).trans (hlink _ _ _)
    · exact hlink _ _ _
  · split
    · split
      · rw [State.handOver_keeps f hlink hreg hout, hlink, hlink]
      · rw [State.launch_keeps f hlink hreg hout, hlink, hlink]
    · exact hlink _ _ _

theorem State.pumpN_keeps (fuel : Nat) (s : State) (i : Nat) (gap : Bool) : f (s.pumpN i gap fuel) = f s := by
  induction fuel generalizing s gap with
  | zero => rfl
  | succ fuel ih =>
    unfold State.pumpN
    split
    · exact (ih _ _).trans (State.sendGap_keeps f hlink hreg hout _ _)
    · split
      · exact (ih _ _).trans (State.sendFrom_keeps f hlink hreg hout hfcol _ _ _)
      · split
        · rfl
        · exact (ih _ _).trans (State.sendGap_keeps f hlink hreg hout _ _)

theorem State.sendFrame_keeps (s : State) (i vc tag : Nat) (o : Bool) (b : BvlBody) : f (s.sendFrame i vc tag o b) = f s := by
  have hq : f (s.queueFrame i vc tag o b) = f s := by
    unfold State.queueFrame
    split
    · rfl
    · exact hlink _ _ _
  exact (State.pumpN_keeps f hlink hreg hout hfcol _ _ _ _).trans hq

theorem State.svcSend_keeps (hmail : ∀ (s : State) (m : List (List Byte)), f { s with svc := { s.svc with mail := m } } = f s)
    (s : State) (ch : Nat) (bs : List Byte) : f (s.svcSend ch bs) = f s := by
  unfold State.svcSend
  split
  · exact hmail _ _
  · split
    · split
      · exact State.sendFrame_keeps f hlink hreg hout hfcol _ _ _ _ _ _
      · rfl
    · exact hout _ _

/-- A numbered message changes, besides, its channel. -/
theorem State.svcNumbered_keeps (hsvc : ∀ (s : State) (v : Svc), f { s with svc := v } = f s) (s : State)
    (ch typ cmd status hseq : Nat) (pl : List Byte) : f (s.svcNumbered ch typ cmd status hseq pl) = f s :=
  (State.svcSend_keeps f hlink hreg hout hfcol (fun s _ => hsvc s _) _ _ _).trans (hsvc _ _)

theorem State.svcAnswer_keeps (hsvc : ∀ (s : State) (v : Svc), f { s with svc := v } = f s) (s : State) (ch status detail : Nat)
    (data : List Byte) : f (s.svcAnswer ch status detail data) = f s := by
  unfold State.svcAnswer
  dsimp only
  split
  · rfl
  · rw [State.svcNumbered_keeps f hlink hreg hout hfcol hsvc, hsvc, State.setChan, hsvc]

end

/-- The pages below the links' are not those of a link's block. -/
theorem State.reg_setReg_high (s : State) (p o p' o' : Nat) (v : Word) (hp : 0x530 ≤ p) (hp' : p' < 0x530) (ho : o' < 0x1000) :
    (s.setReg p o v).reg p' o' = s.reg p' o' := by
  refine State.reg_setReg_ne s p o p' o' v ?_
  unfold regKey
  omega

@[simp] theorem State.svcSend_chan (s : State) (ch k : Nat) (bs : List Byte) : (s.svcSend ch bs).chan k = s.chan k :=
  State.svcSend_keeps (·.chan k) (fun _ _ _ => rfl) (fun _ _ _ _ _ => rfl) (fun _ _ => rfl) (fun _ _ => rfl) (fun _ _ => rfl) s ch bs
@[simp] theorem State.svcSend_devid (s : State) (ch : Nat) (bs : List Byte) : (s.svcSend ch bs).devid = s.devid :=
  State.svcSend_keeps (·.devid) (fun _ _ _ => rfl) (fun _ _ _ _ _ => rfl) (fun _ _ => rfl) (fun _ _ => rfl) (fun _ _ => rfl) s ch bs
theorem State.svcSend_reg (s : State) (ch p o : Nat) (bs : List Byte) (hp : p < 0x530) (ho : o < 0x1000) :
    (s.svcSend ch bs).reg p o = s.reg p o :=
  State.svcSend_keeps (·.reg p o) (fun _ _ _ => rfl) (fun s p' o' v h => s.reg_setReg_high p' o' p o v h hp ho) (fun _ _ => rfl)
    (fun _ _ => rfl) (fun _ _ => rfl) s ch bs

theorem State.svcAnswer_reg (s : State) (ch status detail p o : Nat) (data : List Byte) (hp : p < 0x530) (ho : o < 0x1000) :
    (s.svcAnswer ch status detail data).reg p o = s.reg p o :=
  State.svcAnswer_keeps (·.reg p o) (fun _ _ _ => rfl) (fun s p' o' v h => s.reg_setReg_high p' o' p o v h hp ho) (fun _ _ => rfl)
    (fun _ _ => rfl) (fun _ _ => rfl) s ch status detail data
@[simp] theorem State.svcAnswer_triad (s : State) (ch status detail t : Nat) (data : List Byte) :
    (s.svcAnswer ch status detail data).triad t = s.triad t :=
  State.svcAnswer_keeps (·.triad t) (fun _ _ _ => rfl) (fun _ _ _ _ _ => rfl) (fun _ _ => rfl) (fun _ _ => rfl) (fun _ _ => rfl)
    s ch status detail data

/-- A message on a channel of the device itself goes to the mailbox or leaves: no register changes. -/
theorem State.svcSend_regs (s : State) (ch : Nat) (bs : List Byte) (h : ch < 8) : (s.svcSend ch bs).regs = s.regs := by
  unfold State.svcSend
  rw [if_neg (Nat.not_le.2 h)]
  split <;> rfl

theorem State.svcAnswer_regs (s : State) (ch status detail : Nat) (data : List Byte) (h : ch < 8) :
    (s.svcAnswer ch status detail data).regs = s.regs := by
  unfold State.svcAnswer
  dsimp only
  split
  · rfl
  · exact State.svcSend_regs _ _ _ h

/-- What a message of channels 0 to 2 leaves behind: itself. -/
theorem State.svcSend_out (s : State) (ch : Nat) (bs : List Byte) (h : ch < 3) :
    ∃ mac, (s.svcSend ch bs).out = s.out ++ [.svc ch mac bs] := by
  unfold State.svcSend
  rw [if_neg (by omega), if_neg (by omega)]
  exact ⟨_, rfl⟩

theorem State.svcAnswer_out (s : State) (ch status detail : Nat) (data : List Byte) (h : ch < 3) :
    ∀ o ∈ s.out, o ∈ (s.svcAnswer ch status detail data).out := by
  intro o ho
  unfold State.svcAnswer
  dsimp only
  split
  · exact ho
  · obtain ⟨mac, hs⟩ := State.svcSend_out _ ch _ h
    rw [State.svcNumbered, hs]
    exact List.mem_append_left _ ho

end Sys2Proof.Machine
end

section
/-! The service channels (R397 to R400): the turn, an answer, a notice. -/

namespace Sys2Proof.Machine

@[simp] theorem State.chan_setChan (s : State) (ch k : Nat) (x : Chan) :
    (s.setChan ch x).chan k = if k = ch then x else s.chan k := by
  simp [State.chan, State.setChan, AMap.get_set]

/-- A message depends on the state by DEVID and the boot count alone (R396). -/
theorem State.msgBytes_congr {s t : State} (hd : t.devid = s.devid) (hr : t.reg pgDevice 0x108 = s.reg pgDevice 0x108) :
    t.msgBytes = s.msgBytes := by
  funext typ cmd status hseq wseq ch pl
  simp only [State.msgBytes, State.fld, hd, hr]

/-- An answer to a state with the same channel, DEVID and boot count. -/
theorem State.answered_congr {s t u : State} {ch h cmd status detail : Nat} {data : List Byte} (hc : t.chan ch = s.chan ch)
    (hm : t.msgBytes = s.msgBytes) (ha : t.answered u ch h cmd status detail data) : s.answered u ch h cmd status detail data := by
  unfold State.answered at ha ⊢
  rw [ha, hc, hm]

/-- A numbered message gives its channel the next number and is held there (R398). -/
theorem State.svcNumbered_chan (s : State) (ch typ cmd status hseq k : Nat) (pl : List Byte) :
    (s.svcNumbered ch typ cmd status hseq pl).chan k = if k = ch then
      { s.chan ch with
        wseq := (s.chan ch).wseq + 1
        held := (s.chan ch).held ++ [((s.chan ch).wseq + 1, hseq, s.msgBytes typ cmd status hseq ((s.chan ch).wseq + 1) ch pl)] }
    else s.chan k := by
  unfold State.svcNumbered
  dsimp only
  rw [State.svcSend_chan, State.chan_setChan]

/-- The first request of a channel is complete, and the turn is the channel's (R397, R400). -/
def State.requestDone (s : State) (ch hseq : Nat) (rest : List SvcReq) : State :=
  let t := s.setChan ch { s.chan ch with lastExec := hseq, reqs := rest }
  { t with svc := { t.svc with turn := ch } }

theorem State.requestDone_chan (s : State) (ch hseq k : Nat) (rest : List SvcReq) :
    (s.requestDone ch hseq rest).chan k = if k = ch then { s.chan ch with lastExec := hseq, reqs := rest } else s.chan k :=
  State.chan_setChan s ch k _

theorem State.svcAnswer_eq (s : State) (ch status detail : Nat) (data : List Byte) (r : SvcReq) (rest : List SvcReq)
    (h : (s.chan ch).reqs = r :: rest) : s.svcAnswer ch status detail data =
      (s.requestDone ch r.hseq rest).svcNumbered ch 2 r.cmd status r.hseq (toBytes detail 8 ++ data) := by
  unfold State.svcAnswer
  dsimp only
  rw [h]
  rfl

/-- The channels after an answer: the request is done, the answer held (R397, R398). -/
theorem State.svcAnswer_chan (s : State) (ch status detail k : Nat) (data : List Byte) (r : SvcReq) (rest : List SvcReq)
    (h : (s.chan ch).reqs = r :: rest) :
    (s.svcAnswer ch status detail data).chan k = if k = ch then
      { s.chan ch with
        reqs := rest, lastExec := r.hseq, wseq := (s.chan ch).wseq + 1
        held := (s.chan ch).held ++ [((s.chan ch).wseq + 1, r.hseq,
          s.msgBytes 2 r.cmd status r.hseq ((s.chan ch).wseq + 1) ch (toBytes detail 8 ++ data))] }
    else s.chan k := by
  rw [State.svcAnswer_eq s ch status detail data r rest h, State.svcNumbered_chan, State.requestDone_chan, State.requestDone_chan,
    if_pos rfl, State.msgBytes_congr (s := s) (t := s.requestDone ch r.hseq rest) rfl rfl]
  split
  · rfl
  · rfl

/-! The request at its turn. -/

/-- Where the requests at their turn are none that is answered by itself, none is answered. -/
theorem State.svcSkip_of_refuse {s : State} (h : s.svcRefuse = s) : s.svcSkip = s :=
  foldl_keeps (fun t => t = s) _ _ (fun _ _ _ ht => (congrArg State.svcRefuse ht).trans h) s rfl

theorem State.svcSkip_of_idle {s : State} (h : ∀ k ∈ allChans, (s.chan k).reqs = []) : s.svcSkip = s := by
  have hn : s.svcNext = none := by
    have hf : (allChans.filter fun c => !(s.chan c).reqs.isEmpty) = [] :=
      List.filter_eq_nil_iff.2 fun k hk => by simp [h k hk]
    unfold State.svcNext
    split
    · rfl
    · simp only [hf, List.find?_nil, List.head?_nil]
  refine State.svcSkip_of_refuse ?_
  unfold State.svcRefuse
  rw [hn]

theorem allChans_filter_eq {ch : Nat} (h : ch ∈ allChans) : (allChans.filter fun k => decide (k = ch)) = [ch] := by
  revert ch
  decide

section
variable {s : State} {ch h cmd : Nat} {pl : List Byte} (ha : s.atTurn ch h cmd pl)
include ha

theorem State.atTurn.reqs_self : (s.chan ch).reqs = [⟨h, cmd, pl⟩] := by
  obtain ⟨-, hch, hr, -⟩ := ha
  rw [hr ch hch, if_pos rfl]

theorem State.atTurn.svcNext : s.svcNext = some ch := by
  obtain ⟨hop, hch, hr, -⟩ := ha
  have hf : (allChans.filter fun c => !(s.chan c).reqs.isEmpty) = [ch] := by
    rw [← allChans_filter_eq hch]
    refine List.filter_congr fun k hk => ?_
    rw [hr k hk]
    by_cases e : k = ch <;> simp [e]
  unfold State.svcNext
  rw [hop, if_neg (by decide)]
  simp only [hf, List.find?_cons, List.find?_nil, List.head?_cons]
  split
  · next h1 => split at h1 <;> simp_all
  · rfl

/-- A permitted request of a known command waits for its command row (R401). -/
theorem State.atTurn.svcRefuse (hc : cmdGroup cmd = some (cmd / 16)) : s.svcRefuse = s := by
  have hn := ha.svcNext
  have hq := ha.reqs_self
  obtain ⟨-, -, -, hmay, humb⟩ := ha
  unfold State.svcRefuse
  simp only [hn, hq, hc, hmay, Bool.true_eq_false, if_false]
  rw [if_neg]
  rintro ⟨hu, hg⟩
  have := humb hu
  omega

/-- The command row of the request at its turn performs it, and with it no request is left (R400). -/
theorem State.atTurn.service (hc : cmdGroup cmd = some (cmd / 16)) (f : State → List Byte → State)
    (hf : ∀ k ∈ allChans, ((f s pl).chan k).reqs = []) : s.service ch cmd f = f s pl := by
  have ht : s.svcTake ch cmd = some pl := by
    unfold State.svcTake
    rw [ha.svcNext, if_pos rfl, ha.reqs_self]
    exact if_pos rfl
  unfold State.service
  rw [State.svcSkip_of_refuse (ha.svcRefuse hc)]
  dsimp only
  rw [ht]
  exact State.svcSkip_of_idle hf

/-- A state that still has the channels of the request's turn answers it. -/
theorem State.atTurn.answered {t : State} (ht : ∀ k, t.chan k = s.chan k) (status detail : Nat) (data : List Byte) :
    t.answered (t.svcAnswer ch status detail data) ch h cmd status detail data := by
  have hq : (t.chan ch).reqs = [⟨h, cmd, pl⟩] := (congrArg Chan.reqs (ht ch)).trans ha.reqs_self
  unfold State.answered
  rw [State.svcAnswer_chan t ch status detail ch data _ _ hq, if_pos rfl]

theorem State.atTurn.answer_reqs {t : State} (ht : ∀ k, t.chan k = s.chan k) (status detail : Nat) (data : List Byte) :
    ∀ k ∈ allChans, ((t.svcAnswer ch status detail data).chan k).reqs = [] := by
  have hq : (t.chan ch).reqs = [⟨h, cmd, pl⟩] := (congrArg Chan.reqs (ht ch)).trans ha.reqs_self
  obtain ⟨-, -, hr, -⟩ := ha
  intro k hk
  rw [State.svcAnswer_chan t ch status detail k data _ _ hq]
  split
  · rfl
  · next hne => rw [ht, hr k hk, if_neg hne]

/-- A command row that leads to `t` and answers its request there. -/
theorem State.atTurn.does_answer {c : Instr} {f : State → List Byte → State} {t : State} {status detail : Nat} {data : List Byte}
    {P : State → Prop} (hx : exec c s = .next (s.service ch cmd f)) (hc : cmdGroup cmd = some (cmd / 16))
    (hf : f s pl = t.svcAnswer ch status detail data) (ht : ∀ k, t.chan k = s.chan k)
    (hP : t.answered (t.svcAnswer ch status detail data) ch h cmd status detail data → P (t.svcAnswer ch status detail data)) :
    s.does c P := by
  refine ⟨t.svcAnswer ch status detail data, ?_, hP (ha.answered ht status detail data)⟩
  rw [hx, ha.service hc f (by rw [hf]; exact ha.answer_reqs ht status detail data), hf]

/-- The same of an answer whose DETAIL no rule states. -/
theorem State.atTurn.does_done {c : Instr} {f : State → List Byte → State} {t : State} {status : Nat} {data : List Byte}
    {P : State → Prop} (hx : exec c s = .next (s.service ch cmd f)) (hc : cmdGroup cmd = some (cmd / 16))
    (hf : f s pl = t.svcDone ch status data) (ht : ∀ k, t.chan k = s.chan k)
    (hP : t.answeredFree (t.svcDone ch status data) ch h cmd status data → P (t.svcDone ch status data)) : s.does c P :=
  ha.does_answer (t := t.freeValue.1) (detail := t.freeValue.2.toNat) hx hc hf ht fun h => hP ⟨_, h⟩

end

/-- An answer with a free DETAIL leaves what an answer leaves. -/
theorem State.svcDone_reg (s : State) (ch status p o : Nat) (data : List Byte) (hp : p < 0x530) (ho : o < 0x1000) :
    (s.svcDone ch status data).reg p o = s.reg p o := State.svcAnswer_reg s.freeValue.1 ch status _ p o data hp ho
@[simp] theorem State.svcDone_triad (s : State) (ch status t : Nat) (data : List Byte) :
    (s.svcDone ch status data).triad t = s.triad t := State.svcAnswer_triad s.freeValue.1 ch status _ t data
theorem State.svcDone_regs (s : State) (ch status : Nat) (data : List Byte) (h : ch < 8) :
    (s.svcDone ch status data).regs = s.regs := State.svcAnswer_regs s.freeValue.1 ch status _ data h

end Sys2Proof.Machine
end

section
/-! The reads, the log and the writes of the service channels (R398, R399, R401), and MSG (R62, R417). -/

namespace Sys2Proof.Machine

/-- READREG reads register after register while each answers. -/
theorem State.readRegs_ok (s : State) (page off : Nat) (f : Nat → Word) (n i : Nat) (got : List Byte)
    (hr : ∀ j, j < i + n → off + 8 * j < 0x1000 ∧ s.busRead 0x0201 (regAddr page (off + 8 * j)) 8 = (s, some (f j))) :
    s.readRegs page off i got n = (s, .ok (got ++ (List.range' i n).flatMap fun j => toBytes (f j).toNat 8)) := by
  induction n generalizing i got with
  | zero => simp [State.readRegs]
  | succ n ih =>
    obtain ⟨hlt, hread⟩ := hr i (by omega)
    rw [State.readRegs, if_neg (by omega), hread]
    dsimp only
    rw [ih (i + 1) _ (fun j hj => hr j (by omega)), List.range'_succ, List.flatMap_cons, List.append_assoc]

/-- A first register that gives a bus error ends READREG with index 0. -/
theorem State.readRegs_error (s : State) (page off n : Nat) (hn : 1 ≤ n) (ho : off < 0x1000)
    (hr : s.busRead 0x0201 (regAddr page off) 8 = (s, none)) : s.readRegs page off 0 [] n = (s, .error 0) := by
  obtain ⟨m, rfl⟩ := Nat.exists_eq_add_of_le hn
  rw [Nat.add_comm, State.readRegs, if_neg (by omega), Nat.mul_zero, Nat.add_zero, hr]

theorem State.svcWritereg_accepted (s : State) (ch : Nat) (pl : List Byte) {t : State}
    (h : s.busWrite 0x0201 (regAddr (msgNum pl 0 2) (msgNum pl 2 2)) 8 (BitVec.ofNat 64 (msgNum pl 8 8)) = (t, some .accepted)) :
    s.svcWritereg ch pl = t.svcDone ch 0 [] := by
  unfold State.svcWritereg
  rw [h]

theorem State.svcWritereg_refused (s : State) (ch : Nat) (pl : List Byte) {t : State} {r : Option WOut}
    (h : s.busWrite 0x0201 (regAddr (msgNum pl 0 2) (msgNum pl 2 2)) 8 (BitVec.ofNat 64 (msgNum pl 8 8)) = (t, r))
    (hr : r ≠ some .accepted) : s.svcWritereg ch pl = t.svcDone ch 5 [] := by
  unfold State.svcWritereg
  rw [h]
  split
  · next he => exact absurd (congrArg Prod.snd he) hr
  · next he => exact congrArg (fun x : State × Option WOut => x.1.svcDone ch 5 []) he.symm

/-- What RESEND sends again: the held messages from a number on (R398). -/
def Chan.heldFrom (c : Chan) (frm : Nat) : List (Nat × Nat × List Byte) := c.held.filter fun e => decide (frm ≤ e.1)

/-- Messages sent again on a channel, in their order. -/
def State.sentAgain (s : State) (ch : Nat) (l : List (Nat × Nat × List Byte)) : State := l.foldl (fun s e => s.svcSend ch e.2.2) s

theorem State.svcResendReq_gone (s : State) (ch : Nat) (pl : List Byte)
    (h : msgNum pl 0 4 < (s.chan ch).oldest ∧ (s.chan ch).hack < msgNum pl 0 4) :
    s.svcResendReq ch pl = s.svcAnswer ch 10 (s.chan ch).oldest [] := by
  simp only [State.svcResendReq, State.svcResend, if_pos h]

theorem State.svcResendReq_held (s : State) (ch : Nat) (pl : List Byte)
    (h : ¬ (msgNum pl 0 4 < (s.chan ch).oldest ∧ (s.chan ch).hack < msgNum pl 0 4)) :
    s.svcResendReq ch pl = (s.sentAgain ch ((s.chan ch).heldFrom (msgNum pl 0 4))).svcAnswer ch 0
      ((s.chan ch).held.countP fun e => decide (msgNum pl 0 4 ≤ e.1)) [] := by
  simp only [State.svcResendReq, State.svcResend, if_neg h, List.countP_eq_length_filter]
  rfl

/-- Messages sent again change no channel and nothing that an answer is made of (R398). -/
theorem State.sentAgain_same (s : State) (ch : Nat) (l : List (Nat × Nat × List Byte)) :
    (∀ k, (s.sentAgain ch l).chan k = s.chan k) ∧ (s.sentAgain ch l).msgBytes = s.msgBytes := by
  refine foldl_keeps (fun t => (∀ k, t.chan k = s.chan k) ∧ t.msgBytes = s.msgBytes) _ l (fun t e _ ht => ?_) s ⟨fun _ => rfl, rfl⟩
  obtain ⟨hc, hm⟩ := ht
  refine ⟨fun k => (t.svcSend_chan ch k _).trans (hc k), Eq.trans (State.msgBytes_congr (t.svcSend_devid ch _) ?_) hm⟩
  exact t.svcSend_reg ch _ _ _ (by decide) (by decide)

/-- Messages sent on channels 0 to 2 have all left, and what had left before them too. -/
theorem State.sentAgain_out (s : State) (ch : Nat) (l : List (Nat × Nat × List Byte)) (h : ch < 3) :
    (∀ o ∈ s.out, o ∈ (s.sentAgain ch l).out) ∧ ∀ e ∈ l, ∃ mac, Out.svc ch mac e.2.2 ∈ (s.sentAgain ch l).out := by
  induction l generalizing s with
  | nil => exact ⟨fun o ho => ho, nofun⟩
  | cons x l ih =>
    obtain ⟨mac, hx⟩ := s.svcSend_out ch x.2.2 h
    obtain ⟨hold, hnew⟩ := ih (s.svcSend ch x.2.2)
    refine ⟨fun o ho => hold o (hx ▸ List.mem_append_left _ ho), fun e he => ?_⟩
    rcases List.mem_cons.1 he with rfl | he
    · exact ⟨mac, hold _ (hx ▸ List.mem_append_right _ (List.mem_singleton_self _))⟩
    · exact hnew e he

/-! MSG. -/

theorem State.nTriads_le (s : State) : s.nTriads ≤ 64 := by
  unfold State.nTriads State.dies
  cases s.variant <;> decide

/-- The message's eight words in MSGIN0 to MSGIN7 (R417). -/
def State.msginSet (s : State) (v : Nat → Word) (l : List Nat) : State := l.foldl (fun s j => s.setReg pgSvc (0x180 + 8 * j) (v j)) s

theorem State.msginSet_reg_ne (v : Nat → Word) (l : List Nat) (s : State) (p o : Nat)
    (h : ∀ j ∈ l, regKey p o ≠ regKey pgSvc (0x180 + 8 * j)) : (s.msginSet v l).reg p o = s.reg p o :=
  foldl_keeps (fun t => t.reg p o = s.reg p o) _ l (fun t j hj ht => (t.reg_setReg_ne _ _ _ _ _ (h j hj)).trans ht) s rfl

theorem State.msginSet_reg (v : Nat → Word) (l : List Nat) (s : State) (j : Nat) (hj : j ∈ l) :
    (s.msginSet v l).reg pgSvc (0x180 + 8 * j) = v j := by
  induction l generalizing s with
  | nil => cases hj
  | cons x l ih =>
    by_cases hl : j ∈ l
    · exact ih _ hl
    · obtain rfl : j = x := (List.mem_cons.1 hj).resolve_right hl
      refine (State.msginSet_reg_ne v l _ _ _ fun k hk => ?_).trans (State.reg_setReg_self s _ _ _)
      have : j ≠ k := fun h => hl (h ▸ hk)
      unfold regKey
      omega

/-- MSG has placed its 64 bytes, named the triad and set INFULL (R417). -/
def State.msgPlaced (s : State) (pl : List Byte) : State :=
  ((s.msginSet (fun j => BitVec.ofNat 64 (msgNum pl (8 + 8 * j) 8)) (List.range 8)).setFld pgSvc 0x140 21 16 (msgNum pl 0 1)).setFld
    pgSvc 0x140 8 8 1

theorem State.svcMsg_accepted (s : State) (ch : Nat) (pl : List Byte) (hf : s.bit pgSvc 0x140 8 = false)
    (ht : msgNum pl 0 1 < s.nTriads) : s.svcMsg ch pl = ((s.msgPlaced pl).irq (msgNum pl 0 1) 26).svcDone ch 0 [] := by
  unfold State.svcMsg
  dsimp only
  rw [if_neg (fun h => h.elim (fun hb => by rw [hf] at hb; cases hb) (Nat.not_le.2 ht))]
  rfl

theorem State.svcMsg_refused (s : State) (ch : Nat) (pl : List Byte)
    (h : s.bit pgSvc 0x140 8 = true ∨ s.nTriads ≤ msgNum pl 0 1) : s.svcMsg ch pl = s.svcDone ch 5 [] := if_pos h

/-- Placing a message writes registers and does nothing else. -/
theorem State.msgPlaced_keeps {α : Type} (f : State → α) (h : ∀ (s : State) (p o : Nat) (v : Word), f (s.setReg p o v) = f s)
    (s : State) (pl : List Byte) : f (s.msgPlaced pl) = f s := by
  unfold State.msgPlaced State.setFld
  rw [h, h]
  exact foldl_keeps (fun t => f t = f s) _ _ (fun t j _ ht => (h t _ _ _).trans ht) s rfl

theorem State.msgPlaced_reg (s : State) (pl : List Byte) (p o : Nat) (hp : p ≠ pgSvc) (ho : o < 0x1000) :
    (s.msgPlaced pl).reg p o = s.reg p o := by
  have hk : ∀ o', o' < 0x1000 → regKey p o ≠ regKey pgSvc o' := fun o' ho' h => hp (regKey_inj ho ho' h).1
  unfold State.msgPlaced
  rw [State.reg_setFld_ne _ _ _ _ _ _ _ _ (hk _ (by decide)), State.reg_setFld_ne _ _ _ _ _ _ _ _ (hk _ (by decide))]
  exact State.msginSet_reg_ne _ _ _ _ _ fun j hj => hk _ (by have := List.mem_range.1 hj; omega)

theorem State.msgPlaced_full (s : State) (pl : List Byte) : (s.msgPlaced pl).bit pgSvc 0x140 8 = true := by
  unfold State.bit State.msgPlaced
  rw [State.fld_setFld_self _ _ _ _ _ _ (by decide) (by decide)]
  rfl

theorem State.msgPlaced_dst (s : State) (pl : List Byte) (h : msgNum pl 0 1 < 64) :
    (s.msgPlaced pl).fld pgSvc 0x140 21 16 = msgNum pl 0 1 := by
  unfold State.msgPlaced
  rw [State.fld_setFld_disjoint _ _ _ _ _ _ _ _ (by decide) (by decide), State.fld_setFld_self _ _ _ _ _ _ (by decide) h]

theorem State.msgPlaced_msgin (s : State) (pl : List Byte) (j : Nat) (hj : j < 8) :
    (s.msgPlaced pl).reg pgSvc (0x180 + 8 * j) = BitVec.ofNat 64 (msgNum pl (8 + 8 * j) 8) := by
  have hk : regKey pgSvc (0x180 + 8 * j) ≠ regKey pgSvc 0x140 := by
    unfold regKey
    omega
  unfold State.msgPlaced
  rw [State.reg_setFld_ne _ _ _ _ _ _ _ _ hk, State.reg_setFld_ne _ _ _ _ _ _ _ _ hk]
  exact State.msginSet_reg _ _ _ j (List.mem_range.2 hj)

@[simp] theorem State.msgPlaced_triad (s : State) (pl : List Byte) (t : Nat) : (s.msgPlaced pl).triad t = s.triad t :=
  State.msgPlaced_keeps (·.triad t) (fun _ _ _ _ => rfl) s pl
@[simp] theorem State.msgPlaced_copy (s : State) (pl : List Byte) (k : Nat) : (s.msgPlaced pl).copy k = s.copy k :=
  State.msgPlaced_keeps (·.copy k) (fun _ _ _ _ => rfl) s pl
@[simp] theorem State.msgPlaced_chan (s : State) (pl : List Byte) (k : Nat) : (s.msgPlaced pl).chan k = s.chan k :=
  State.msgPlaced_keeps (·.chan k) (fun _ _ _ _ => rfl) s pl
@[simp] theorem State.msgPlaced_devid (s : State) (pl : List Byte) : (s.msgPlaced pl).devid = s.devid :=
  State.msgPlaced_keeps (·.devid) (fun _ _ _ _ => rfl) s pl

theorem State.msgPlaced_leader (s : State) (pl : List Byte) (t : Nat) : (s.msgPlaced pl).leader t = s.leader t := by
  unfold State.leader State.running
  simp only [State.msgPlaced_copy]

/-- A triad that is awake is so whatever changes on the SVC page. -/
theorem State.msgPlaced_awake (s : State) (pl : List Byte) (t : Nat) (ht : t < s.nTriads) (h : s.awake t) :
    (s.msgPlaced pl).awake t := by
  have hp : (s.msgPlaced pl).powerState t = s.powerState t := by
    unfold State.powerState State.fld
    rw [State.msgPlaced_reg s pl _ _ (by decide) (s.tpwr_lt t ht)]
  unfold State.awake at h ⊢
  simpa only [hp, State.msgPlaced_triad, State.msgPlaced_copy] using h

/-- An interrupt request at a triad that is awake is stamped, and copies that stall in WAIT look for it (R62 to R64). -/
theorem State.irq_awake (s : State) (t v l : Nat) (hl : s.leader t = some l) (hw : s.awake t) :
    s.irq t v = (s.stamped t v (s.deliveryIndex t l)).wakeWaits t := by
  obtain ⟨he, h5, h6, -⟩ := hw
  have hp : (s.stamped t v (s.deliveryIndex t l)).powerState t = s.powerState t := by
    unfold State.stamped
    split <;> rfl
  unfold State.irq State.accept
  rw [hl]
  dsimp only
  rw [if_neg (fun h => h.1 he)]
  change ((s.stamped t v (s.deliveryIndex t l)).wakeTriad t).wakeWaits t = _
  rw [State.wakeTriad, if_neg (by rw [hp]; exact fun h => h.elim h5 h6)]

theorem State.stamped_mem (s : State) (t v d : Nat) : ∃ e ∈ ((s.stamped t v d).triad t).stamps, e.vec = v := by
  unfold State.stamped
  split
  · next h =>
    obtain ⟨e, he, hv⟩ := List.any_eq_true.1 h
    exact ⟨e, he, beq_iff_eq.1 hv⟩
  · rw [State.triad_setTriad_self]
    exact ⟨_, List.mem_append_right _ (List.mem_singleton_self _), rfl⟩

/-- Such a request changes the triad's stamps and copies, and nothing else. -/
theorem State.irq_awake_keeps {α : Type} (f : State → α) (hc : ∀ (s : State) (k : Nat) (c : Copy), f (s.setCopy k c) = f s)
    (ht : ∀ (s : State) (k : Nat) (d : Triad), f (s.setTriad k d) = f s) (s : State) (t v l : Nat) (hl : s.leader t = some l)
    (hw : s.awake t) : f (s.irq t v) = f s := by
  rw [State.irq_awake s t v l hl hw, State.wakeWaits_keeps f hc]
  unfold State.stamped
  split
  · rfl
  · exact ht _ _ _

theorem State.irq_awake_reg (s : State) (t v l p o : Nat) (hl : s.leader t = some l) (hw : s.awake t) :
    (s.irq t v).reg p o = s.reg p o :=
  State.irq_awake_keeps (·.reg p o) (fun _ _ _ => rfl) (fun _ _ _ => rfl) s t v l hl hw
theorem State.irq_awake_chan (s : State) (t v l k : Nat) (hl : s.leader t = some l) (hw : s.awake t) :
    (s.irq t v).chan k = s.chan k :=
  State.irq_awake_keeps (·.chan k) (fun _ _ _ => rfl) (fun _ _ _ => rfl) s t v l hl hw
theorem State.irq_awake_devid (s : State) (t v l : Nat) (hl : s.leader t = some l) (hw : s.awake t) :
    (s.irq t v).devid = s.devid :=
  State.irq_awake_keeps (·.devid) (fun _ _ _ => rfl) (fun _ _ _ => rfl) s t v l hl hw

theorem State.irq_awake_stamps (s : State) (t v l : Nat) (hl : s.leader t = some l) (hw : s.awake t) :
    ∃ e ∈ ((s.irq t v).triad t).stamps, e.vec = v := by
  rw [State.irq_awake s t v l hl hw, State.wakeWaits_keeps (·.triad t) (fun _ _ _ => rfl)]
  exact s.stamped_mem t v _

end Sys2Proof.Machine
end

section
/-! The message registers (R417) and the mailbox (R395). -/

namespace Sys2Proof.Machine

/-- A saturating count is one more, up to its field's greatest value. -/
theorem State.fld_countSat_self (s : State) (p o hi lo : Nat) (h : hi < 64) :
    (s.countSat p o hi lo).fld p o hi lo = min (2 ^ (hi + 1 - lo) - 1) (s.fld p o hi lo + 1) := by
  have hlt := s.fld_lt p o hi lo
  unfold State.countSat
  dsimp only
  split
  · next hv =>
    rw [State.fld_setFld_self _ _ _ _ _ _ h hv]
    omega
  · omega

theorem State.countSat_keeps {α : Type} (f : State → α) (h : ∀ (s : State) (p o : Nat) (v : Word), f (s.setReg p o v) = f s)
    (s : State) (p o hi lo : Nat) : f (s.countSat p o hi lo) = f s := by
  unfold State.countSat
  dsimp only
  split
  · exact h _ _ _ _
  · rfl

theorem State.countSat_reg (s : State) (p o hi lo p' o' : Nat) (h : regKey p' o' ≠ regKey p o) :
    (s.countSat p o hi lo).reg p' o' = s.reg p' o' := by
  unfold State.countSat
  dsimp only
  split
  · exact State.reg_setFld_ne _ _ _ _ _ _ _ _ h
  · rfl

/-- The registers that say whether a channel carries messages: WSTAT, PSTAT, SCTL. -/
theorem State.chanOn_congr {s t : State} (hf : t.fabio = s.fabio) (ht : t.triads = s.triads)
    (hw : t.reg pgWarden 0x108 = s.reg pgWarden 0x108) (hp : t.reg pgPwr 0x108 = s.reg pgPwr 0x108)
    (hs : t.reg pgSvc 0x100 = s.reg pgSvc 0x100) : t.chanOn = s.chanOn := by
  have hu : t.umber = s.umber := by simp only [State.umber, State.fld, hw]
  have hd : t.deviceEntering = s.deviceEntering := by
    unfold State.deviceEntering State.triad State.fld
    rw [hp, ht]
  have hb : ∀ i, t.bit pgSvc 0x100 i = s.bit pgSvc 0x100 i := fun i => by simp only [State.bit, State.fld, hs]
  funext k
  simp only [State.chanOn, State.fld, hf, hw, hu, hd, hb]

/-- MSGCTL.SEND at one channel: a notice where the channel is on (R417). -/
def State.noticeTo (s : State) (c : Nat) (pl : List Byte) : State := if s.chanOn c then s.svcNotice c 0x21 pl else s

/-- A property that neither messages nor the count of dropped notices change. -/
theorem State.noticeTo_keeps {α : Type} (f : State → α) (hlink : ∀ (s : State) (i : Nat) (k : Link), f (s.setLink i k) = f s)
    (hout : ∀ (s : State) (l : List Out), f { s with out := l } = f s)
    (hreg : ∀ (s : State) (p o : Nat) (v : Word), 0x530 ≤ p → f (s.setReg p o v) = f s)
    (hfcol : ∀ (s : State) (c : Fcol), f { s with fcol := c } = f s) (hsvc : ∀ (s : State) (v : Svc), f { s with svc := v } = f s)
    (hcnt : ∀ (s : State), f (s.countSat pgSvc 0x138 47 32) = f s) (s : State) (c : Nat) (pl : List Byte) :
    f (s.noticeTo c pl) = f s := by
  unfold State.noticeTo State.svcNotice
  split
  · split
    · exact State.svcNumbered_keeps f hlink hreg hout hfcol hsvc _ _ _ _ _ _ _
    · exact hcnt s
  · rfl

theorem State.noticeTo_reg (s : State) (c p o : Nat) (pl : List Byte) (hp : p < 0x530) (ho : o < 0x1000)
    (hk : regKey p o ≠ regKey pgSvc 0x138) : (s.noticeTo c pl).reg p o = s.reg p o :=
  State.noticeTo_keeps (·.reg p o) (fun _ _ _ => rfl) (fun _ _ => rfl) (fun s p' o' v h => s.reg_setReg_high p' o' p o v h hp ho)
    (fun _ _ => rfl) (fun _ _ => rfl) (fun s => s.countSat_reg _ _ _ _ _ _ hk) s c pl

theorem State.noticeTo_chanOn (s : State) (c : Nat) (pl : List Byte) : (s.noticeTo c pl).chanOn = s.chanOn := by
  have keep {α : Type} (f : State → α) (hlink : ∀ (s : State) (i : Nat) (k : Link), f (s.setLink i k) = f s)
      (hout : ∀ (s : State) (l : List Out), f { s with out := l } = f s)
      (hreg : ∀ (s : State) (p o : Nat) (v : Word), f (s.setReg p o v) = f s)
      (hfcol : ∀ (s : State) (c : Fcol), f { s with fcol := c } = f s) (hsvc : ∀ (s : State) (v : Svc), f { s with svc := v } = f s) :
      f (s.noticeTo c pl) = f s :=
    State.noticeTo_keeps f hlink hout (fun s _ _ _ _ => hreg s _ _ _) hfcol hsvc
      (fun s => State.countSat_keeps f hreg s _ _ _ _) s c pl
  have low (p o : Nat) (hp : p < 0x530) (ho : o < 0x1000) (hk : regKey p o ≠ regKey pgSvc 0x138) := s.noticeTo_reg c p o pl hp ho hk
  exact State.chanOn_congr (keep (·.fabio) (fun _ _ _ => rfl) (fun _ _ => rfl) (fun _ _ _ _ => rfl) (fun _ _ => rfl) (fun _ _ => rfl))
    (keep (·.triads) (fun _ _ _ => rfl) (fun _ _ => rfl) (fun _ _ _ _ => rfl) (fun _ _ => rfl) (fun _ _ => rfl))
    (low _ _ (by decide) (by decide) (by decide)) (low _ _ (by decide) (by decide) (by decide))
    (low _ _ (by decide) (by decide) (by decide))

theorem State.noticeTo_msgBytes (s : State) (c : Nat) (pl : List Byte) : (s.noticeTo c pl).msgBytes = s.msgBytes :=
  State.msgBytes_congr
    (State.noticeTo_keeps (·.devid) (fun _ _ _ => rfl) (fun _ _ => rfl) (fun _ _ _ _ _ => rfl) (fun _ _ => rfl) (fun _ _ => rfl)
      (fun s => State.countSat_keeps (·.devid) (fun _ _ _ _ => rfl) s _ _ _ _) s c pl)
    (s.noticeTo_reg c _ _ pl (by decide) (by decide) (by decide))

/-- A channel that has issued a notice (R398). -/
def State.noticed (s : State) (k : Nat) (pl : List Byte) : Chan :=
  { s.chan k with
    wseq := (s.chan k).wseq + 1
    held := (s.chan k).held ++ [((s.chan k).wseq + 1, 0, s.msgBytes 3 0x21 0 0 ((s.chan k).wseq + 1) k pl)] }

theorem State.noticeTo_chan (s : State) (c k : Nat) (pl : List Byte) : (s.noticeTo c pl).chan k =
    if k = c ∧ s.chanOn c = true ∧ (s.chan c).load < 16 then s.noticed c pl else s.chan k := by
  unfold State.noticeTo State.svcNotice
  split
  · next hon =>
    split
    · next hl =>
      rw [State.svcNumbered_chan]
      simp only [hon, hl, and_true]
      rfl
    · next hl =>
      rw [if_neg (fun h => hl h.2.2)]
      exact State.countSat_keeps (·.chan k) (fun _ _ _ _ => rfl) s _ _ _ _
  · next hon => rw [if_neg (fun h => hon h.2.1)]

theorem State.noticeTo_dropped (s : State) (c : Nat) (pl : List Byte) : (s.noticeTo c pl).fld pgSvc 0x138 47 32 =
    min 65535 (s.fld pgSvc 0x138 47 32 + if s.chanOn c && decide (16 ≤ (s.chan c).load) then 1 else 0) := by
  have hlt : s.fld pgSvc 0x138 47 32 < 65536 := s.fld_lt pgSvc 0x138 47 32
  unfold State.noticeTo State.svcNotice
  by_cases hon : s.chanOn c = true
  · by_cases hl : (s.chan c).load < 16
    · rw [if_pos hon, if_pos hl, hon, decide_eq_false (Nat.not_le.2 hl)]
      refine Eq.trans ?_ (Nat.min_eq_right (Nat.le_of_lt_succ hlt)).symm
      exact State.svcNumbered_keeps (·.fld pgSvc 0x138 47 32) (fun _ _ _ => rfl)
        (fun s p' o' v h => congrArg (bitsOf · 47 32) (s.reg_setReg_high p' o' _ _ v h (by decide) (by decide))) (fun _ _ => rfl)
        (fun _ _ => rfl) (fun _ _ => rfl) _ _ _ _ _ _ _
    · rw [if_pos hon, if_neg hl, hon, decide_eq_true (Nat.not_lt.1 hl), State.fld_countSat_self _ _ _ _ _ (by decide)]
      rfl
  · rw [if_neg hon, Bool.eq_false_iff.2 hon]
    exact (Nat.min_eq_right (Nat.le_of_lt_succ hlt)).symm

/-- A notice to each channel of a list: each that is on and has room has issued it, the others stand, those that are on without room
are counted. -/
theorem State.noticeTo_all (pl : List Byte) (l : List Nat) (hn : l.Nodup) (s : State) :
    let t := l.foldl (fun s c => s.noticeTo c pl) s
    (∀ k, t.chan k = if k ∈ l ∧ s.chanOn k = true ∧ (s.chan k).load < 16 then s.noticed k pl else s.chan k) ∧
    t.fld pgSvc 0x138 47 32 =
      min 65535 (s.fld pgSvc 0x138 47 32 + l.countP fun k => s.chanOn k && decide (16 ≤ (s.chan k).load)) := by
  induction l generalizing s with
  | nil =>
    exact ⟨fun k => (if_neg (fun h => nomatch h.1)).symm,
      (Nat.min_eq_right (Nat.le_of_lt_succ (s.fld_lt pgSvc 0x138 47 32))).symm⟩
  | cons c l ih =>
    obtain ⟨hc, hl⟩ := List.nodup_cons.1 hn
    have other : ∀ k, k ≠ c → (s.noticeTo c pl).chan k = s.chan k := fun k hk => by
      rw [State.noticeTo_chan, if_neg (fun h => hk h.1)]
    obtain ⟨hchan, hcnt⟩ := ih hl (s.noticeTo c pl)
    refine ⟨fun k => ?_, ?_⟩
    · refine (hchan k).trans ?_
      by_cases hk : k = c
      · subst hk
        rw [if_neg (fun h => hc h.1), State.noticeTo_chan]
        simp only [List.mem_cons_self, true_and]
      · unfold State.noticed
        simp only [other k hk, State.noticeTo_chanOn, State.noticeTo_msgBytes, List.mem_cons, hk, false_or]
    · have hcong : (l.countP fun k => (s.noticeTo c pl).chanOn k && decide (16 ≤ ((s.noticeTo c pl).chan k).load)) =
          l.countP fun k => s.chanOn k && decide (16 ≤ (s.chan k).load) :=
        List.countP_congr fun k hk => by rw [State.noticeTo_chanOn, other k (fun h => hc (h ▸ hk))]
      refine hcnt.trans ?_
      rw [hcong, State.noticeTo_dropped, List.countP_cons]
      omega

/-- PGGEN counts, beyond the plain stores, TMODE and DCTL.MIRROR alone (R425). -/
theorem State.bump_eq (s old : State) (k : PageKind) (i : Nat) (row : RegRow) (w : Wr) (ht : k ≠ .triad) (hd : k ≠ .ddrc) :
    s.bump old k i row w = s := by
  unfold State.bump
  refine if_neg fun h => ?_
  simp [ht, hd] at h

/-- A write that nothing of what every page checks stands against does what its block's register does (R5 to R8, R408). -/
theorem State.pageWrite_accepted {s u : State} {k : PageKind} {i : Nat} {w : Wr} {row : RegRow} {old new : Word}
    (hk : wardenOnly k w.off = false) (hplan : s.planWrite k w = .go row old new false) (hlock : s.commitLocked k w = false)
    (ho : ¬ w.off < 0x40) (hb : s.blockWrite k i row w old new = (u, .accepted)) :
    s.pageWrite k i w = (u.bump s k i row w, .accepted) := by
  unfold State.pageWrite
  rw [hk, if_neg (fun h => Bool.false_ne_true h.2.1), hplan]
  simp only [hlock, Bool.or_false, Bool.false_eq_true, if_false, ho, hb]

theorem wr64_one_sets (iid page off : Nat) : (wr64 iid page off 1).sets 0 = true := by
  change (bitsOf (1 &&& 0xFFFFFFFFFFFFFFFF) 0 0 == 1) = true
  decide

theorem State.wSvc_send (s : State) (row : RegRow) (iid : Nat) (old new : Word) :
    s.wSvc row (wr64 iid pgSvc 0x140 1) old new = (s.msgSend, .accepted) :=
  congrArg (·, WOut.accepted) (if_pos (wr64_one_sets iid pgSvc 0x140))

/-- A write of 1 to MSGCTL that reaches it sends the notices and does nothing else (R417). -/
theorem State.writeReg_msgctl (s : State) (iid : Nat) (new : Word) (h : s.reaches iid pgSvc 0x140 8 1 .svc 0 new) :
    s.writeReg iid pgSvc 0x140 1 = s.msgSend := by
  obtain ⟨-, hpage, -, ⟨row, hplan⟩, hlock⟩ := h
  have hw : s.pageWrite .svc 0 (wr64 iid pgSvc 0x140 1) = (s.msgSend, .accepted) := by
    refine (State.pageWrite_accepted (w := wr64 iid pgSvc 0x140 1) rfl hplan hlock (show ¬ 0x140 < 0x40 by decide)
      (s.wSvc_send row iid (s.reg pgSvc 0x140) new)).trans ?_
    rw [State.bump_eq _ _ .svc _ _ _ nofun nofun]
  unfold State.writeReg State.busWrite
  rw [hpage]
  exact congrArg Prod.fst hw

/-- A read of MSGIN7 that reaches it clears INFULL (R417). -/
theorem State.readReg_msgin7 (s : State) (iid : Nat) (h : s.pageFor iid (regAddr pgSvc 0x1B8) 8 .load = (s, some (.svc, 0))) :
    s.readReg iid pgSvc 0x1B8 = s.msgin7 := by
  unfold State.readReg State.busRead
  rw [h]
  rfl

theorem State.msgin7_empty (s : State) : s.msgin7.bit pgSvc 0x140 8 = false := by
  unfold State.bit State.msgin7
  rw [State.fld_setFld_self _ _ _ _ _ _ (by decide) (by decide)]
  rfl

/-! Nothing is taken at once from a settled state. -/

theorem State.settled.settle {s : State} (h : s.settled) : s.settle = s := by
  have h1 : s.settleOne = none := by
    unfold State.settleOne
    split
    · rfl
    · next e he =>
      obtain ⟨t, tag, ht⟩ := h.1 e (List.mem_of_find?_eq_some he)
      have hp := List.find?_some he
      rw [ht] at hp
      cases hp
  unfold State.settle
  rw [State.settleN, h1]

theorem State.settled.svcSettle {s : State} (h : s.settled) : s.svcSettle = s := by
  unfold State.svcSettle
  rw [h.2]

/-- MAILBOX_POLL leads to the state that the poll leaves, where that one is settled. -/
theorem exec_mailboxPoll {s t : State} (h : s.mailboxPoll = t) (ht : t.settled) : exec .mailboxPoll s = .next t := by
  have hx : exec .mailboxPoll s = .next ((s.mailboxPoll.svcSettle).settle) := rfl
  rw [hx, h, ht.svcSettle, ht.settle]

end Sys2Proof.Machine
end

section
/-! The commands of groups 0 to 2, the message registers and the mailbox (R395, R398, R399, R401, R417). -/

namespace Sys2Proof.Machine

/-! The mailbox (R395). -/

/-- The mailbox's address (R395). -/
def State.mailboxAt (s : State) : Nat := (s.reg pgSvc 0x118 &&& bitMask 47 13).toNat

theorem State.mailboxPoll_off {s : State} (h : s.chanOn 3 = false) : s.mailboxPoll = s := if_pos h

section
variable {s : State} (hon : s.chanOn 3 = true)
include hon

section
variable {f0 : List Byte} (hf : s.memRead 0x0201 s.mailboxAt 8 = (s, some f0)) (h0 : ofBytes f0 = 0)
include hf h0

/-- Without a request, nothing that waits for the response area: nothing happens. -/
theorem State.mailboxPoll_empty (hm : s.svc.mail = []) : s.mailboxPoll = s := by
  unfold State.mailboxAt at hf
  simp only [State.mailboxPoll, hon, hf, h0, hm, Bool.true_eq_false, if_true, if_false]

variable {m f1 : List Byte} {rest : List (List Byte)} (hm : s.svc.mail = m :: rest)
  (hr : s.memRead 0x0201 (s.mailboxAt + 4096) 8 = (s, some f1))
include hm hr

/-- The response area is not free. -/
theorem State.mailboxPoll_waits (h1 : ofBytes f1 ≠ 0) : s.mailboxPoll = s := by
  unfold State.mailboxAt at hf hr
  simp only [State.mailboxPoll, hon, hf, h0, hm, hr, Bool.true_eq_false, if_true, if_false]
  exact if_pos h1

/-- A message goes to the free response area, its flag last. -/
theorem State.mailboxPoll_gives {s1 s2 : State} {b1 b2 : Bool} (h1 : ofBytes f1 = 0)
    (hw1 : ({ s with svc := { s.svc with mail := rest } } : State).memWrite 0x0201 (s.mailboxAt + 4104) m = (s1, b1))
    (hw2 : s1.memWrite 0x0201 (s.mailboxAt + 4096) (toBytes 1 8) = (s2, b2)) : s.mailboxPoll = s2 := by
  unfold State.mailboxAt at hf hr hw1 hw2
  simp only [State.mailboxPoll, hon, hf, h0, hm, hr, hw1, hw2, Bool.true_eq_false, if_true, if_false]
  exact if_neg (fun h => h h1)

end

/-- A request is taken and its flag cleared; where no message waits after it, that is all. -/
theorem State.mailboxPoll_takes {f0 d bs : List Byte} {s1 : State} {b : Bool} (hf : s.memRead 0x0201 s.mailboxAt 8 = (s, some f0))
    (h0 : ofBytes f0 ≠ 0) (hd : s.memRead 0x0201 (s.mailboxAt + 8) 32 = (s, some d)) (hlen : 32 + msgNum d 4 2 ≤ 1056)
    (hbs : s.memRead 0x0201 (s.mailboxAt + 8) (32 + msgNum d 4 2) = (s, some bs))
    (hw : s.memWrite 0x0201 s.mailboxAt (toBytes 0 8) = (s1, b)) (hm : (s1.svcMessage 3 0 bs).svc.mail = []) :
    s.mailboxPoll = s1.svcMessage 3 0 bs := by
  unfold State.mailboxAt at hf hd hbs hw
  simp only [State.mailboxPoll, hon, hf, h0, hd, Nat.min_eq_left hlen, hbs, hw, hm, Bool.true_eq_false, if_false]

end

/-! The obligation. -/

theorem exec_getseq (s : State) (ch : Nat) : exec (.getseq ch) s = .next (s.service ch 0x01 fun s _ => s.svcGetseq ch) := rfl
theorem exec_resend (s : State) (ch : Nat) : exec (.resend ch) s = .next (s.service ch 0x02 fun s pl => s.svcResendReq ch pl) := rfl
theorem exec_readreg (s : State) (ch : Nat) : exec (.readreg ch) s = .next (s.service ch 0x10 fun s pl => s.svcReadreg ch pl) := rfl
theorem exec_logread (s : State) (ch : Nat) : exec (.logread ch) s = .next (s.service ch 0x11 fun s pl => s.svcLogread ch pl) := rfl
theorem exec_writereg (s : State) (ch : Nat) : exec (.writereg ch) s = .next (s.service ch 0x20 fun s pl => s.svcWritereg ch pl) := rfl
theorem exec_msg (s : State) (ch : Nat) : exec (.msg ch) s = .next (s.service ch 0x21 fun s pl => s.svcMsg ch pl) := rfl

section
variable {s : State} {ch h : Nat} {pl : List Byte}

theorem getseq_answers (ha : s.atTurn ch h 0x01 pl) :
    s.does (.getseq ch) fun u => s.answered u ch h 0x01 0 0 (s.chan ch).seqs :=
  ha.does_answer (t := s) (exec_getseq s ch) rfl rfl (fun _ => rfl) id

theorem resend_answers (ha : s.atTurn ch h 0x02 pl) :
    s.does (.resend ch) fun u =>
      if msgNum pl 0 4 < (s.chan ch).oldest ∧ (s.chan ch).hack < msgNum pl 0 4 then s.answered u ch h 0x02 10 (s.chan ch).oldest []
      else s.answered u ch h 0x02 0 ((s.chan ch).held.countP fun e => decide (msgNum pl 0 4 ≤ e.1)) [] ∧
        (ch < 3 → ∀ e ∈ (s.chan ch).held, msgNum pl 0 4 ≤ e.1 → ∃ mac, Out.svc ch mac e.2.2 ∈ u.out) := by
  by_cases hgone : msgNum pl 0 4 < (s.chan ch).oldest ∧ (s.chan ch).hack < msgNum pl 0 4
  · simp only [if_pos hgone]
    exact ha.does_answer (t := s) (exec_resend s ch) rfl (s.svcResendReq_gone ch pl hgone) (fun _ => rfl) id
  · simp only [if_neg hgone]
    obtain ⟨hc, hm⟩ := s.sentAgain_same ch ((s.chan ch).heldFrom (msgNum pl 0 4))
    refine ha.does_answer (exec_resend s ch) rfl (s.svcResendReq_held ch pl hgone) hc fun hans => ?_
    refine ⟨State.answered_congr (hc ch) hm hans, fun hch e he hle => ?_⟩
    obtain ⟨mac, hout⟩ := (s.sentAgain_out ch ((s.chan ch).heldFrom _) hch).2 e (List.mem_filter.2 ⟨he, decide_eq_true hle⟩)
    exact ⟨mac, State.svcAnswer_out _ _ _ _ _ hch _ hout⟩

theorem readreg_answers {f : Nat → Word} (ha : s.atTurn ch h 0x10 pl) (h1 : 1 ≤ msgNum pl 4 2) (h127 : msgNum pl 4 2 ≤ 127)
    (hend : msgNum pl 2 2 + 8 * msgNum pl 4 2 ≤ 0x1000)
    (hr : ∀ i, i < msgNum pl 4 2 → s.busRead 0x0201 (regAddr (msgNum pl 0 2) (msgNum pl 2 2 + 8 * i)) 8 = (s, some (f i))) :
    s.does (.readreg ch) fun u =>
      s.answeredFree u ch h 0x10 0 ((List.range (msgNum pl 4 2)).flatMap fun i => toBytes (f i).toNat 8) := by
  refine ha.does_done (t := s) (exec_readreg s ch) rfl ?_ (fun _ => rfl) id
  have hregs := s.readRegs_ok (msgNum pl 0 2) (msgNum pl 2 2) f (msgNum pl 4 2) 0 [] fun j hj => ⟨by omega, hr j (by omega)⟩
  unfold State.svcReadreg
  dsimp only
  rw [if_neg (by omega), hregs, List.range_eq_range']
  rfl

theorem readreg_fails (ha : s.atTurn ch h 0x10 pl) (h1 : 1 ≤ msgNum pl 4 2) (h127 : msgNum pl 4 2 ≤ 127)
    (ho : msgNum pl 2 2 < 0x1000) (hr : s.busRead 0x0201 (regAddr (msgNum pl 0 2) (msgNum pl 2 2)) 8 = (s, none)) :
    s.does (.readreg ch) fun u => s.answered u ch h 0x10 5 0 [] := by
  refine ha.does_answer (t := s) (exec_readreg s ch) rfl ?_ (fun _ => rfl) id
  have hn : ¬ (msgNum pl 4 2 = 0 ∨ 127 < msgNum pl 4 2) := by omega
  unfold State.svcReadreg
  simp only [if_neg hn, s.readRegs_error _ _ _ h1 ho hr]

theorem readreg_refuses (ha : s.atTurn ch h 0x10 pl) (hn : msgNum pl 4 2 = 0 ∨ 127 < msgNum pl 4 2) :
    s.does (.readreg ch) fun u => s.answeredFree u ch h 0x10 5 [] :=
  ha.does_done (t := s) (exec_readreg s ch) rfl (if_pos hn) (fun _ => rfl) id

theorem logread_answers (ha : s.atTurn ch h 0x11 pl) (h1 : 1 ≤ msgNum pl 4 1) (h31 : msgNum pl 4 1 ≤ 31) :
    s.does (.logread ch) fun u =>
      s.answeredFree u ch h 0x11 0 (((s.logFrom (msgNum pl 0 4)).take (msgNum pl 4 1)).flatMap LogRec.bytes) :=
  ha.does_done (t := s) (exec_logread s ch) rfl (if_neg (by omega)) (fun _ => rfl) id

theorem logread_refuses (ha : s.atTurn ch h 0x11 pl) (hn : msgNum pl 4 1 = 0 ∨ 31 < msgNum pl 4 1) :
    s.does (.logread ch) fun u => s.answeredFree u ch h 0x11 5 [] :=
  ha.does_done (t := s) (exec_logread s ch) rfl (if_pos hn) (fun _ => rfl) id

/-- WRITEREG answers from the state that its write leaves: 0 where the write was accepted, else 5. -/
theorem writereg_answers {t : State} {r : Option WOut} (ha : s.atTurn ch h 0x20 pl)
    (hw : s.busWrite 0x0201 (regAddr (msgNum pl 0 2) (msgNum pl 2 2)) 8 (BitVec.ofNat 64 (msgNum pl 8 8)) = (t, r))
    (hsvc : t.svc = s.svc) :
    s.does (.writereg ch) fun u =>
      (r = some .accepted → t.answeredFree u ch h 0x20 0 []) ∧ (r ≠ some .accepted → t.answeredFree u ch h 0x20 5 []) ∧
      (ch < 8 → u.regs = t.regs) := by
  have hc : ∀ k, t.chan k = s.chan k := fun k => by unfold State.chan; rw [hsvc]
  by_cases hr : r = some .accepted
  · refine ha.does_done (exec_writereg s ch) rfl (s.svcWritereg_accepted ch pl (hr ▸ hw)) hc fun hans => ?_
    exact ⟨fun _ => hans, fun hne => absurd hr hne, t.svcDone_regs ch 0 []⟩
  · refine ha.does_done (exec_writereg s ch) rfl (s.svcWritereg_refused ch pl hw hr) hc fun hans => ?_
    exact ⟨fun he => absurd he hr, fun _ => hans, t.svcDone_regs ch 5 []⟩

theorem msg_answers (ha : s.atTurn ch h 0x21 pl) (hfull : s.bit pgSvc 0x140 8 = false) (ht : msgNum pl 0 1 < s.nTriads)
    (hlead : s.leader (msgNum pl 0 1) ≠ none) (haw : s.awake (msgNum pl 0 1)) :
    s.does (.msg ch) fun u =>
      s.answeredFree u ch h 0x21 0 [] ∧ u.bit pgSvc 0x140 8 = true ∧ u.fld pgSvc 0x140 21 16 = msgNum pl 0 1 ∧
      (∀ j, j < 8 → u.reg pgSvc (0x180 + 8 * j) = BitVec.ofNat 64 (msgNum pl (8 + 8 * j) 8)) ∧
      ∃ e ∈ (u.triad (msgNum pl 0 1)).stamps, e.vec = 26 := by
  obtain ⟨l, hl⟩ := Option.ne_none_iff_exists'.1 hlead
  have hl' : (s.msgPlaced pl).leader (msgNum pl 0 1) = some l := (s.msgPlaced_leader pl _).trans hl
  have haw' := s.msgPlaced_awake pl _ ht haw
  let t := (s.msgPlaced pl).irq (msgNum pl 0 1) 26
  have hreg : ∀ p o, t.reg p o = (s.msgPlaced pl).reg p o := fun p o => State.irq_awake_reg _ _ 26 l p o hl' haw'
  have hchan : ∀ k, t.chan k = s.chan k := fun k => (State.irq_awake_chan _ _ 26 l k hl' haw').trans (s.msgPlaced_chan pl k)
  have hmsg : t.msgBytes = s.msgBytes :=
    State.msgBytes_congr ((State.irq_awake_devid _ _ 26 l hl' haw').trans (s.msgPlaced_devid pl))
      ((hreg _ _).trans (s.msgPlaced_reg pl _ _ (by decide) (by decide)))
  have hsvc : ∀ o, o < 0x1000 → (t.svcDone ch 0 []).reg pgSvc o = (s.msgPlaced pl).reg pgSvc o := fun o ho =>
    (t.svcDone_reg ch 0 pgSvc o [] (by decide) ho).trans (hreg pgSvc o)
  refine ha.does_done (exec_msg s ch) rfl (s.svcMsg_accepted ch pl hfull ht) hchan fun ⟨d, hans⟩ =>
    ⟨⟨d, State.answered_congr (hchan ch) hmsg hans⟩, ?_, ?_, fun j hj => ?_, ?_⟩
  · unfold State.bit State.fld
    rw [hsvc _ (by decide)]
    exact s.msgPlaced_full pl
  · unfold State.fld
    rw [hsvc _ (by decide)]
    exact s.msgPlaced_dst pl (Nat.lt_of_lt_of_le ht s.nTriads_le)
  · rw [hsvc _ (by omega), s.msgPlaced_msgin pl j hj]
  · rw [State.svcDone_triad]
    exact State.irq_awake_stamps _ _ _ l hl' haw'

theorem msg_refuses (ha : s.atTurn ch h 0x21 pl) (hn : s.bit pgSvc 0x140 8 = true ∨ s.nTriads ≤ msgNum pl 0 1) :
    s.does (.msg ch) fun u => s.answeredFree u ch h 0x21 5 [] ∧ (ch < 8 → u.regs = s.regs) :=
  ha.does_done (t := s) (exec_msg s ch) rfl (s.svcMsg_refused ch pl hn) (fun _ => rfl) fun hans => ⟨hans, s.svcDone_regs ch 5 []⟩

end

/-- The message that SEND takes out of MSGOUT (R417). -/
def State.msgOut (s : State) : List Byte := (List.range 8).flatMap fun j => toBytes (s.reg pgSvc (0x1C0 + 8 * j)).toNat 8

theorem send_notices {s : State} {iid : Nat} {new : Word} (h : s.reaches iid pgSvc 0x140 8 1 .svc 0 new) :
    s.does (.send iid) fun u =>
      (∀ k, k < 4 → s.chanOn k = true → (s.chan k).load < 16 → u.chan k = s.noticed k s.msgOut) ∧
      (∀ k, s.chanOn k = false ∨ 16 ≤ (s.chan k).load ∨ 4 ≤ k → u.chan k = s.chan k) ∧
      u.fld pgSvc 0x138 47 32 = min 65535 (s.fld pgSvc 0x138 47 32 +
        (List.range 4).countP fun k => s.chanOn k && decide (16 ≤ (s.chan k).load)) := by
  obtain ⟨hchan, hcnt⟩ := State.noticeTo_all s.msgOut (List.range 4) List.nodup_range s
  refine ⟨s.msgSend, congrArg Host.Outcome.next (s.writeReg_msgctl iid new h), fun k hk hon hl => ?_, fun k hk => ?_, hcnt⟩
  · exact (hchan k).trans (if_pos ⟨List.mem_range.2 hk, hon, hl⟩)
  · refine (hchan k).trans (if_neg fun ⟨hm, hon, hl⟩ => ?_)
    rcases hk with hk | hk | hk
    · rw [hk] at hon
      cases hon
    · exact absurd hl (Nat.not_lt.2 hk)
    · exact absurd (List.mem_range.1 hm) (Nat.not_lt.2 hk)

theorem msgin7Read_empties {s : State} {iid : Nat}
    (h : s.pageFor iid (regAddr pgSvc 0x1B8) 8 .load = (s, some (.svc, 0))) :
    s.does (.msgin7Read iid) fun u => u.bit pgSvc 0x140 8 = false ∧
      ∀ page off, (page, off) ≠ (pgSvc, 0x140) → off < 0x1000 → u.reg page off = s.reg page off := by
  refine ⟨s.msgin7, congrArg Host.Outcome.next (s.readReg_msgin7 iid h), s.msgin7_empty, fun page off hne ho => ?_⟩
  refine State.reg_setFld_ne _ _ _ _ _ _ _ _ fun hk => hne ?_
  obtain ⟨rfl, rfl⟩ := regKey_inj ho (by decide) hk
  rfl

end Sys2Proof.Machine

namespace Sys2Proof
open Sys2Proof.Machine

/-- Settles O54: each command of groups 0 to 2 leads to a state that answers the request at its turn; what it does besides stands in the
lemma of its name. -/
theorem serviceReadsAndWrites : Obligations.ServiceReadsAndWrites := by
  intro s t ch h iid pl r f new d bs m f0 f1 rest s1 s2
  refine ⟨getseq_answers, resend_answers, readreg_answers, readreg_fails, readreg_refuses, logread_answers, logread_refuses,
    writereg_answers, msg_answers, msg_refuses, send_notices, msgin7Read_empties, fun hoff hs => ?_, fun hon hf h0 hs => ⟨?_, ?_⟩, ?_⟩
  · exact exec_mailboxPoll (State.mailboxPoll_off hoff) hs
  · exact fun hm => exec_mailboxPoll (State.mailboxPoll_empty hon hf h0 hm) hs
  · exact fun hm hr => ⟨fun h1 => exec_mailboxPoll (State.mailboxPoll_waits hon hf h0 hm hr h1) hs,
      fun h1 hw1 hw2 hs2 => exec_mailboxPoll (State.mailboxPoll_gives hon hf h0 hm hr h1 hw1 hw2) hs2⟩
  · intro hon hf h0 hd hlen hbs hw hmsg hs2 hm
    subst hmsg
    exact exec_mailboxPoll (State.mailboxPoll_takes hon hf h0 hd hlen hbs hw hm) hs2

end Sys2Proof
end
